-- ==== Sys2Proof/Word.lean ====
section
/-! DEFINITION. The word types of the model and the plain containers its state is made of. -/

namespace Sys2Proof

/-- A byte of memory or of a structure. -/
abbrev Byte := BitVec 8

/-- A 64-bit word: a mailbox word, a register of 64 bits, a u64 of a structure. -/
abbrev Word := BitVec 64

/-- A 32-bit register or field. -/
abbrev Word32 := BitVec 32

/-- A finite table by number: the listed entries, by rising key; an unlisted key holds the table's default. -/
abbrev Map (α : Type) := List (Nat × α)

end Sys2Proof
end

