-- ==== Sys2Proof/Syntax.lean ====
section
/-! DEFINITION. The commands of the block: one constructor of Instr for each row of spec/opcode_table.json, in the
table's order. A row names the step; its operands are what the step takes from outside: pin levels, addresses and data
of an access, the unit that takes the step, or the outcome that the environment decides (a trained width, a CRC result,
a firmware decision), which log entry 16 names. -/

namespace Sys2Proof

/-- Who makes a register access: the host at an offset of BAR0, or a program (or a peer) at a local physical address. -/
inductive Source where
  | host
  | program
  deriving DecidableEq, Repr

/-- What the management processor decides on a report (R591 and Fencing a core in service). -/
inductive Decision where
  | nothing
  | fence (position : Nat)
  | retireSlice (slice : Nat)
  deriving DecidableEq, Repr

/-- How a device read of host memory ended (R794). -/
inductive HostRead where
  | ok
  | unsupported
  | abort
  | timeout
  | poisoned
  deriving DecidableEq, Repr

/-- A Silk frame as it arrives (R702): the trailer fields, the flit bytes, and whether its CRC is correct. -/
structure Frame where
  flits : List Byte
  seq : BitVec 16
  ack : BitVec 16
  nak : Bool
  idle : Bool
  resume : Bool
  nflits : Nat
  creditVc : Nat
  creditN : Nat
  epoch : BitVec 32
  crc : BitVec 32
  deriving DecidableEq, Repr

/-- The lanes on which a Silk port has trained (R701). -/
inductive Lanes where
  | all
  | low
  | high
  deriving DecidableEq, Repr

/-- What start-up training and the self-test find (R109, R537, R553, R557, R601). -/
structure SelfTest where
  /-- trained rate of each GDDR7 controller, as GDC_STATUS.RATE -/
  rates : List Nat
  /-- (cluster, position) of cores that fail -/
  cores : List (Nat × Nat)
  /-- (cluster, slice) of slices that fail -/
  slices : List (Nat × Nat)
  /-- (controller, channel) of channels that fail -/
  channels : List (Nat × Nat)
  /-- (port, capacity in bytes) of each Type 3 device, in enumeration order -/
  expanders : List (Nat × Nat)
  /-- (port, lanes, speed, switched) of each trained CXL link -/
  links : List (Nat × Nat × Nat × Bool)
  /-- the hub units pass -/
  hubOk : Bool
  deriving DecidableEq, Repr

inductive Instr where
  -- power, reset and test port
  | powerGood (boostEn complyEn rsvdA rsvdB : Bool) (width speed : Nat)
  | resetInput (ns : Nat)
  | refclkLoss (ns : Nat)
  | coldPowerUp (ns : Nat) (regulator : Bool)
  | thermalTrip (sensor : Nat) (eighths : Int)
  | functionLevelReset
  | laserLoss (engine : Nat)
  | tapReset
  | extest (pins : BitVec 6)
  | samplePreload (pins : BitVec 6)
  | idcode
  | optLoop (value : BitVec 72)
  | optResult (locked : BitVec 18) (errors : List Nat)
  | bypass (tdi : Bool)
  -- host accesses
  | bar0BadAccess (write : Bool) (offset size : Nat)
  | apertureRead (offset size : Nat)
  | apertureWrite (offset : Nat) (data : List Byte) (poisoned : Bool)
  | registerWrite (source : Source) (addr size : Nat) (value : Word)
  | sqTailWrite (q : Nat) (v : Word32)
  | cqHeadWrite (q : Nat) (v : Word32)
  | cqArmWrite (q : Nat) (arm : Bool)
  | queueEnable (q : Nat)
  | queueDisable (q : Nat)
  | syncValueWrite (n : Nat) (v : Word)
  | syncOwnerWrite (g : Nat) (v : Word32)
  | invalPage (asid : BitVec 12)
  | invalAddressSpace (asid : BitVec 12)
  | invalAll (asid : BitVec 12)
  | invalReservedScope (asid : BitVec 12)
  | invalidationComplete
  | migHoldRequest (asid : BitVec 12) (all : Bool)
  | migHoldRelease (asid : BitVec 12) (all : Bool)
  | migHoldHeld
  | silkRouteWrite (n : Nat) (ports : BitVec 12)
  | mbReqWrite (m : Nat) (w : Word)
  | mbCommit (m : Nat) (poison : Bool)
  | mbAbort (m : Nat)
  | mbFlush (m : Nat)
  | mbRspRead (m : Nat)
  | mbResponseWrite (m : Nat)
  -- mailbox commands
  | identify (m : Nat)
  | configSet (m : Nat)
  | oppointGet (m : Nat)
  | oppointSet (m : Nat)
  | admissionRead (m : Nat)
  | coreMapReport (m : Nat)
  | coreMapFence (m : Nat)
  | coreMapRetireSlice (m : Nat)
  | coreMapClusterReset (m : Nat)
  | tierPolicySet (m : Nat)
  | tierPolicyGet (m : Nat)
  | framePoolAdd (m : Nat)
  | framePoolRemove (m : Nat)
  | framePoolQuery (m : Nat)
  | topologyRead (m : Nat)
  | telemetryRead (m : Nat)
  | eventRead (m : Nat)
  | linkRetireChannel (m : Nat)
  | linkAddExpander (m : Nat)
  | linkRemoveExpander (m : Nat)
  | linkRetrainLane (m : Nat)
  | linkOe17Takeover (m : Nat)
  | linkOe17Handback (m : Nat)
  | linkSetSyncRole (m : Nat)
  | fwBegin (m : Nat)
  | fwData (m : Nat)
  | fwCommit (m : Nat)
  | fwAbort (m : Nat)
  | sanitise (m : Nat)
  | attest (m : Nat)
  | pairSet (m : Nat)
  | opStatus (m : Nat)
  -- events and orders
  | eventRecord
  | counterSnapshot
  | heatSnapshot
  | telemetryRefresh (temps : List Int) (supplies powers : List Nat)
  | faultReport (cluster position : Nat) (addr : Nat) (decision : Decision)
  | fenceOrder (c : Nat)
  | clusterUnitFault (c : Nat)
  | routerFault (die : Nat)
  | retireSliceOrder (c : Nat)
  | channelRetireOrder (q k : Nat)
  | channelRetireComplete (q k : Nat)
  | cxlDeviceAdded (port capacity : Nat) (switched : Bool) (lanes speed : Nat)
  | cxlDeviceRemoved (port base : Nat)
  | pageRetireOrder (asid va tier : Nat)
  | migrationComplete (asid va : Nat)
  | handoverOrder (c : Nat) (runs : Bool)
  | dispatcherHandover
  | mantisHandover
  | firmwareReady (test : SelfTest)
  | svnFuseBlown
  | clusterTestOrder (c : Nat) (passed : Bool)
  | sanitiseOrder (failedWords : Nat)
  | sanitiseComplete
  | abortOrder (die : Nat)
  | rampBegin
  | rampEnd
  -- dispatch and step control
  | launchFetch (q : Nat)
  | dependencyCycle (launches : List Nat)
  | preload (c : Nat)
  | launchStart (id : Nat)
  | barrierComplete (id : Nat)
  | launchComplete (id : Nat)
  | pacedStepStart (c : Nat)
  | launchWideStepEnd (id : Nat)
  | stepBoundExpiry (id : Nat)
  | stepRecompute (c : Nat)
  -- the operation list
  | nop (c : Nat)
  | stepEnd (c : Nat)
  | sync (c : Nat)
  | time (c : Nat)
  | entropy (c : Nat)
  | rclear (c : Nat)
  | rdrain (c : Nat)
  | clear (c : Nat)
  | mma (c : Nat)
  | drain (c : Nat)
  | vconv (c : Nat)
  | vquant (c : Nat)
  | vbin (c : Nat)
  | vfma (c : Nat)
  | vfunc (c : Nat)
  | vred (c : Nat)
  | vbits (c : Nat)
  | load (c : Nat)
  | store (c : Nat)
  | send (c : Nat)
  | mcast (c : Nat)
  | reduce (c : Nat)
  | counters (c : Nat)
  | anneal (c : Nat)
  | gibbs (c : Nat)
  | loadimg (c : Nat)
  | ctxread (c : Nat)
  | release (c : Nat)
  -- run steps
  | annealPhase (ctx : Nat)
  | sweepEnd (ctx : Nat)
  | rotationStart (ctx : Nat)
  | checkpointWrite (ctx : Nat)
  | traceRingWrite (c : Nat)
  | reportPacket (ctx sender : Nat)
  | reportTimeout (ctx : Nat)
  -- network and memory ports
  | reductionPartialArrival (c : Nat)
  | routerPacket (fifo : Nat) (badMain badCopy : BitVec 8) (badFlits : BitVec 17)
  | mcastPacketAccept (fifo : Nat)
  | gddr7Burst (addr : Nat) (write : Bool) (crcFails : Nat) (ecc : Nat)
  | gddr7Refresh (q k : Nat) (tempC : Int)
  | channelFailed (q k : Nat)
  | cxlLinkDown (port : Nat)
  -- Silk
  | silkFrameReceive (p : Nat) (frame : Frame)
  | silkReplayTimeout (p : Nat)
  | silkTrainingDone (p : Nat) (lanes : Lanes) (partnerEpoch : BitVec 32) (partnerAck : BitVec 16) (partner : Option Nat)
  | silkPortDownTimeout (p : Nat)
  | laneRetrainDone (p : Nat) (ok : Bool)
  | oe17SubstitutionDone (p : Nat) (ok : Bool)
  | hostLinkMoveDone (ok : Bool) (recovered : Bool)
  | silkReadRequest (src tag : Nat) (addr length : Nat)
  | silkWrite (src tag : Nat) (addr : Nat) (data : List Byte) (last : Bool)
  | silkAtomic (src tag : Nat) (kind : Nat) (addr : Nat) (a b : Word)
  | silkResponse (src tag : Nat) (status : Nat) (data : List Byte) (poisonMap : BitVec 128) (last : Bool)
  | silkTransactionTimeout (tag : Nat)
  | timeRequestSend
  | timeRequest (src : Nat) (t1 t2 : Word)
  | timeResponse (t1 t2 t3 t4 : Word)
  | timeMeasurementTimeout
  | deferredCricketCorrection
  | barrierPoll (id : Nat)
  | barrierTimeout (id : Nat)
  | digestPacket (src : Nat) (tag seq sweep : Word) (digest : List Byte)
  | digestTimeout (id : Nat)
  -- entropy source
  | entropySample (counts : List Nat)
  | healthWindowEnd
  | generateRequest (requester bits : Nat)
  | generateDeliver
  -- the last rows
  | badCommand (m : Nat)
  | cxlReadResponse (port addr : Nat) (data : List Byte) (poison : Bool)
  | hostReadCompletion (addr : Nat) (data : List Byte) (outcome : HostRead)
  | hostLinkDown
  | laserReady (engine : Nat)
  deriving DecidableEq, Repr

end Sys2Proof
end

