-- ==== Sys2Proof/Decode.lean ====
section
/-! DEFINITION. The decoder that the host's interface asks for. The table of the spec gives no row any bits (its fields
lists are empty): the commands are steps of a block, not words, so no word spells one. -/

namespace Sys2Proof

/-- The command that a word spells by the table's bits: none, since no row has bits. -/
def decodeTableWord (_nbits _w : Nat) : Option Instr := none

end Sys2Proof
end

