-- ==== Sys2Proof/Config.lean ====
section
/-! DEFINITION. What every unit of the device fixes (counts, addresses, format tables of the spec) and the free values,
which are constants without a body: nothing can be proved of the value of one. -/

namespace Sys2Proof.Config

/-! ## Free values (DESIGN CHOICE, log entry 6) -/

/-- A free number: the value of the n-th draw of the model where the spec leaves a value open. -/
opaque freeNat : Nat → Nat

/-- A free choice between two behaviours that the spec allows. -/
opaque freeBool : Nat → Bool

/-- What an expander returns for a byte that neither a write nor a response has shown (R1079). -/
opaque cxlByte : Nat → BitVec 8

/-- Whether an expander reports poison for a 64 B line that neither a write nor a response has shown (R1079). -/
opaque cxlPoison : Nat → Bool

/-- A byte of host memory that no completion has shown (R793). -/
opaque hostByte : Nat → BitVec 8

/-- A byte of a peer's memory, by global address, that no response has shown (R736). -/
opaque peerByte : Nat → BitVec 8

/-- The LINK_EPOCH that a port chooses, by the number of choices made (R712). -/
opaque linkEpoch : Nat → BitVec 32

/-! ## Counts -/

/-- Clusters of the package (R7). -/
def clusters : Nat := 256

/-- Logical cores per cluster of a grade: 0 CX9600-A, 1 CX9600-B, 2 CX9600-C (R6, R866). -/
def lcores (grade : Nat) : Nat := if grade = 0 then 62 else if grade = 1 then 60 else 56

/-- The largest value of a 48-bit count (R336, R353, R516, R629). -/
def countMax : Nat := 2 ^ 48 - 1

/-! ## The local physical map (R520, R524) -/

def stackedSize : Nat := 0x780000000
def clusterStacked : Nat := 0x7800000
def snapshotOffset : Nat := 0x7000000
def coreBase : Nat := 0x001000000000
def coreSize : Nat := 0x20000
def coreRegion : Nat := 0x80000000
def gddrBase : Nat := 0x002000000000
def gddrSize : Nat := 0x1000000000
def regBase : Nat := 0x00F000000000
def regSize : Nat := 0x10000000
def cxlBase : Nat := 0x100000000000
def cxlSize : Nat := 0x100000000000
def ctxTable : Nat := 0x002FC0000000
/-- Entries of the context table (R281). -/
def contexts : Nat := 262144
def redirectArea : Nat := 0x002FC4000000
def sliceBytes : Nat := 0x780000
def firmwareArea : Nat := 0x002FE2000000
def workingArea : Nat := 0x002FF2000000
/-- The four reserved GDDR7 areas of R524 fill this range, channel 3 of controller 15. -/
def reservedGddr : Nat := 0x002FC0000000
def reservedGddrSize : Nat := 0x40000000

/-! ## The admission figures of R954, in ps: PERIOD, S_GDDR, S_CXL, S_SILK, S_MESH, T_START, T_STEP, T_RESTORE,
P_GDDR, P_CXL, P_SILK, H_MIB, T_ENT, in the order of R953. -/

def figuresEco : List Nat :=
  [1040, 1260000, 2060000, 10060000, 520000, 2400000, 130000, 26000000, 960000, 1660000, 4060000, 250000000, 610000000]

def figuresNominal : List Nat :=
  [800, 1200000, 2000000, 10000000, 400000, 2000000, 100000, 20000000, 900000, 1600000, 4000000, 250000000, 610000000]

def figuresBoost : List Nat :=
  [660, 1165000, 1965000, 9965000, 330000, 1800000, 83000, 16500000, 865000, 1565000, 3965000, 250000000, 610000000]

/-- The figures of an operating point: 0 Eco, 1 Nominal, 2 Boost. -/
def figures (point : Nat) : List Nat :=
  if point = 0 then figuresEco else if point = 1 then figuresNominal else figuresBoost

end Sys2Proof.Config
end

