-- ==== Sys2Proof/Machine/State.lean ====
section
/-! DEFINITION. The state of the block as plain data, block by block of R48, with its reset values; the reasons a step
can stop. A comment at a field gives the rule that names it. -/

namespace Sys2Proof.Machine

/-- Reasons for which the machine stops. -/
inductive Fault where
  /-- Raised by POWER_GOOD when RSVD_A or RSVD_B is sampled high: R1046 puts that outside the specification and the
  private test modes it selects are not documented. Safe: the model stops where the spec describes nothing. -/
  | reservedStrap
  deriving DecidableEq, Repr

/-- Reasons for which a command has no meaning in the model. -/
inductive Refusal where
  /-- Raised by an arm of exec whose command has no meaning yet. Safe: the model stops. -/
  | notModelled (mnemonic : String)
  deriving DecidableEq, Repr

/-! ## Shared records -/

/-- A 48-bit count that stops at 2^48 - 1 with its sticky OVF bit (R353, R516, R629, R695, R784, R877, R929, R977, R1028). -/
structure Counter where
  count : Nat := 0
  ovf : Bool := false
  deriving DecidableEq, Repr

/-- An event record (R952). -/
structure EvRec where
  cricket : Word := 0
  kind : Nat := 0
  source : Nat := 0
  wher : Word := 0
  detail : Word := 0
  deriving DecidableEq, Repr

/-- The state of an accumulator element: the wide partial record of R189 without its binary point. -/
structure Wide where
  v : BitVec 160 := 0
  n : BitVec 32 := 0
  flags : BitVec 8 := 0
  deriving DecidableEq, Repr

/-- A wide partial record as it travels (R189). -/
structure WideRec where
  w : Wide := {}
  f : Int := 0
  deriving DecidableEq, Repr

/-- The open chunk of an element (R181 to R186): its index, its family, and the sum of the products that arrived. -/
structure Chunk where
  j : Nat
  isFloat : Bool
  /-- running FP32 sum of a float chunk (R184) -/
  fsum : BitVec 32 := 0
  /-- exact sum m * 2^e of an integer chunk (R185) -/
  im : Int := 0
  ie : Int := 0
  /-- an integer chunk with an operand from an invalid group (R186) -/
  inan : Bool := false
  deriving DecidableEq, Repr

structure Elem where
  wide : Wide := {}
  chunk : Option Chunk := none
  deriving DecidableEq, Repr

/-- An accumulator tile: binary point and 16 x 16 elements, element (i, j) under key 16 i + j (R188, R190). -/
structure Tile where
  f : Int := 0
  els : Map Elem := []
  deriving DecidableEq, Repr

/-- A tensor descriptor (R429). -/
structure Desc where
  format : Nat
  plane : Bool
  isVirtual : Bool
  argrel : Bool
  rows : Nat
  cols : Nat
  addr : Nat
  expAddr : Nat
  rowStride : Nat
  expStride : Nat
  deriving DecidableEq, Repr

/-- An operation word (R459). -/
structure OpWord where
  opcode : Nat
  oflags : Nat
  wait : Nat
  aux : Nat
  a : Nat
  b : Nat
  c : Nat
  d : Nat
  reserved0 : Nat
  cores : Nat
  imm : List Nat
  reserved1 : Nat
  deriving DecidableEq, Repr

/-- A step-table entry (R438). -/
structure StepEntry where
  nhp : Nat
  txEnt : Nat
  repeatMax : Nat
  txGddr : Nat
  txCxl : Nat
  txSilk : Nat
  txMesh : Nat
  deriving DecidableEq, Repr

/-- A program header (R437). -/
structure ProgHeader where
  lcores : Nat := 0
  marks : Nat := 0
  clusters : Nat := 0
  steps : Nat := 0
  argBytes : Nat := 0
  stepTableOff : Nat := 0
  cprogDirOff : Nat := 0
  imageSize : Nat := 0
  placeOff : Nat := 0
  placeCount : Nat := 0
  deriving DecidableEq, Repr

/-! ## Fuses, pins, power (files 13 and 14) -/

/-- DESIGN CHOICE, log entry 4: fuse contents are those of one unit: grade A, everything else zero, the provisioning fuse blown. -/
structure Fuses where
  grade : Nat := 0
  vendor : BitVec 16 := 0
  revision : BitVec 8 := 0
  manufacturer : BitVec 11 := 0
  /-- (cluster, position) pairs that failed manufacturing test (R106, R108) -/
  failed : List (Nat × Nat) := []
  serial : BitVec 64 := 0
  identitySeed : BitVec 384 := 0
  provisioned : Bool := true
  /-- KEY_HASH_k as big-endian numbers of the 48-byte hash strings (R1004, R1010) -/
  keyHash : List (BitVec 384) := [0, 0, 0, 0]
  revoked : BitVec 4 := 0
  svn : BitVec 64 := 0
  deriving DecidableEq, Repr

inductive Power where
  /-- waiting for power-good (R1053) -/
  | down
  | good
  deriving DecidableEq, Repr

structure Straps where
  boostEn : Bool := false
  complyEn : Bool := false
  rsvdA : Bool := false
  rsvdB : Bool := false
  deriving DecidableEq, Repr

/-- PRESUMED, log entry 5: fields without a reset value hold the values INVENTORY.md lists (zero, IDCODE in the test port, all engines laser-ready). -/
structure Board where
  power : Power := .down
  straps : Straps := {}
  resetLow : Bool := false
  laserOk : BitVec 18 := 0x3FFFF#18
  /-- junction temperatures in 1/8 degree, dies 0 to 3 and hub (R949) -/
  temps : List Int := [0, 0, 0, 0, 0]
  supplies : List Nat := [0, 0, 0, 0, 0]
  powers : List Nat := [0, 0, 0, 0, 0]
  deriving DecidableEq, Repr

/-- The test port (R1069 to R1076). -/
structure Tap where
  ir : BitVec 8 := 0x02#8
  boundary : BitVec 6 := 0
  bypass : BitVec 1 := 0
  id : BitVec 32 := 0
  loopback : BitVec 72 := 0
  result : BitVec 432 := 0
  locked : BitVec 18 := 0
  /-- ERRORS of each engine since the last Update-DR of the loopback register -/
  errors : Map Nat := []
  deriving DecidableEq, Repr

/-! ## Host link function (R787 to R800, R864 to R870) -/

/-- An entry of the AER log (R792, R797). -/
inductive Aer where
  | badSize (write : Bool) (offset size : Nat)
  | apertureAbort (write : Bool) (addr : Nat)
  deriving DecidableEq, Repr

structure Hostp where
  linkUp : Bool := false
  width : Nat := 0
  speed : Nat := 0
  engine : Nat := 16
  aperture : BitVec 64 := 0x002000000000#64
  regwin : BitVec 32 := 0
  events : BitVec 32 := 0
  /-- bytes of the MSI-X table and the pending-bit array, by BAR0 offset (R791, R798) -/
  msix : Map Byte := []
  aer : List Aer := []
  bar2Size : Nat := 0x1000000000
  /-- engine to which a move of the host link is in progress -/
  moving : Option Nat := none
  deriving DecidableEq, Repr

/-! ## Dispatcher (file 10) -/

/-- DISP_QSTATE_q.STATE (R883). -/
inductive QState where
  | disabled
  | idle
  | active
  | disabling
  | faulted
  deriving DecidableEq, Repr

structure Queue where
  state : QState := .disabled
  asid : Nat := 0
  priority : Nat := 0
  vector : Nat := 0
  vecEn : Bool := false
  sqVa : Nat := 0
  cqVa : Nat := 0
  sqEntries : Nat := 0
  cqEntries : Nat := 0
  t : Word32 := 0
  f : Word32 := 0
  c : Word32 := 0
  h : Word32 := 0
  armed : Bool := false
  doorbellIgnored : Bool := false
  /-- a ring access has faulted since the enable: no further completion entry is written (R820) -/
  ringFault : Bool := false
  deriving DecidableEq, Repr

structure Sync where
  value : Word := 0
  error : Bool := false
  deriving DecidableEq, Repr

inductive EdgeState where
  | unresolved
  | satisfied
  | failed
  deriving DecidableEq, Repr

structure Wait where
  obj : Nat
  target : Nat
  state : EdgeState := .unresolved
  deriving DecidableEq, Repr

/-- Where a fetched launch stands. -/
inductive LPhase where
  /-- fetched, not started -/
  | waiting
  /-- start decision taken, waiting for its start count (R756) -/
  | armed
  | running
  /-- ended: its status is fixed, its completion is to be written -/
  | ended
  deriving DecidableEq, Repr

/-- A region of a region list (R911). -/
structure Region where
  va : Nat
  bytes : Nat
  role : Nat
  deriving DecidableEq, Repr

/-- The group record of a grouped launch (R757) and its barrier and pair state. -/
structure Group where
  tag : Word := 0
  members : Nat := 0
  self : Nat := 0
  timeoutUs : Nat := 0
  pair : Bool := false
  barrierGva : Nat := 0
  devices : List Nat := []
  /-- the start barrier has ended (R760) -/
  barrierDone : Bool := false
  /-- own digests sent and not yet compared: SEQ and the digest (R767, R768) -/
  sent : List (Nat × List Byte) := []
  /-- digests of the partner not yet compared -/
  received : List (Nat × List Byte) := []
  /-- Cricket at the last own digest (R770) -/
  sentAt : Nat := 0
  /-- the record keeps R757 -/
  good : Bool := true
  /-- step of the start barrier: 0 TAG, 1 MAX_S, 2 MIN_S, 3 COUNT, 4 polling, 5 reading MAX_S, 6 reading MIN_S -/
  stage : Nat := 0
  /-- a transaction of the barrier is on its way -/
  asked : Bool := false
  pollAt : Nat := 0
  maxS : Nat := 0
  /-- MAX_S - MIN_S exceeds 16 ticks (R762) -/
  skew : Bool := false
  deriving DecidableEq, Repr

/-- The parts of a digest record that are fixed at the start decision (R913, R918, R921). -/
structure DigestPart where
  regions : List Region := []
  fwVersion : Word := 0
  programRoot : List Byte := []
  argHash : List Byte := []
  weightRoot : List Byte := []
  inputRoot : List Byte := []
  unitMapHash : List Byte := []
  structHash : List Byte := []
  fwChanged : Bool := false
  mapChanged : Bool := false
  deriving DecidableEq, Repr

/-- A launch from its fetch to its completion entry. -/
structure Launch where
  id : Nat
  queue : Nat
  sqIndex : Word32
  asid : Nat
  barrier : Bool
  lflags : Nat := 0
  context : Option Nat := none
  programVa : Nat := 0
  argVa : Nat := 0
  extVa : Nat := 0
  waits : List Wait := []
  signals : List Nat := []
  deadline : Nat := 0
  start : Nat := 0
  groupVa : Nat := 0
  digestVa : Nat := 0
  header : ProgHeader := {}
  steps : List StepEntry := []
  place : List Nat := []
  phase : LPhase := .waiting
  /-- first error detected (R861) -/
  status : Nat := 0
  started : Bool := false
  startAt : Nat := 0
  endAt : Nat := 0
  args : List Byte := []
  /-- u64 values read at launch start, by argument-block offset (R452) -/
  argWords : Map Nat := []
  step : Nat := 0
  /-- executions of each step so far (R453) -/
  execs : Map Nat := []
  stepsDone : Nat := 0
  stepStart : Nat := 0
  /-- bounds of R851, by step -/
  bounds : List Nat := []
  /-- slot lengths of R896, by step, and the scheduled start of the present execution (R897) -/
  slots : List Nat := []
  sigma : Nat := 0
  handshakes : Nat := 0
  recomputes : Nat := 0
  linkRetries : Nat := 0
  satCount : Nat := 0
  sawSat : Bool := false
  collisions : Nat := 0
  collOvf : Bool := false
  /-- seeds, keyed so that rising keys are the order of R919: 2^36 * execution + 2^28 * cluster + position -/
  seeds : Map Nat := []
  group : Option Group := none
  digest : DigestPart := {}
  /-- the digest record, once its outputs have been hashed (R913, R918) -/
  digestRec : List Byte := []
  mapGens : List (Nat × Nat) := []
  /-- the anneal or load of the present step has ended (R489) -/
  longDone : Bool := false
  /-- the anneal step or load step of the present execution has been done (R489, R490) -/
  longRan : Bool := false
  deriving DecidableEq, Repr

/-- A root kept by the dispatcher (R916): role (3 for a program image), key and root. -/
structure KeptRoot where
  program : Bool
  asid : Nat
  va : Nat
  bytes : Nat
  root : List Byte
  /-- the 4 KiB physical units of the region -/
  units : List Nat := []
  deriving DecidableEq, Repr

/-- A preload in a cluster controller (R844, R845): the launch and the watched 4 KiB physical units. -/
structure Preload where
  cluster : Nat
  launch : Nat
  asid : Nat
  units : List Nat
  pages : List Nat
  deriving DecidableEq, Repr

structure Disp where
  qtabBase : Word := 0
  qctl : Word32 := 0
  qctlBusy : Bool := false
  qctlRefused : Bool := false
  events : Word32 := 0
  launchCount : Counter := {}
  refusalCount : Counter := {}
  cycleCount : Counter := {}
  owner : Map Word32 := []
  syncs : Map Sync := []
  queues : Map Queue := []
  /-- queue being visited and entries fetched from it in this round (R811) -/
  visit : Option (Nat × Nat) := none
  launches : List Launch := []
  nextLaunch : Nat := 0
  kept : List KeptRoot := []
  /-- SEQ of the next length word of the completion path (R680, R682) -/
  cplSeq : BitVec 16 := 0
  preloads : List Preload := []
  deriving DecidableEq, Repr

/-! ## Problem contexts and runs (files 03, 04, 05) -/

/-- STATE of a context entry (R287). -/
inductive CtxState where
  | free
  | loading
  | ready
  | running
  | paused
  | failed
  deriving DecidableEq, Repr

/-- A context entry (R286). -/
structure Ctx where
  state : CtxState := .free
  convention : Nat := 0
  loadError : Nat := 0
  qexp : Int := 0
  asid : Nat := 0
  replicas : Nat := 0
  flags : Nat := 0
  imageVa : Nat := 0
  imageSize : Nat := 0
  nvars : Nat := 0
  blocks : Nat := 0
  groups : Nat := 0
  links : Nat := 0
  colours : Nat := 0
  stages : Nat := 0
  couplings : Nat := 0
  errorOffset : Nat := 0
  energyOffset : Int := 0
  coeffRoot : List Byte := []
  stateVa : Nat := 0
  checkpointVa : Nat := 0
  loadGen : Nat := 0
  loadCricket : Nat := 0
  runs : Nat := 0
  bestEnergy : Int := 0
  deriving DecidableEq, Repr

/-- A pending gap marker (R344, R349). -/
structure Gap where
  first : Nat
  last : Nat
  lost : Nat
  deriving DecidableEq, Repr

/-- A replica of a run: state and best state as bit sets by logical index (R222), exact energies, and the
statistics of R335 with the windows of R413. -/
structure Replica where
  u : Nat := 0
  best : Nat := 0
  energy : Int := 0
  bestEnergy : Int := 0
  bestSweep : Nat := 0
  attempts : Counter := {}
  accepts : Counter := {}
  collisions : Counter := {}
  swapTries : Counter := {}
  swaps : Counter := {}
  betaM : Nat := 0
  betaX : Int := 0
  rank : Nat := 0
  spread : Int := 0
  improve : Int := 0
  winAttempts : Nat := 0
  winAccepts : Nat := 0
  /-- highest and lowest phase-end energy of the window; none while it is empty -/
  winRange : Option (Int × Int) := none
  winBest0 : Int := 0
  gap : Option Gap := none
  /-- attempts, acceptances and collisions of the phase that has just ended (R391) -/
  phaseCounts : Nat × Nat × Nat := (0, 0, 0)
  /-- the exact state at the start of the phase that has just ended (R313) -/
  start : Nat := 0
  deriving DecidableEq, Repr

structure Member where
  device : Nat
  firstBlock : Nat
  blockCount : Nat
  inboxGva : Nat
  ackGva : Nat
  deriving DecidableEq, Repr

/-- An entry of a boundary report (R390). -/
structure BoundaryEntry where
  var : Nat
  replica : Nat
  u : Bool
  deriving DecidableEq, Repr

/-- An entry of an energy report (R391). -/
structure EnergyEntry where
  part : Int
  attempts : Nat
  accepts : Nat
  collisions : Nat
  deriving DecidableEq, Repr

/-- What has been accepted from one sender for one phase (R401, R402). -/
structure Report where
  sender : Nat
  sweep : Nat
  phase : Nat
  boundary : List BoundaryEntry := []
  boundaryDone : Bool := false
  applied : Bool := false
  energy : Option (List EnergyEntry) := none
  pause : Bool := false
  deriving DecidableEq, Repr

/-- A packet of a report that waits to be sent to a member (R389); key is its phase as 65536 * sweep + phase. -/
structure Outgoing where
  dest : Nat
  key : Nat
  typ : Nat
  flags : Nat
  count : Nat
  body : List Byte
  deriving DecidableEq, Repr

/-- A packet whose COMMIT is still to be written (R394, R737): where it goes, and the transactions that must complete first. -/
structure OpenPacket where
  gva : Nat
  commit : Nat
  tags : List Nat
  deriving DecidableEq, Repr

/-- The exchange of a multi-device run (R385 to R408). -/
structure Exch where
  loose : Bool
  members : List Member
  self : Nat
  timeoutUs : Nat
  epoch : Nat
  inboxOff : Nat
  sub : Nat
  ackOff : Nat
  /-- byte position W towards each receiver and read position R from each sender (R392, R395) -/
  wpos : Map Nat := []
  rpos : Map Nat := []
  reports : List Report := []
  /-- sweep and phase of the next boundary report and the next energy report of each sender, as 65536 * sweep + phase -/
  bnext : Map Nat := []
  enext : Map Nat := []
  /-- Cricket at which the wait for boundary reports and the wait for energy reports began (R408) -/
  waitSince : Nat := 0
  energySince : Nat := 0
  /-- packets to be sent, oldest first, and by receiver the packet being sent -/
  outbox : List Outgoing := []
  opened : Map OpenPacket := []
  /-- the last phase that this member has carried out -/
  last : Option (Nat × Nat) := none
  /-- its own energy entries, once sent to every member (R399) -/
  own : Option (List EnergyEntry) := none
  /-- member 0 found a pause request (R406) -/
  pause : Bool := false
  deriving DecidableEq, Repr

/-- What a run does next. -/
inductive RunStage where
  /-- energy pass of R375, entry k -/
  | energyPass (entry : Nat)
  | resume
  | rotation
  | phase
  | sweepEnd
  | checkpoint
  | finished
  deriving DecidableEq, Repr

/-- The header of a run-state area (R361): its virtual address, then the fields; offsets as they stand. -/
structure RunArea where
  va : Nat := 0
  size : Nat := 0
  stats : Nat := 0
  state : Nat := 0
  best : Nat := 0
  rot : Nat := 0
  exch : Nat := 0
  stageVa : Nat := 0
  stageBytes : Nat := 0
  ckpt0 : Nat := 0
  ckpt1 : Nat := 0
  ckptBytes : Nat := 0
  every : Nat := 0
  deriving DecidableEq, Repr

/-- A record in an engine trace stage (R343, R348). -/
structure TraceRec where
  launch : Nat
  ctx : Nat
  replica : Nat
  /-- the 64 bytes of the record -/
  bytes : List Byte
  deriving DecidableEq, Repr

/-- A run of a problem context (R294). -/
structure Run where
  launch : Nat
  asid : Nat
  cluster : Nat := 0
  seed : Nat := 0
  seedSrc : Nat := 0
  /-- virtual address of the anneal descriptor, where R297 writes the seed -/
  descVa : Nat := 0
  /-- the run waits for its hardware seed (R297) -/
  seedWait : Bool := false
  traceOn : Bool := false
  traceVa : Nat := 0
  traceSlots : Nat := 0
  traceRdVa : Nat := 0
  traceWrVa : Nat := 0
  target : Option Int := none
  fixedOrder : Bool := false
  area : RunArea := {}
  /-- the rotation plan (R366): DWELL and the blocks of each entry; empty for an unrotated run -/
  plan : List (Nat × List Nat) := []
  next : RunStage := .phase
  sweep : Nat := 0
  stage : Nat := 0
  stageSweep : Nat := 0
  /-- phases of the present sweep that have ended -/
  phase : Nat := 0
  exchanges : Nat := 0
  rotation : Nat := 0
  /-- the rotation at which this launch began the run or took it up again (R378) -/
  firstRotation : Nat := 0
  dwellDone : Nat := 0
  /-- ladder β by rank (R328) -/
  ladder : List (Nat × Int) := []
  reps : List Replica := []
  /-- records of the run written to the ring (R345) -/
  traceN : Nat := 0
  /-- the ring writer has stopped with this status (R1086) -/
  traceStop : Option Nat := none
  ckptSeq : Nat := 0
  /-- the checkpoint now due is a pause's (R413 CFLAGS) -/
  pausing : Bool := false
  targetHit : Bool := false
  /-- the run-end records, taken at the end of the last sweep done, and those that wait for room (R342, R343, R350) -/
  endRecs : List (List Byte) := []
  endWait : List TraceRec := []
  exch : Option Exch := none
  deriving DecidableEq, Repr

/-- A load in progress (R274, R492): the launch, the load steps executed, the mask, and whether it is a reload. -/
structure LoadJob where
  launch : Nat
  reload : Bool
  sections : Nat
  stepsDone : Nat := 0
  stepsTotal : Nat := 0
  deriving DecidableEq, Repr

/-! ## Clusters, cores, network (files 01, 06, 08) -/

/-- DEST_UNIT and SRC_UNIT of a header flit (R641). -/
inductive UnitKind where
  | core
  | controller
  | node
  | crossbar
  | attached
  | hub
  deriving DecidableEq, Repr

/-- Kinds of transaction (R381, R725). -/
inductive TxnKind where
  | read
  | write
  | atomic
  deriving DecidableEq, Repr

/-- Who waits for a transaction. -/
inductive Issuer where
  /-- the Stream engine of a logical core -/
  | stream (cluster core : Nat)
  /-- the start barrier of a launch (R760) -/
  | barrier
  /-- a unit whose command has made the whole access (DESIGN CHOICE, log entry 81) -/
  | unit
  deriving DecidableEq, Repr

/-- A transaction of a Stream engine (R381) or of the start barrier: its issuer and where its data goes. One to another
device is held twice: by the Silk egress under its TAG of R725, and by its Stream engine under its number. -/
structure Txn where
  tag : Nat := 0
  kind : TxnKind
  device : Nat
  port : Nat := 0
  addr : Nat
  bytes : Nat
  /-- bytes answered so far -/
  done : Nat := 0
  issued : Nat := 0
  issuer : Issuer
  launch : Nat := 0
  /-- core-memory offset of a read's data -/
  dest : Nat := 0
  /-- bytes of a write -/
  data : List Byte := []
  atomic : Nat := 0
  operand : Nat := 0
  /-- the ports in use for the device when it was issued (R720, R721) -/
  via : List Nat := []
  /-- transaction number of its packets in the on-chip network (TAG of R641) -/
  num : Nat := 0
  /-- the unit of the on-chip network that performs it (R635, R642): DEST_UNIT and the cluster or hub unit number -/
  unit : UnitKind := .hub
  unitNo : Nat := 0
  /-- the address space and the page that its translation covered (R576) -/
  asid : Nat := 0
  page : Nat := 0
  pageBytes : Nat := 0
  deriving DecidableEq, Repr

/-- A reply owed to a mailbox pair when an order has been applied (R948). -/
structure Reply where
  pair : Nat
  command : Nat
  tag : Nat
  deriving DecidableEq, Repr

/-- An order of the management processor (R75, R76): to a cluster controller, to the dispatcher, or to a memory or Silk port. -/
inductive Order where
  | fence (position : Nat) (reply : Option Reply)
  | retireSlice (slice : Nat) (reply : Option Reply)
  | handover
  /-- cluster reset (R965): to the dispatcher, which passes it on to the cluster's controller -/
  | reset (cluster : Nat) (reply : Option Reply)
  /-- the test that follows a cluster reset -/
  | test (reply : Option Reply)
  /-- launch aborts after a network drop on a die, 4 for the hub crossbar (R652) -/
  | abort (die : Nat)
  /-- retirement of a channel: to its controller, and to the dispatcher (Retiring a GDDR7 channel, step 1) -/
  | drainChannel (channel : Nat)
  | retireChannel (controller channel : Nat)
  /-- removal of a CXL device: to its port, and to the dispatcher (Removing an expander, steps 1 and 2) -/
  | drainDevice
  | removeDevice (port base : Nat)
  /-- training of the devices added on a CXL port -/
  | addDevices
  /-- retirement of a page frame (Migrating a page, step 2) -/
  | movePage (asid va tier : Nat)
  /-- retraining of a lane, and the move of a link to another engine -/
  | retrainLane (lane : Nat)
  | moveLink (engine : Nat)
  deriving DecidableEq, Repr

structure Heat where
  asid : Nat
  page : Nat
  count : Nat
  deriving DecidableEq, Repr

/-- What a unit reports to the management processor in a result record or a counter-snapshot record (R75), for which R952 has no
KIND (DESIGN CHOICE, log entry 84). -/
inductive Result where
  /-- an order of a request has been applied: its result code -/
  | order (cluster code : Nat) (reply : Option Reply)
  /-- a controller has handed over, or has been taken out of service -/
  | handedOver (cluster : Nat)
  /-- a controller has restarted, on the new image or not -/
  | restarted (cluster : Nat) (newFw : Bool) (reply : Option Reply)
  | tested (cluster : Nat) (passed : Bool) (reply : Option Reply)
  /-- the step that a drain has reached, and the leaf entries that still name frames in its range (R550) -/
  | draining (step left : Nat)
  | channelRetired (controller channel : Nat)
  /-- the device has a range of the port from this address on, or none -/
  | deviceAdded (port : Nat) (base : Option Nat) (ranges : List (Nat × Nat × Nat))
  | deviceRemoved (port : Nat) (ranges : List (Nat × Nat × Nat))
  /-- the operation on a Silk port has ended -/
  | linkDone (port : Nat) (ok : Bool)
  /-- count words of the FIFOs of a bridge, or of the hub crossbar with 4 (R950) -/
  | fifos (unit : Nat) (counts : List Nat)
  /-- counters of a cluster, or of a GDDR7 controller from 256 on -/
  | counters (unit : Nat) (values : List Nat)
  | heat (unit : Nat) (entries : List Heat)
  deriving DecidableEq, Repr

structure Core where
  tiles : Map Tile := []
  tileSat : BitVec 4 := 0
  events : Word32 := 0
  ops : Counter := {}
  fieldHs : Counter := {}
  flipHs : Counter := {}
  vectorHs : Counter := {}
  streamHs : Counter := {}
  recompute : Counter := {}
  /-- Stream-engine transactions outstanding (R382, R518) -/
  sent : List Txn := []
  /-- transactions that wait for the budget of R382 -/
  waiting : List Txn := []
  /-- number of the next transaction (TAG of R641) -/
  nextTxn : Nat := 0
  /-- acknowledgements of SEND, MCAST and REDUCE packets that the Stream engine awaits (R651) -/
  acks : Nat := 0
  /-- a Vector-engine result of this step execution saturated (R515) -/
  stepSat : Bool := false
  /-- drains of this step execution that set TILE_SAT (R207) -/
  drainSat : Nat := 0
  deriving DecidableEq, Repr

/-- A tile of a reduction node with its foreign accumulator (R188, R660, R1094); SOURCES by ELEM range of 32 records. -/
structure NodeTile where
  tile : Tile := {}
  sources : Map Nat := []
  /-- TILE_SAT of the tile (R206) -/
  sat : Bool := false
  foreign : Tile := {}
  foreignSources : Map Nat := []
  deriving DecidableEq, Repr

/-- A consumed poison that awaits the recomputation procedure (R583, R588), or a fence rerun. -/
structure Abandon where
  core : Nat
  /-- the locations consumed, as physical word addresses -/
  places : List Nat
  /-- the poison came over a lost link, so no rerun is made (R560, R740) -/
  lost : Bool := false
  deriving DecidableEq, Repr

/-- The step-boundary snapshot of a cluster (R584): what does not lie in stacked memory. -/
structure Snap where
  pos : Nat := 0
  step : Nat := 0
  sat : Nat := 0
  /-- (logical index, line) whose log bit is set (R585) -/
  logged : List (Nat × Nat) := []
  /-- (logical index, word) that an operation has written since the boundary (R587) -/
  written : List (Nat × Nat) := []
  tiles : Map (Map Tile) := []
  sats : Map (BitVec 4) := []
  node : Map NodeTile := []
  deriving DecidableEq, Repr

/-- CLU_STATUS.STATE (R141). -/
inductive CluState where
  | idle
  | running
  | held
  | out
  deriving DecidableEq, Repr

structure Cluster where
  state : CluState := .idle
  step : Nat := 0
  mapGen : Word32 := 0
  events : Word32 := 0
  fenced : Word := 0
  spares : Word := 0
  live : BitVec 16 := 0xFFFF#16
  /-- bound physical position of each logical index, none when unbacked (R104, R147) -/
  map : List (Option Nat) := []
  netPoison : Counter := {}
  netDrops : Counter := {}
  netMerges : Counter := {}
  orders : List Order := []
  launch : Option Nat := none
  ops : List OpWord := []
  descs : List Desc := []
  pos : Nat := 0
  /-- the cluster has reached its STEP_END and joined the launch-wide end of the step -/
  ended : Bool := false
  /-- the present execution of a Paced launch has begun on this cluster (R898) -/
  begun : Bool := true
  abandon : Option Abandon := none
  reruns : Nat := 0
  /-- places consumed in this step without a golden copy, with the bytes they then held (R589) -/
  consumed : List (Nat × List Byte) := []
  sat : Nat := 0
  /-- drains of the reduction node in this step execution that set TILE_SAT (R207) -/
  nodeSat : Nat := 0
  node : Map NodeTile := []
  cores : Map Core := []
  snap : Snap := {}
  /-- REDUCEs that committed their first packet in this step (R1093), as 64 * position + logical index -/
  reduced : List Nat := []
  /-- after a fence: the logical indices whose step is rerun (step 6 of Fencing a core in service) -/
  rerun : List Nat := []
  /-- an ENTROPY operation waits for its bits (R485) -/
  entropyWait : Bool := false
  newFw : Bool := false
  /-- the last value read from the cluster's Cricket follower (R81, R83) -/
  follower : Nat := 0
  testing : Bool := false
  /-- the CORE_MAP request that ordered the test (R948, R965) -/
  testReply : Option Reply := none
  /-- physical word addresses of the poison list (R597) -/
  poisonList : List Nat := []
  trace : List TraceRec := []
  deriving DecidableEq, Repr

/-- The payload of an on-chip packet. -/
inductive Payload where
  | none
  | bytes (data : List (Byte × Bool))
  | wides (records : List WideRec)
  | f64 (values : List (BitVec 64))
  /-- an event record on its way to the management processor (R644) -/
  | event (record : EvRec)
  /-- an order on its way to a unit (R75, R76, R644) -/
  | order (order : Order)
  /-- a result or a counter snapshot on its way to the management processor (R75, R644) -/
  | result (result : Result)
  deriving DecidableEq, Repr

/-- An on-chip packet (R640, R641). -/
structure Pkt where
  typ : Nat
  vc : Nat
  flits : Nat
  netred : Bool := false
  fixed : Bool := false
  last : Bool := false
  destUnit : UnitKind
  destCluster : Nat := 0
  destIndex : Nat := 0
  srcUnit : UnitKind
  srcCluster : Nat := 0
  srcIndex : Nat := 0
  txn : Nat := 0
  launch : Nat := 0
  addr : Nat := 0
  elem : Nat := 0
  level : Nat := 0
  node : Nat := 0
  sources : Nat := 0
  mask : Nat := 0
  cLo : Nat := 0
  cHi : Nat := 0
  payload : Payload := .none
  /-- physical position after the translation of R637 -/
  phys : Option Nat := none
  /-- target cores as 64 * cluster + logical index, or + physical position once translated; for a REDUCE packet and an
  acknowledgement, the source cores that await the acknowledgement -/
  targets : List Nat := []
  /-- (offset, length) pieces of core memory in which the payload lands -/
  pieces : List (Nat × Nat) := []
  /-- a payload word was delivered with a poison tag by R676 -/
  bad : Bool := false
  /-- the header word was delivered with a poison tag by R676 -/
  badHeader : Bool := false
  /-- bytes that a read request asks for: the layout of R641 names no field that holds them (DESIGN CHOICE, log entry 81) -/
  length : Nat := 0
  deriving DecidableEq, Repr

/-- A request that a memory port has taken, and how many of its 64 B transactions it has granted (R133, R135); data read so
far. -/
structure PortReq where
  pkt : Pkt
  granted : Nat := 0
  data : List (Byte × Bool) := []
  deriving DecidableEq, Repr

/-- The arbiter of a memory port (R133 to R136): the requests of each source, by cluster number, oldest first; the source last
served, and the transactions that its visit may still be granted. -/
structure Arbiter where
  sources : Map (List PortReq) := []
  last : Nat := 255
  left : Nat := 0
  deriving DecidableEq, Repr

/-- Router output FIFOs by number (DESIGN CHOICE, log entry 21): 996 c + n for CLU_NET_LEVEL_n of cluster c, then the bridges and
the hub crossbar, then the packets that wait at the router port of a unit; what each output takes next (R646): true
for the response channel; the input that each output FIFO admitted last (R647), by its number; and the arbiters of the memory
ports, by the port index of R130. -/
structure Net where
  fifos : Map (List Pkt) := []
  turn : Map Bool := []
  served : Map Nat := []
  arbiters : Map Arbiter := []
  deriving DecidableEq, Repr

/-! ## Memory (file 07) -/

/-- A word of core or stacked memory that R580 has found bad in a launch, and whether good data has been written to it
since (R591). The word is named by the key under which it is stored. -/
structure BadWord where
  key : Nat
  launch : Nat
  rewritten : Bool := false
  deriving DecidableEq, Repr

structure Mem where
  /-- bytes of the device's memories by physical place -/
  bytes : List Host.Cell := []
  /-- stored check bytes of core and stacked words, by place divided by 8 -/
  check : List Host.Cell := []
  /-- initialised 4 KiB units of GDDR7, by (place - base) / 4096, rising -/
  inited : List Nat := []
  /-- GDDR7 64 B bursts whose last read was delivered as poison (R539, R541), rising -/
  gddrPoison : List Nat := []
  /-- 64 B lines of CXL memory that a response or a write has shown: true when poisoned (R559) -/
  cxlShown : Map Bool := []
  /-- CXL bytes shown by a response or a write -/
  cxl : Map Byte := []
  host : Map Byte := []
  /-- 8-byte words of host memory whose last read was delivered as poison (R794), rising -/
  hostPoison : List Nat := []
  peer : Map Byte := []
  peerPoison : List Nat := []
  badWords : List BadWord := []
  deriving DecidableEq, Repr

/-- A tier policy record (R605). -/
structure Policy where
  enable : Bool := false
  tiers : BitVec 3 := 0
  minResidenceUs : Nat := 0
  stackedCap : Nat := 0
  gddrCap : Nat := 0
  rate : Nat := 0
  promote : Nat := 0
  demote : Nat := 0
  deriving DecidableEq, Repr

/-- The frames of one tier (R607): free (base, bytes) frames and the total bytes ever added less removed. -/
structure Pool where
  frames : List (Nat × Nat) := []
  total : Nat := 0
  deriving DecidableEq, Repr

/-- A migration in progress and its journal entry. -/
structure Migration where
  asid : Nat
  va : Nat
  bytes : Nat
  leafAt : Nat
  old : Nat
  new : Nat
  oldTier : Nat
  newTier : Nat
  drain : Bool
  deriving DecidableEq, Repr

/-- A drain of a physical range (R548): its bounds. -/
structure Drain where
  lo : Nat
  hi : Nat
  deriving DecidableEq, Repr

structure TlbEntry where
  asid : Nat
  va : Nat
  bytes : Nat
  leaf : Nat
  deriving DecidableEq, Repr

structure HeatUnit where
  run : Nat := 0
  entries : List Heat := []
  deriving DecidableEq, Repr

/-- Scope of a running invalidation (R616). -/
inductive Scope where
  | page (asid va : Nat)
  | space (asid : Nat)
  | all
  deriving DecidableEq, Repr

structure Memc where
  astabBase : Word := 0
  invalVa : Word := 0
  inval : Word32 := 0
  busy : Option Scope := none
  ignored : Bool := false
  migHold : Word32 := 0
  held : Bool := false
  fault : Word := 0
  faultVa : Word := 0
  poison : Counter := {}
  recompute : Counter := {}
  migrations : Counter := {}
  events : Word32 := 0
  /-- (slot, (cluster, slice)) -/
  redirect : Map (Nat × Nat) := []
  policies : Map Policy := []
  pools : Map Pool := []
  moves : List Migration := []
  drains : List Drain := []
  tlb : Map (List TlbEntry) := []
  heat : Map HeatUnit := []
  /-- (asid, page, Cricket of the last move) -/
  residence : List (Nat × Nat × Nat) := []
  /-- bytes moved in the present period, by address space, and the bytes placed in each tier by migration -/
  moved : Map Nat := []
  placed : Map (Nat × Nat) := []
  deriving DecidableEq, Repr

structure Gdc where
  rate : Nat := 3
  live : BitVec 4 := 0
  retired : BitVec 4 := 0
  draining : BitVec 4 := 0
  hot : Bool := false
  crc : Counter := {}
  ecc : Counter := {}
  poison : Counter := {}
  events : Word32 := 0
  failed : BitVec 4 := 0
  /-- banks refreshed so far by each channel (R544) -/
  refreshed : Map Nat := []
  deriving DecidableEq, Repr

/-- CXLP_STATUS.STATE (R626). -/
inductive CxlState where
  | noLink
  | active
  | draining
  | lost
  deriving DecidableEq, Repr

structure Cxlp where
  state : CxlState := .noLink
  switched : Bool := false
  /-- (base offset in the window, bytes of the range, capacity) of each device in service -/
  ranges : List (Nat × Nat × Nat) := []
  lanes : Nat := 0
  speed : Nat := 0
  poison : Counter := {}
  events : Word32 := 0
  /-- an order to train added devices has been received -/
  adding : Bool := false
  deriving DecidableEq, Repr

/-! ## Silk (file 09) -/

/-- SILK_PORT_STATUS_p.STATE (R780). -/
inductive PortState where
  | down
  | training
  | up8
  | upLow
  | upHigh
  deriving DecidableEq, Repr

/-- A Silk packet (R725). -/
structure SilkPkt where
  typ : Nat
  vc : Nat
  status : Nat := 0
  src : Nat := 0
  dest : Nat := 0
  tag : Nat := 0
  length : Nat := 0
  kind : Nat := 0
  last : Bool := true
  addr : Nat := 0
  poisonMap : BitVec 128 := 0
  a : Word := 0
  b : Word := 0
  payload : List Byte := []
  deriving DecidableEq, Repr

structure Port where
  state : PortState := .down
  engine : Nat := 0
  partner : Nat := 0
  partnerDev : Bool := false
  retries : Counter := {}
  crc : Counter := {}
  events : Word32 := 0
  txSeq : BitVec 16 := 0
  rxSeq : BitVec 16 := 0
  /-- packets that wait for credits or for room in the replay buffer, oldest first (R704, R714) -/
  queue : List SilkPkt := []
  /-- the response channel is next (R646, R715) -/
  turn : Bool := true
  /-- unacknowledged frames, oldest first, with the Cricket at which each was last sent (R704, R707) -/
  replay : List (Nat × Frame) := []
  /-- virtual channel and flits to come of the packet being received -/
  inPkt : Nat × Nat := (0, 0)
  nakSent : Bool := false
  /-- replays in succession without an advance of ACK (R708) -/
  replays : Nat := 0
  /-- SEQ of the next length word of the control channel (R680, R682) -/
  controlSeq : BitVec 16 := 0
  epoch : BitVec 32 := 0
  partnerEpoch : Option (BitVec 32) := none
  /-- credits held and credits to return, per virtual channel (R714) -/
  credits : List Nat := [68, 68, 68]
  owed : List Nat := [0, 0, 0]
  /-- Cricket at which the port left the up state (R713) -/
  downSince : Option Nat := none
  retrainLane : Option Nat := none
  substituting : Bool := false
  /-- the port runs on another engine and waits for its partner's RESUME frame (R711) -/
  resuming : Bool := false
  /-- the engine to which the link moves (Substituting OE17) -/
  moveTo : Nat := 0
  deriving DecidableEq, Repr

/-- The Cricket measurement of a follower (R749 to R755). -/
structure Sync3 where
  /-- t1 of the request in progress -/
  asked : Option Word := none
  missed : Nat := 0
  deferred : Option Int := none
  /-- Cricket at the last request -/
  lastAt : Nat := 0
  deriving DecidableEq, Repr

structure Silk where
  device : Option Nat := none
  timeout : Word32 := 1000
  role : Nat := 0
  locked : Bool := false
  master : Nat := 0
  offset : BitVec 16 := 0
  delay : BitVec 16 := 0
  pairEnable : Bool := false
  pairRole : Nat := 0
  pairMismatch : Bool := false
  pairPartner : Nat := 0
  pairCompared : Word32 := 0
  events : Word32 := 0
  lostDevice : Word32 := 0
  late : Counter := {}
  rejects : Counter := {}
  winBase : Map Word := []
  winLimit : Map Word := []
  routes : Map (BitVec 12) := []
  /-- a route change that waits for the outstanding transactions of its device (R721) -/
  routeNext : Map (BitVec 12) := []
  ports : Map Port := []
  epochs : Nat := 0
  txns : List Txn := []
  nextTag : Nat := 0
  lost : List Nat := []
  strikes : Map Nat := []
  sync : Sync3 := {}
  deriving DecidableEq, Repr

/-! ## Time, entropy (files 11, 13) -/

structure Pace where
  cricket : Nat := 0
  hold : Nat := 0
  timeBase : Nat := 0
  executions : Counter := {}
  slips : Counter := {}
  slipTicks : Counter := {}
  events : Word32 := 0
  deriving DecidableEq, Repr

/-- ENT_STATUS.STATE (R1000, R1027). -/
inductive EntState where
  | notReady
  | ready
  | fault
  deriving DecidableEq, Repr

/-- Who made a generate request (R994). -/
inductive Requester where
  | runSeed (ctx : Nat)
  | entropyOp (cluster : Nat)
  | management
  deriving DecidableEq, Repr

structure GenReq where
  who : Requester
  bits : Nat
  deriving DecidableEq, Repr

/-- Working state of the DRBG (R992): Key and V of CTR_DRBG. -/
structure Drbg where
  key : BitVec 256
  v : BitVec 128
  deriving DecidableEq, Repr

/-- Sums of the present health window (R983). -/
structure Window where
  samples : Nat := 0
  cycles : List Nat := []
  sumD : List Int := []
  sumD2 : List Nat := []
  deriving DecidableEq, Repr

structure Ent where
  state : EntState := .notReady
  test : Nat := 0
  unit : Nat := 0
  startup : Bool := false
  requests : Counter := {}
  reseeds : Counter := {}
  windows : Counter := {}
  since : Nat := 0
  events : Word32 := 0
  osc : List Nat := []
  pair : List Nat := []
  cond : BitVec 256 := 0
  window : Nat := 0
  acc : Window := {}
  blocks : List (BitVec 256) := []
  pool : List (BitVec 256) := []
  drbg : Option Drbg := none
  queue : List GenReq := []
  waiting : List GenReq := []
  reseedWait : Bool := false
  deriving DecidableEq, Repr

/-! ## Management (file 12) -/

/-- A committed request packet of a mailbox pair: its words, and whether any of them carries a poison tag. -/
structure ReqPkt where
  words : List Word
  seq : BitVec 16
  poison : Bool := false
  deriving DecidableEq, Repr

structure Box where
  requests : List ReqPkt := []
  /-- the open request packet -/
  openPkt : Option (List Word) := none
  overrun : Bool := false
  reqSeq : BitVec 16 := 0
  /-- committed response packets, length word first; the first of the list is the one being read -/
  responses : List (List Word) := []
  rspSeq : BitVec 16 := 0
  /-- the reader has begun the first response -/
  begun : Bool := false
  /-- a response that waits for room (R940) -/
  waiting : Option (List Byte) := none
  /-- a request is being executed whose answer is owed later (R948) -/
  busy : Bool := false
  /-- a flush waits for the open request packet, or for the response being read (R684) -/
  flushReq : Bool := false
  flushRsp : Bool := false
  nonce : Option (List Byte) := none
  report : List Byte := []
  deriving DecidableEq, Repr

/-- A long operation as OP_STATUS reports it (R944): STATE 0 none, 1 running, 2 done, 3 failed. -/
structure LongOp where
  state : Nat := 0
  step : Nat := 0
  result : Nat := 0
  detail : Nat := 0
  deriving DecidableEq, Repr

/-- The link operation in progress (R948). -/
inductive LinkOp where
  | retireChannel (q k : Nat)
  | addExpander (port : Nat)
  | removeExpander (port base : Nat)
  | retrainLane (port lane : Nat)
  | takeover (engine : Nat)
  | handback
  deriving DecidableEq, Repr

/-- The admission timing record (R953). -/
structure TimingRecord where
  point : Nat := 1
  pending : Bool := false
  gen : Word32 := 0
  figures : List Nat := Config.figuresNominal
  deriving DecidableEq, Repr

/-- An open firmware image (R944 FW_BEGIN): mode, SIZE, and the bytes written so far. -/
structure Upload where
  update : Bool
  size : Nat
  bytes : Map Byte := []
  deriving DecidableEq, Repr

/-- What is known of the running image (R1011, R1020). -/
structure Image where
  keySlot : Nat := 0
  fwVersion : Word := 0
  svn : Nat := 0
  advance : Bool := false
  revokeBelow : Bool := false
  hash : List Byte := []
  deriving DecidableEq, Repr

/-- The launch summary of R80: outstanding launches, and those that are Paced, with a deadline, with a start count. -/
structure Summary where
  outstanding : Nat := 0
  paced : Nat := 0
  deadline : Nat := 0
  start : Nat := 0
  deriving DecidableEq, Repr

/-- What the records of a cluster have told the management processor (R74): the core map and the slices in service as they stood
at the last record. -/
structure CluView where
  out : Bool := false
  mapGen : Word32 := 0
  fenced : Word := 0
  spares : Word := 0
  live : BitVec 16 := 0xFFFF#16
  map : List (Option Nat) := []
  /-- the index whose position the last record fenced -/
  unbound : Option Nat := none
  deriving DecidableEq, Repr

/-- What records have told the management processor of the data plane (R74, R75). -/
structure View where
  /-- by cluster; unlisted clusters are as manufactured -/
  clusters : Map CluView := []
  /-- channels that are retired, by GDDR7 controller, and controllers whose device did not train -/
  retired : Map (BitVec 4) := []
  untrained : List Nat := []
  /-- ranges of the devices in service, by CXL port: firmware enumerates them (R556) -/
  devices : Map (List (Nat × Nat × Nat)) := []
  /-- latest counter snapshots: FIFO count words of the bridges and the hub crossbar, and counters -/
  counters : Map (List Nat) := []
  /-- the cluster to whose controller the hand-over order has been sent (Live update, step 4) -/
  handover : Option Nat := none
  deriving DecidableEq, Repr

structure Mgmt where
  boxes : Map Box := []
  nextBox : Nat := 0
  view : View := {}
  state : Nat := 0
  point : Nat := 1
  /-- the point of the pending change or of the ramp in progress -/
  target : Nat := 1
  rampPending : Bool := false
  ramping : Bool := false
  /-- a target that arrived during a ramp (R957) -/
  nextTarget : Option Nat := none
  updating : Bool := false
  sanitising : Bool := false
  sanitised : Bool := false
  fwVersion : Word := 0
  events : Word32 := 0
  eventLost : Counter := {}
  log : List EvRec := []
  ops : Map LongOp := []
  link : Option LinkOp := none
  record : TimingRecord := {}
  upload : Option Upload := none
  image : Option Image := none
  /-- the image of a live update that has passed its checks (Live update, from step 4) -/
  newImage : Option Image := none
  dispNew : Bool := false
  /-- the SVN advance of R1015 that is incomplete -/
  svnTarget : Option Nat := none
  sanStep : Nat := 0
  sanFailed : Nat := 0
  fifoCounts : Map Nat := []
  heat : List (Nat × Heat) := []
  summary : Summary := {}
  oe17 : Option Nat := none
  /-- public identity key Q = d * G (R1007) -/
  keyX : BitVec 384 := 0
  keyY : BitVec 384 := 0
  /-- Cricket at the last refresh, snapshot and heat snapshot -/
  refreshAt : Nat := 0
  snapshotAt : Nat := 0
  heatAt : Nat := 0
  deriving DecidableEq, Repr

structure Trace where
  records : Counter := {}
  gaps : Counter := {}
  lost : Counter := {}
  events : Word32 := 0
  deriving DecidableEq, Repr

/-! ## What leaves the device -/

inductive Output where
  /-- data of a completed host read, and whether it goes out poisoned (R796) -/
  | readData (data : List Byte) (poisoned : Bool)
  | unsupportedRequest
  | completerAbort
  | msix (vector : Nat)
  /-- a read request to host memory for bytes from an address on, with the PASID it carries (R571) -/
  | hostRead (addr bytes : Nat) (pasid : Option Nat)
  /-- a posted write to host memory, whether it is a poisoned TLP (R1083), and the PASID it carries (R571) -/
  | hostWrite (addr : Nat) (data : List Byte) (poisoned : Bool) (pasid : Option Nat)
  | silk (port : Nat) (pkt : SilkPkt)
  | frame (port : Nat) (frame : Frame)
  /-- bits shifted out of TDO, least significant first (R1070) -/
  | tdo (bits : Nat) (width : Nat)
  deriving DecidableEq, Repr

/-! ## The state -/

/-- The whole block. -/
structure State where
  pending : List Instr := []
  out : List Output := []
  free : Nat := 0
  fuses : Fuses := {}
  board : Board := {}
  tap : Tap := {}
  hostp : Hostp := {}
  disp : Disp := {}
  /-- the context table in GDDR7; an unlisted entry is FREE (R281, R285) -/
  ctxs : Map Ctx := []
  /-- 64 B bursts of the table that read as poison -/
  ctxPoison : List Nat := []
  /-- the entries that the hub's cache holds, latest written first (R282) -/
  ctxCache : List Nat := []
  runs : Map Run := []
  loads : Map LoadJob := []
  clusters : Map Cluster := []
  net : Net := {}
  mem : Mem := {}
  memc : Memc := {}
  gdc : Map Gdc := []
  cxlp : Map Cxlp := []
  silk : Silk := {}
  pace : Pace := {}
  ent : Ent := {}
  mgmt : Mgmt := {}
  trace : Trace := {}
  deriving DecidableEq, Repr

/-- The machine right after reset: every field at the value of its declaration; the block waits for power-good
(R1053), every register holds its reset value, nothing is listed in memory.
DESIGN CHOICE, log entry 1: the manual describes power-up as a sequence; the model starts before power-good and needs the commands of power-up and boot before a launch can run; no command word exists, so withFetchWord changes nothing. -/
def State.reset : State := {}

end Sys2Proof.Machine
end

