-- ==== Sys2Proof/Machine/Store.lean ====
section
/-! DEFINITION. Finite tables, cell memories, bytes and bits: the containers on which every operation is written. -/

namespace Sys2Proof.Machine

/-! ## Tables -/

/-- The listed entry of a key. -/
def mapFind {α : Type} : Map α → Nat → Option α
  | [], _ => none
  | (k, v) :: m, n => if k = n then some v else mapFind m n

/-- The entry of a key, the table's default where none is listed. -/
def mapGet {α : Type} (d : α) (m : Map α) (n : Nat) : α := (mapFind m n).getD d

/-- The table with an entry listed. -/
def mapSet {α : Type} : Map α → Nat → α → Map α
  | [], n, x => [(n, x)]
  | (k, v) :: m, n, x =>
    if n < k then (n, x) :: (k, v) :: m else if n = k then (n, x) :: m else (k, v) :: mapSet m n x

/-- The table without an entry. -/
def mapErase {α : Type} (m : Map α) (n : Nat) : Map α := m.filter (fun e => e.1 != n)

/-- The table with one entry changed. -/
def mapModify {α : Type} (d : α) (m : Map α) (n : Nat) (f : α → α) : Map α := mapSet m n (f (mapGet d m n))

/-! ## Sets of numbers as rising lists -/

def setInsert : List Nat → Nat → List Nat
  | [], n => [n]
  | k :: m, n => if n < k then n :: k :: m else if n = k then k :: m else k :: setInsert m n

def setErase (m : List Nat) (n : Nat) : List Nat := m.filter (· != n)

/-! ## Cell memories -/

/-- The byte that a cell list holds at an address; d where none is listed. -/
def cellGet (d : Byte) : List Host.Cell → Nat → Byte
  | [], _ => d
  | (k, b) :: m, a => if k = a then b else if a < k then d else cellGet d m a

/-- A cell list with one byte written, in canonical form: rising addresses, no byte equal to the default. -/
def cellSet (d : Byte) : List Host.Cell → Nat → Byte → List Host.Cell
  | [], a, b => if b = d then [] else [(a, b)]
  | (k, x) :: m, a, b =>
    if a < k then (if b = d then (k, x) :: m else (a, b) :: (k, x) :: m)
    else if a = k then (if b = d then m else (a, b) :: m)
    else (k, x) :: cellSet d m a b

/-- A cell list with every byte of a range back at the default. -/
def cellClear (m : List Host.Cell) (lo hi : Nat) : List Host.Cell := m.filter (fun e => e.1 < lo || hi ≤ e.1)

/-- Bytes written from an address upward. -/
def cellWrite (d : Byte) (m : List Host.Cell) (a : Nat) : List Byte → List Host.Cell
  | [] => m
  | b :: bs => cellWrite d (cellSet d m a b) (a + 1) bs

/-- The canonical form of a cell list. -/
def cellsWf (d : Byte) : List Host.Cell → Bool
  | [] => true
  | [(_, b)] => b != d
  | (k, b) :: (k', b') :: m => b != d && k < k' && cellsWf d ((k', b') :: m)

/-! ## Bytes and bits -/

/-- The number that bytes spell, little-endian (R26). -/
def leNat : List Byte → Nat
  | [] => 0
  | b :: bs => b.toNat + 256 * leNat bs

/-- The n low bytes of a number, little-endian (R26). -/
def leBytes : Nat → Nat → List Byte
  | 0, _ => []
  | n + 1, v => BitVec.ofNat 8 v :: leBytes n (v / 256)

/-- The n low bytes of a number, most significant first (byte strings of published standards, R27). -/
def beBytes (n v : Nat) : List Byte := (leBytes n v).reverse

/-- The number that bytes spell, most significant first. -/
def beNat (bs : List Byte) : Nat := leNat bs.reverse

/-- The two's-complement value of the low n bits (R58). -/
def sext (n v : Nat) : Int :=
  let m := v % 2 ^ n
  if m < 2 ^ (n - 1) then (m : Int) else (m : Int) - 2 ^ n

/-- The low n bits of an integer (R59). -/
def wrap (n : Nat) (v : Int) : Nat := (v % (2 ^ n : Int)).toNat

/-- Bit n of a number. -/
def bit (v n : Nat) : Bool := v / 2 ^ n % 2 = 1

/-- Bits lo to lo + n - 1 of a number. -/
def bits (v lo n : Nat) : Nat := v / 2 ^ lo % 2 ^ n

/-- A number with bit n written. -/
def setBit (v n : Nat) (b : Bool) : Nat := if bit v n = b then v else if b then v + 2 ^ n else v - 2 ^ n

def natOfBool (b : Bool) : Nat := if b then 1 else 0

/-- How many of the low n bits are set. -/
def popCount (n v : Nat) : Nat := ((List.range n).filter (bit v)).length

/-- The u8, u16, u32, u64 fields of a structure held as bytes. -/
def fieldAt (bs : List Byte) (off size : Nat) : Nat := leNat ((bs.drop off).take size)

/-- The signed field of a structure held as bytes. -/
def fieldInt (bs : List Byte) (off size : Nat) : Int := sext (8 * size) (fieldAt bs off size)

/-- Bytes with some of them replaced. -/
def putAt (bs : List Byte) (off : Nat) (new : List Byte) : List Byte :=
  bs.take off ++ new ++ bs.drop (off + new.length)

/-- A structure of n bytes: zero (R36) but for the fields, each as offset, size and value. -/
def pack (n : Nat) (fields : List (Nat × Nat × Nat)) : List Byte :=
  fields.foldl (fun bs f => putAt bs f.1 (leBytes f.2.1 f.2.2)) (List.replicate n 0#8)

/-- Lists cut into pieces of n. -/
def chunksFuel {α : Type} (n : Nat) : Nat → List α → List (List α)
  | 0, _ => []
  | fuel + 1, l => if l.isEmpty then [] else l.take n :: chunksFuel n fuel (l.drop n)

def chunks {α : Type} (n : Nat) (l : List α) : List (List α) := chunksFuel n l.length l

/-- Bytes as words of a FIFO of width 8. -/
def wordsLe (bs : List Byte) : List Word := (chunks 8 bs).map (fun w => BitVec.ofNat 64 (leNat w))

/-- The length word of a packet (R681). -/
def lengthWord (bytes : Nat) (seq : BitVec 16) : Word := BitVec.ofNat 64 (bytes + 2 ^ 16 * seq.toNat)

/-- Division rounded up. -/
def ceilDiv (a b : Nat) : Nat := (a + b - 1) / b

/-- Integer division that truncates toward zero (R62). -/
def truncDiv (a b : Int) : Int := a.tdiv b

/-- The first index whose element meets a condition. -/
def findIdx {α : Type} (p : α → Bool) : List α → Nat → Option Nat
  | [], _ => none
  | x :: xs, i => if p x then some i else findIdx p xs (i + 1)

/-- A list with one element changed. -/
def modifyAt {α : Type} (l : List α) (n : Nat) (f : α → α) : List α :=
  l.zipIdx.map (fun e => if e.2 = n then f e.1 else e.1)

/-- One of n numbers 0 to n - 1 of the spec's choices, by a free value. -/
def freePick (s : State) (n : Nat) : Nat := Config.freeNat s.free % n

/-! ## The check byte of core and stacked memory (R580) -/

/-- One bit of the CRC with polynomial x^8 + x^2 + x + 1. -/
def crc8Bit (c : BitVec 8) : BitVec 8 := if c.msb then (c <<< 1) ^^^ 0x07#8 else c <<< 1

/-- The CRC over one more byte, most significant bit first. -/
def crc8Byte (c b : BitVec 8) : BitVec 8 :=
  crc8Bit (crc8Bit (crc8Bit (crc8Bit (crc8Bit (crc8Bit (crc8Bit (crc8Bit (c ^^^ b))))))))

/-- The check byte of a word's bytes 0 to 7 in order (R580). -/
def crc8 (bs : List Byte) : BitVec 8 := bs.foldl crc8Byte 0xFF#8

/-- The check byte that every word of core and stacked memory holds after cold power-up: the word is poison (R581);
its data, which the spec does not give, is zero (DESIGN CHOICE, log entry 8). -/
def poisonCheck : BitVec 8 := crc8 (List.replicate 8 0#8) ^^^ 0xFF#8

/-! ## The form of a meaning -/

/-- A command whose precondition holds has its effect; otherwise nothing happens (DESIGN CHOICE, log entry 3). -/
def needs (c : Bool) (t s : State) : Host.Outcome State Fault Refusal := if c then .next t else .next s

/-- The device is powered (R1049, R1053). -/
def State.on (s : State) : Bool := s.board.power == .good

end Sys2Proof.Machine
end

