-- ==== Sys2Proof/Machine/Draw.lean ====
section
/-! DEFINITION. Variates and acceptance tests (file 04): VF-128, the scaled product, the negative-log function and the
change of an inverse temperature. -/

namespace Sys2Proof.Machine

/-! ## VF-128 (R302, R303) -/

/-- The rotation counts of R302. -/
def vfRot : List Nat := [23, 41, 7, 57, 29, 13, 47, 3, 37, 19]

/-- The rounds of R302 on (a, b, k). -/
def vfRounds : List Nat → BitVec 64 → BitVec 64 → BitVec 64 → BitVec 64 × BitVec 64
  | [], a, b, _ => (a, b)
  | r :: rs, a, b, k =>
    let a := a + (b ^^^ k)
    vfRounds rs a (b.rotateLeft r ^^^ a) (k + 0xBB67AE8584CAA73B#64)

/-- The variate function of R302 on its five inputs. -/
def vf128 (seed replica var sweep tag : Nat) : Nat :=
  let a := BitVec.ofNat 64 seed ^^^ 0x9E3779B97F4A7C15#64
  let b := BitVec.ofNat 64 (sweep % 2 ^ 32 * 2 ^ 32 + var % 2 ^ 32)
  let k := BitVec.ofNat 64 (tag * 2 ^ 56 + replica % 2 ^ 16 * 2 ^ 40 + 0xD1B54A32D5)
  let r := vfRounds vfRot a b k
  (r.1 + r.2.rotateLeft 32).toNat / 2 ^ 32

/-- A draw in sweep index s of a run (R303). -/
def drawAt (seed s replica var tag : Nat) : Nat := vf128 (seed ^^^ (s / 2 ^ 32 * 2 ^ 32)) replica var s tag

/-! ## The acceptance test (R321, R322) -/

/-- The clamp of R321. -/
def clamp40 (x : Int) : Int := min (max x (-(2 ^ 40))) (2 ^ 40)

/-- floor (m * 2^e * 2^32) clamped to 2^40 in magnitude (R321). -/
def scaledProduct (m e : Int) : Int :=
  if 0 ≤ e + 32 then
    (if m = 0 then 0 else if 41 < e + 32 then (if m < 0 then -(2 ^ 40) else 2 ^ 40) else clamp40 (m * 2 ^ (e + 32).toNat))
  else clamp40 (m / 2 ^ (-(e + 32)).toNat)

def ln2Q : Nat := 0xB17217F8

/-- Σ z^(2n+1)/(2n+1) on a grid of 2^-128. -/
def lnSeries : Nat → Nat → Nat → Nat → Nat
  | 0, _, _, _ => 0
  | fuel + 1, n, term, z2 => term / (2 * n + 1) + lnSeries fuel (n + 1) (term * z2 / 2 ^ 128) z2

/-- L[i]: ln (1 + i/4096) * 2^32 rounded to the nearest integer (R322). -/
def lnTable (i : Nat) : Nat :=
  let z := i * 2 ^ 128 / (8192 + i)
  (2 * lnSeries 45 0 z (z * z / 2 ^ 128) + 2 ^ 95) / 2 ^ 96

/-- The negative-log function of R322. -/
def negLog (r : Nat) : Int :=
  let y := 2 * r + 1
  let n := Nat.log2 y
  let frac := y * 2 ^ (32 - n) % 2 ^ 32
  let i := frac / 2 ^ 20
  let f := frac % 2 ^ 20
  let lo := lnTable i
  let hi := if i = 4095 then ln2Q else lnTable (i + 1)
  ((33 - n) * ln2Q : Nat) - ((lo + (hi - lo) * f / 2 ^ 20 : Nat) : Int)

/-- The complement of a draw. -/
def complement (r : Nat) : Nat := 2 ^ 32 - 1 - r

/-- The Metropolis rule on an energy change d at β = M * 2^X (R323). -/
def metropolis (M : Nat) (X : Int) (d : Int) (r : Nat) : Bool :=
  d ≤ 0 || scaledProduct (M * d) X ≤ negLog r

/-- The heat-bath rule (R324). -/
def heatBath (M : Nat) (X : Int) (d : Int) (r : Nat) : Bool :=
  scaledProduct (M * d) X < negLog r - negLog (complement r)

/-! ## Schedules (R326) -/

/-- scale_beta of R326: β * num * 2^sh. -/
def scaleBeta (M : Nat) (X : Int) (num : Nat) (sh : Int) : Nat × Int :=
  if M = 0 ∨ num = 0 then (0, 0) else
  let p := M * num
  let top := Nat.log2 p
  let x := X + sh + top - 31
  let q := if 31 < top then p / 2 ^ (top - 31) else p * 2 ^ (31 - top)
  if 127 < x then (0xFFFFFFFF, 127) else if x < -128 then (0, 0) else (q, x)

/-- The swap test of R332 on β_a, E_a, β_b, E_b and the draw. -/
def swapAccepted (ma : Nat) (xa : Int) (ea : Int) (mb : Nat) (xb : Int) (eb : Int) (r : Nat) : Bool :=
  let low := min xa xb
  let d : Int := ((ma : Int) * 2 ^ (xa - low).toNat - (mb : Int) * 2 ^ (xb - low).toNat) * (ea - eb)
  0 ≤ d || scaledProduct (-d) low ≤ negLog r

end Sys2Proof.Machine
end

