-- ==== Sys2Proof/Machine/Flags.lean ====
section
/-! DEFINITION. Event bits, 48-bit counts and event records: every flag computation of the register blocks. -/

namespace Sys2Proof.Machine

/-! ## Event bits -/

/-- An events register with bit b set. -/
def raise (w : Word32) (b : Nat) : Word32 := w ||| BitVec.ofNat 32 (2 ^ b)

/-- An events register with bit b set if a condition holds. -/
def raiseIf (c : Bool) (w : Word32) (b : Nat) : Word32 := if c then raise w b else w

/-- A write-one-to-clear register after software writes v (R43). -/
def w1c (w v : Word32) : Word32 := w &&& ~~~v

/-! ## Counts of 48 bits -/

/-- A count after n more events; it stops at 2^48 - 1 and sets OVF when it reaches it (R336, R516, R630, R877). -/
def Counter.add (c : Counter) (n : Nat) : Counter :=
  if c.count + n < Config.countMax then { c with count := c.count + n }
  else { count := Config.countMax, ovf := c.ovf || c.count < Config.countMax }

/-- n more events make the count reach 2^48 - 1. -/
def Counter.hits (c : Counter) (n : Nat) : Bool := c.count < Config.countMax && Config.countMax ≤ c.count + n

/-- A counter register as it reads: COUNT in [47:0], OVF in [63]. -/
def Counter.reg (c : Counter) : Nat := c.count + 2 ^ 63 * natOfBool c.ovf

/-- A counter register after software writes v: OVF is W1C. -/
def Counter.clear (c : Counter) (v : Word) : Counter := { c with ovf := c.ovf && !v.msb }

/-! ## Event records (R952) -/

/-- SOURCE of a record from hub unit n of R642.
DEDUCED, log entry 43: SOURCE of hub units by R642; poison consumed by the dispatcher is logged. -/
def hubSource (n : Nat) : Nat := 0x100 + n

/-! ### The poison-and-fault path (R74, R84, R644): control packets of the on-chip network -/

/-- The packets that wait in the router FIFO or at the router port of a number. -/
def State.fifo (s : State) (n : Nat) : List Pkt := mapGet [] s.net.fifos n

def State.setFifo (s : State) (n : Nat) (ps : List Pkt) : State :=
  { s with net := { s.net with fifos := if ps.isEmpty then mapErase s.net.fifos n else mapSet s.net.fifos n ps } }

/-- The router ports of units, one queue for each virtual channel (DESIGN CHOICE, log entry 21): the Stream engine of the core
at a position, a reduction node, a crossbar mesh port, a cluster controller, a GDDR7 controller, a hub unit of R642. -/
def corePort (c p v : Nat) : Nat := 255102 + 3 * (64 * c + p) + v
def nodePort (c v : Nat) : Nat := 304254 + 3 * c + v
def xbarPort (c v : Nat) : Nat := 305022 + 3 * c + v
def ctlPort (c v : Nat) : Nat := 305790 + 3 * c + v
def attPort (q v : Nat) : Nat := 306558 + 3 * q + v
def hubPort (u v : Nat) : Nat := 306606 + 3 * u + v

/-- The unit that sends the records of a SOURCE (R952): a cluster controller, or a hub unit. -/
def recordPort (source : Nat) : Nat := if source < 0x100 then ctlPort source 0 else hubPort (source - 0x100) 0

/-- A control packet from the unit of a SOURCE to the management processor (R642): a header flit and the 32 bytes of R952. -/
def reportPkt (source : Nat) (payload : Payload) : Pkt :=
  { typ := 7, vc := 0, flits := 2, last := true, destUnit := .hub, destIndex := 1
    srcUnit := if source < 0x100 then .controller else .hub
    srcCluster := if source < 0x100 then source else 0
    srcIndex := if source < 0x100 then 0 else source - 0x100
    payload := payload }

/-- The packet of an event record. -/
def recordPkt (e : EvRec) : Pkt := reportPkt e.source (.event e)

/-- An event record sets out on the poison-and-fault path if a condition holds (R74, R84). -/
def logEventIf (b : Bool) (kind source wher detail : Nat) (s : State) : State :=
  let e : EvRec := { kind := kind, source := source, wher := BitVec.ofNat 64 wher, detail := BitVec.ofNat 64 detail }
  let n := recordPort source
  { s with net := { s.net with fifos := if b then mapSet s.net.fifos n (s.fifo n ++ [recordPkt e]) else s.net.fifos } }

/-- An event record sets out on the poison-and-fault path (R74). -/
def logEvent (kind source wher detail : Nat) (s : State) : State := logEventIf true kind source wher detail s

/-- A result or a counter snapshot sets out to the management processor (R75). -/
def sendResult (source : Nat) (r : Result) (s : State) : State :=
  s.setFifo (recordPort source) (s.fifo (recordPort source) ++ [reportPkt source (.result r)])

/-- An order of the management processor sets out to a unit (R75, R76). -/
def orderTo (unit : UnitKind) (cluster index : Nat) (o : Order) (s : State) : State :=
  s.setFifo (hubPort 1 0) (s.fifo (hubPort 1 0) ++ [
    { typ := 7, vc := 0, flits := 2, last := true, destUnit := unit, destCluster := cluster, destIndex := index, srcUnit := .hub
      srcIndex := 1, payload := .order o }])

/-- Orders to a cluster controller, to the dispatcher, and to a hub unit of R642. -/
def sendOrder (c : Nat) (o : Order) (s : State) : State := orderTo .controller c 0 o s
def orderDispatcher (o : Order) (s : State) : State := orderTo .hub 0 0 o s
def orderHub (u : Nat) (o : Order) (s : State) : State := orderTo .hub 0 u o s

/-- The counter-overflow record of a count that has reached its end (R630). -/
def overflowEvent (hit : Bool) (source reg : Nat) (s : State) : State := logEventIf hit 9 source reg 0 s

/-! ## Counters and events, block by block -/

def memcEvent (b : Nat) (s : State) : State := { s with memc := { s.memc with events := raise s.memc.events b } }

/-- A counter of MEMC moves (R629, R630). -/
def memcCount (get : Memc → Counter) (put : Memc → Counter → Memc) (off : Nat) (s : State) : State :=
  let hit := (get s.memc).hits 1
  let s := { s with memc := put s.memc ((get s.memc).add 1) }
  overflowEvent hit (hubSource 0) (0x00F004000000 + off) 
    { s with memc := { s.memc with events := raiseIf hit s.memc.events 8 } }

def memcPoison (s : State) : State :=
  memcEvent 0 (memcCount Memc.poison (fun m c => { m with poison := c }) 0x38 s)

def memcRecompute (s : State) : State :=
  memcEvent 1 (memcCount Memc.recompute (fun m c => { m with recompute := c }) 0x40 s)

def memcMigration (s : State) : State :=
  memcCount Memc.migrations (fun m c => { m with migrations := c }) 0x48 s

def State.gdcOf (s : State) (q : Nat) : Gdc := mapGet {} s.gdc q
def State.setGdc (s : State) (q : Nat) (g : Gdc) : State := { s with gdc := mapSet s.gdc q g }
def gdcEvent (q b : Nat) (s : State) : State :=
  s.setGdc q { s.gdcOf q with events := raise (s.gdcOf q).events b }

/-- A counter of a GDC block moves by n. -/
def gdcCount (q : Nat) (get : Gdc → Counter) (put : Gdc → Counter → Gdc) (off n : Nat) (s : State) : State :=
  let hit := (get (s.gdcOf q)).hits n
  let s := s.setGdc q (put (s.gdcOf q) ((get (s.gdcOf q)).add n))
  overflowEvent hit (hubSource 0) (0x00F004800000 + q * 0x100 + off) 
    (s.setGdc q { s.gdcOf q with events := raiseIf hit (s.gdcOf q).events 4 })

def State.cxlOf (s : State) (d : Nat) : Cxlp := mapGet {} s.cxlp d
def State.setCxl (s : State) (d : Nat) (x : Cxlp) : State := { s with cxlp := mapSet s.cxlp d x }
def cxlEvent (d b : Nat) (s : State) : State :=
  s.setCxl d { s.cxlOf d with events := raise (s.cxlOf d).events b }

def cxlCountPoison (d : Nat) (s : State) : State :=
  let hit := (s.cxlOf d).poison.hits 1
  let s := s.setCxl d { s.cxlOf d with poison := (s.cxlOf d).poison.add 1 }
  overflowEvent hit (hubSource (2 + d)) (0x00F005000000 + d * 0x100 + 0x10) (cxlEvent d 3 (if hit then cxlEvent d 4 s else s))

def hostEvent (b : Nat) (s : State) : State := { s with hostp := { s.hostp with events := raise s.hostp.events b } }

def dispEvent (b : Nat) (s : State) : State := { s with disp := { s.disp with events := raise s.disp.events b } }

def dispCount (get : Disp → Counter) (put : Disp → Counter → Disp) (off : Nat) (s : State) : State :=
  let hit := (get s.disp).hits 1
  let s := { s with disp := put s.disp ((get s.disp).add 1) }
  overflowEvent hit (hubSource 0) (0x00F006010000 + off) 
    { s with disp := { s.disp with events := raiseIf hit s.disp.events 5 } }

def paceEvent (b : Nat) (s : State) : State := { s with pace := { s.pace with events := raise s.pace.events b } }

def paceCount (get : Pace → Counter) (put : Pace → Counter → Pace) (off n : Nat) (s : State) : State :=
  let hit := (get s.pace).hits n
  let s := { s with pace := put s.pace ((get s.pace).add n) }
  overflowEvent hit (hubSource 0) (0x00F002000000 + off)
    { s with pace := { s.pace with events := raiseIf hit s.pace.events 1 } }

def entEvent (b : Nat) (s : State) : State := { s with ent := { s.ent with events := raise s.ent.events b } }

def silkEvent (b : Nat) (s : State) : State := { s with silk := { s.silk with events := raise s.silk.events b } }

def mgmtEvent (b : Nat) (s : State) : State := { s with mgmt := { s.mgmt with events := raise s.mgmt.events b } }

/-- A counter of the SILK block moves (R784, R785). -/
def silkCount (get : Silk → Counter) (put : Silk → Counter → Silk) (off : Nat) (s : State) : State :=
  let hit := (get s.silk).hits 1
  let s := { s with silk := put s.silk ((get s.silk).add 1) }
  overflowEvent hit (hubSource 0) (0x00F005800000 + off)
    { s with silk := { s.silk with events := raiseIf hit s.silk.events 8 } }

def State.portOf (s : State) (p : Nat) : Port := mapGet { engine := p } s.silk.ports p
def State.setPort (s : State) (p : Nat) (x : Port) : State :=
  { s with silk := { s.silk with ports := mapSet s.silk.ports p x } }
def portEvent (p b : Nat) (s : State) : State :=
  s.setPort p { s.portOf p with events := raise (s.portOf p).events b }

/-- A counter of the ENT block moves (R1028, R1029). -/
def entCount (get : Ent → Counter) (put : Ent → Counter → Ent) (off : Nat) (s : State) : State :=
  let hit := (get s.ent).hits 1
  let s := { s with ent := put s.ent ((get s.ent).add 1) }
  overflowEvent hit (hubSource 1) (0x00F008000000 + off)
    { s with ent := { s.ent with events := raiseIf hit s.ent.events 3 } }

/-- A counter of the TRACE block moves (R353 to R355, R358). -/
def traceCount (get : Trace → Counter) (put : Trace → Counter → Trace) (off n : Nat) (s : State) : State :=
  let hit := (get s.trace).hits n
  overflowEvent hit (hubSource 0) (0x00F002800000 + off) { s with trace := put s.trace ((get s.trace).add n) }

def traceEvent (b : Nat) (s : State) : State := { s with trace := { s.trace with events := raise s.trace.events b } }

end Sys2Proof.Machine
end

