-- ==== Sys2Proof/Machine/Link.lean ====
section
/-! DEFINITION. The Silk link layer (file 09, R702 to R715, R725): packets as flits, frames with their CRC, credits, the replay
buffer, and how a port sends. -/

namespace Sys2Proof.Machine

/-! ## Frames (R702, R703) -/

def crc32Bit (c : BitVec 32) : BitVec 32 := if c.getLsbD 0 then (c >>> 1) ^^^ 0xEDB88320#32 else c >>> 1

/-- The CRC-32 over one more byte, least significant bit first. -/
def crc32Byte (c : BitVec 32) (b : Byte) : BitVec 32 :=
  crc32Bit (crc32Bit (crc32Bit (crc32Bit (crc32Bit (crc32Bit (crc32Bit (crc32Bit (c ^^^ b.setWidth 32))))))))

/-- CRC-32 of IEEE 802.3. -/
def crc32 (bs : List Byte) : BitVec 32 := ~~~(bs.foldl crc32Byte 0xFFFFFFFF#32)

/-- FLAGS of a frame. -/
def frameFlags (f : Frame) : Nat := natOfBool f.nak + 2 * natOfBool f.idle + 4 * natOfBool f.resume

/-- Bytes 0x0 to 0xB of a trailer. -/
def trailer (f : Frame) : List Byte :=
  pack 12 [(0x0, 2, f.seq.toNat), (0x2, 2, f.ack.toNat), (0x4, 1, frameFlags f), (0x5, 1, f.nflits), (0x6, 1, f.creditVc),
    (0x7, 1, f.creditN), (0x8, 4, f.epoch.toNat)]

def frameCrc (f : Frame) : BitVec 32 := crc32 (f.flits ++ trailer f)

/-- The frame with its CRC. -/
def sealFrame (f : Frame) : Frame := { f with crc := frameCrc f }

/-! ## Packets (R725) -/

/-- Flits of a packet: the header and its payload. -/
def SilkPkt.flits (k : SilkPkt) : Nat := 1 + ceilDiv k.payload.length 64

/-- The flits of a packet as bytes. -/
def SilkPkt.bytes (k : SilkPkt) : List Byte :=
  pack 64 [(0x0, 1, k.typ), (0x1, 1, k.vc), (0x2, 1, k.flits), (0x3, 1, k.status), (0x4, 2, k.src), (0x6, 2, k.dest),
    (0x8, 4, k.tag), (0xC, 2, k.length), (0xE, 1, k.kind), (0xF, 1, natOfBool k.last), (0x10, 8, k.addr),
    (0x18, 16, k.poisonMap.toNat), (0x28, 8, k.a.toNat), (0x30, 8, k.b.toNat)] ++
  k.payload ++ List.replicate ((64 - k.payload.length % 64) % 64) 0#8

/-! ## Ports -/

def Port.up (p : Port) : Bool := p.state == .up8 || p.state == .upLow || p.state == .upHigh

/-- The channel whose credits a frame returns: the first that has some owed (R702). -/
def Port.creditVc (x : Port) : Nat := (findIdx (· != 0) x.owed 0).getD 0

/-- A frame of a port with the port's ACK, epoch and credits. -/
def Port.frame (x : Port) (flits : List Byte) (idle nak resume : Bool) : Frame :=
  let vc := x.creditVc
  sealFrame { flits := flits ++ List.replicate (256 - flits.length) 0#8, seq := x.txSeq, ack := x.rxSeq, nak := nak, idle := idle
              resume := resume, nflits := ceilDiv flits.length 64, creditVc := vc, creditN := (x.owed[vc]?).getD 0
              epoch := x.epoch, crc := 0 }

/-- The credits of a frame have been returned. -/
def Port.repaid (x : Port) : Port := { x with owed := modifyAt x.owed x.creditVc (fun _ => 0) }

def emitFrame (p : Nat) (f : Frame) (s : State) : State := { s with out := s.out ++ [.frame p f] }

/-- An IDLE frame leaves a port; it carries ACK and credits. -/
def sendIdle (p : Nat) (nak resume : Bool) (s : State) : State :=
  let x := s.portOf p
  emitFrame p (x.frame [] true nak resume) (s.setPort p x.repaid)

/-- A frame with flits leaves a port and stays in its replay buffer (R704). -/
def sendFrame (p : Nat) (flits : List Byte) (s : State) : State :=
  let x := s.portOf p
  let f := x.frame flits false false false
  emitFrame p f (s.setPort p { x.repaid with txSeq := x.txSeq + 1, replay := x.replay ++ [(s.pace.cricket, f)] })

/-- A port holds the credits and the room in its replay buffer that a packet needs (R704, R714). -/
def Port.covers (x : Port) (k : SilkPkt) : Bool :=
  k.flits ≤ (x.credits[k.vc]?).getD 0 && x.replay.length + ceilDiv k.flits 4 ≤ 512

/-- The place in the queue of the first packet of a channel, if it may be sent. -/
def Port.ready (x : Port) (vc : Nat) : Option Nat :=
  match findIdx (fun k => k.vc = vc) x.queue 0 with
  | some i => if (x.queue[i]?).any x.covers then some i else none
  | none => none

/-- The packet sent next: control first, then response and request alternately (R646, R715). -/
def Port.choice (x : Port) : Option Nat :=
  (x.ready 0).or (if x.turn then (x.ready 2).or (x.ready 1) else (x.ready 1).or (x.ready 2))

/-- A packet leaves a port. -/
def sendPacket (p : Nat) (k : SilkPkt) (s : State) : State :=
  let s := { s with out := s.out ++ [.silk p k] }
  (chunks 256 k.bytes).foldl (fun s fs => sendFrame p fs s) s

/-- A port sends what its credits and its replay buffer allow; one that is not up, that OE17 is about to take over or hand back,
or that waits for its partner's RESUME frame, sends nothing. -/
def drainPort (p : Nat) : Nat → State → State
  | 0, s => s
  | fuel + 1, s =>
    let x := s.portOf p
    if !x.up || x.substituting || x.resuming then s else
    match x.choice with
    | none => s
    | some i =>
      match x.queue[i]? with
      | none => s
      | some k =>
        let x := { x with queue := x.queue.eraseIdx i, turn := if k.vc = 0 then x.turn else k.vc = 1
                          credits := modifyAt x.credits k.vc (· - k.flits) }
        drainPort p fuel (sendPacket p k (s.setPort p x))

def pumpPort (p : Nat) (s : State) : State := drainPort p (s.portOf p).queue.length s

/-- A packet is given to a port. -/
def emitSilk (p : Nat) (k : SilkPkt) (s : State) : State :=
  pumpPort p (s.setPort p { s.portOf p with queue := (s.portOf p).queue ++ [k] })

end Sys2Proof.Machine
end

