-- ==== Sys2Proof/Machine/Ops.lean ====
section
/-! DEFINITION. The named operations over the device: the core map, the places of the physical map, reads and writes of
memory with their poison tags, translation, the Silk egress, and the ways a launch stops. -/

namespace Sys2Proof.Machine

/-! ## Time -/

/-- One Cricket tick passes (R53, R751): the time base of the entropy source advances, and Cricket with it unless it is
held. A device without power does not count. -/
def tick (s : State) : State :=
  if s.on then
    { s with pace := { s.pace with
        cricket := if s.pace.hold = 0 then (s.pace.cricket + 1) % 2 ^ 64 else s.pace.cricket
        hold := s.pace.hold - 1
        timeBase := (s.pace.timeBase + 1) % 2 ^ 64 } }
  else s

def State.now (s : State) : Nat := s.pace.cricket

/-- The next free value is drawn. -/
def drawn (n : Nat) (s : State) : State := { s with free := s.free + n }

/-! ## The core map (file 01) -/

/-- Logical cores per cluster of the unit's grade (R6). -/
def State.lcores (s : State) : Nat := Config.lcores s.fuses.grade

/-- Manhattan distance of two positions of an 8 x 8 grid. -/
def gridDistance (p q : Nat) : Nat :=
  ((p % 8 : Int) - q % 8).natAbs + ((p / 8 : Int) - q / 8).natAbs

/-- The spare nearest to a home position, the lowest among equals (R107). -/
def nearestSpare (home spares : Nat) : Option Nat :=
  (List.range 64).foldl (fun best p =>
    if bit spares p then
      match best with
      | none => some p
      | some b => if gridDistance home p < gridDistance home b then some p else some b
    else best) none

/-- The positions of a cluster that failed manufacturing test. -/
def failedBits (f : Fuses) (c : Nat) : Nat :=
  (List.range 64).foldl (fun w p => setBit w p (f.failed.contains (c, p))) 0

/-- The manufacture map of a cluster (R108): the map, and the spares that are left. -/
def manufactureMap (f : Fuses) (c : Nat) : List (Option Nat) × Nat :=
  let n := Config.lcores f.grade
  let bad := failedBits f c
  let spares := (List.range 64).foldl (fun w p => setBit w p (n ≤ p && !bit bad p)) 0
  (List.range 64).foldl (fun (acc : List (Option Nat) × Nat) l =>
    if n ≤ l then (acc.1 ++ [none], acc.2)
    else if !bit bad l then (acc.1 ++ [some l], acc.2)
    else match nearestSpare l acc.2 with
      | some p => (acc.1 ++ [some p], setBit acc.2 p false)
      | none => (acc.1 ++ [none], acc.2)) ([], spares)

/-- A cluster as cold power-up and the reset input leave it (R108, R144 to R147). -/
def manufactured (f : Fuses) (c : Nat) : Cluster :=
  let m := manufactureMap f c
  { map := m.1, spares := BitVec.ofNat 64 m.2, fenced := BitVec.ofNat 64 (failedBits f c) }

/-- DESIGN CHOICE, log entry 73: unlisted clusters are as manufactured; numbers of places outside the device. -/
def State.cluster (s : State) (c : Nat) : Cluster :=
  match mapFind s.clusters c with
  | some k => k
  | none => manufactured s.fuses c

def State.setCluster (s : State) (c : Nat) (k : Cluster) : State := { s with clusters := mapSet s.clusters c k }

def State.modCluster (s : State) (c : Nat) (f : Cluster → Cluster) : State := s.setCluster c (f (s.cluster c))

/-- The physical position bound to a logical index (R104, R105). -/
def Cluster.phys (k : Cluster) (l : Nat) : Option Nat := (k.map[l]?).getD none

def State.core (s : State) (c l : Nat) : Core := mapGet {} (s.cluster c).cores l

def State.modCore (s : State) (c l : Nat) (f : Core → Core) : State :=
  s.modCluster c (fun k => { k with cores := mapModify {} k.cores l f })

/-- What the Cricket follower of a cluster reads: within 4 ticks of the hub count, by a free value, and never less than it has
read before (R81 to R83).
DEDUCED, log entry 52: follower reads are the hub count with a free difference of at most 4 ticks. -/
def State.follower (s : State) (c : Nat) : Nat := max (s.cluster c).follower ((s.now + freePick s 9 - 4) % 2 ^ 64)

/-- The follower of a cluster has been read. -/
def readFollower (c : Nat) (s : State) : State := drawn 1 (s.modCluster c (fun k => { k with follower := s.follower c }))

def cluEvent (c b : Nat) (s : State) : State := s.modCluster c (fun k => { k with events := raise k.events b })
def coreEvent (c l b : Nat) (s : State) : State := s.modCore c l (fun k => { k with events := raise k.events b })

/-- A counter of a CORE block moves by n (R516, R517). -/
def coreCount (c l : Nat) (get : Core → Counter) (put : Core → Counter → Core) (off n : Nat) (s : State) : State :=
  let k := s.core c l
  overflowEvent ((get k).hits n) c (0x00F003000000 + c * 0x4000 + l * 0x100 + off)
    (s.modCore c l (fun k => { put k ((get k).add n) with events := raiseIf ((get k).hits n) k.events 3 }))

/-- A network counter of a CLU block moves by n (R695, R696). -/
def netCount (c : Nat) (get : Cluster → Counter) (put : Cluster → Counter → Cluster) (off n : Nat) (s : State) : State :=
  overflowEvent ((get (s.cluster c)).hits n) c (0x00F001000000 + c * 0x10000 + off)
    (s.modCluster c (fun k => put k ((get k).add n)))

/-! ## Places of the local physical map (R520 to R524) -/

inductive Place where
  | hole
  | stacked (c slice off : Nat)
  | core (c phys off : Nat)
  | gddr (q k : Nat)
  | regs
  | cxl (d off : Nat)
  deriving DecidableEq, Repr

/-- The decode of a stacked address (R521). -/
def stackedUnit (a : Nat) : Nat × Nat × Nat :=
  let o := a % Config.clusterStacked
  (a / Config.clusterStacked, o / 0x1000 % 16, o / 0x10000 * 0x1000 + o % 0x1000)

def placeOf (s : State) (a : Nat) : Place :=
  if a < Config.stackedSize then
    let u := stackedUnit a
    .stacked u.1 u.2.1 u.2.2
  else if Config.coreBase ≤ a ∧ a < Config.coreBase + Config.coreRegion then
    let w := (a - Config.coreBase) / Config.coreSize
    if s.lcores ≤ w % 64 then .hole else
    match (s.cluster (w / 64)).phys (w % 64) with
    | some p => .core (w / 64) p ((a - Config.coreBase) % Config.coreSize)
    | none => .hole
  else if Config.gddrBase ≤ a ∧ a < Config.gddrBase + Config.gddrSize then
    let q := (a - Config.gddrBase) / 2 ^ 32
    let k := (a - Config.gddrBase) / 2 ^ 30 % 4
    if (s.gdcOf q).retired.getLsbD k then .hole else .gddr q k
  else if Config.regBase ≤ a ∧ a < Config.regBase + Config.regSize then .regs
  else if Config.cxlBase ≤ a ∧ a < Config.cxlBase + Config.cxlSize then
    let d := (a - Config.cxlBase) / 2 ^ 42
    let o := (a - Config.cxlBase) % 2 ^ 42
    if (s.cxlOf d).ranges.any (fun r => r.1 ≤ o && o < r.1 + r.2.1) then .cxl d o else .hole
  else .hole

/-- The place lies in the stacked or GDDR7 region and in no hole (R568, R614). -/
def tablePlace (s : State) (a : Nat) : Bool :=
  match placeOf s a with
  | .stacked _ _ _ => true
  | .gddr _ _ => true
  | _ => false

/-- Bytes [a, a + n) meet an area that firmware reserves (R524). -/
def reservedArea (a n : Nat) : Bool :=
  (a < Config.reservedGddr + Config.reservedGddrSize && Config.reservedGddr < a + n) ||
    (a < Config.stackedSize && (List.range Config.clusters).any (fun c =>
      a < (c + 1) * Config.clusterStacked && c * Config.clusterStacked + Config.snapshotOffset < a + n))

/-- The redirect slot that holds a retired slice (R596). -/
def redirectSlot (s : State) (c slice : Nat) : Option Nat :=
  (s.memc.redirect.find? (fun e => e.2 == (c, slice))).map (·.1)

/-! ## Words of memory with their poison tags -/

/-- A byte and the poison tag of the word it lies in (R582). -/
abbrev Tagged := Byte × Bool

/-- How a word of core or stacked memory stands: good, written as poison (R581) or detected as bad (R580). -/
inductive Check where
  | good
  | written
  | bad
  deriving DecidableEq, Repr

/-- The bytes stored under a key. -/
def storedBytes (m : Mem) (key n : Nat) : List Byte := (List.range n).map (fun i => cellGet 0 m.bytes (key + i))

/-- The check of a stored word (R580, R581). -/
def wordCheck (m : Mem) (key : Nat) : Check :=
  let crc := crc8 (storedBytes m key 8)
  let c := cellGet poisonCheck m.check (key / 8)
  if c = crc then .good else if c = crc ^^^ 0xFF#8 then .written else .bad

/-- A GDDR7 word reads as poison (R539, R541, R542, R554). -/
def gddrPoisoned (s : State) (a : Nat) : Bool :=
  !s.mem.inited.contains ((a - Config.gddrBase) / 4096) || s.mem.gddrPoison.contains ((a - Config.gddrBase) / 64) ||
    (s.gdcOf ((a - Config.gddrBase) / 2 ^ 32)).failed.getLsbD ((a - Config.gddrBase) / 2 ^ 30 % 4)

/-- Where the byte at an address is stored, and whether its word is poison; none for holes and registers. -/
def wordAt (s : State) (a : Nat) : Option (List Byte × Bool) :=
  match placeOf s a with
  | .stacked c sl off =>
    match redirectSlot s c sl with
    | some k =>
      let g := Config.redirectArea + k * Config.sliceBytes + off
      some (storedBytes s.mem g 8, (s.cluster c).poisonList.contains a || gddrPoisoned s g)
    | none => some (storedBytes s.mem a 8, wordCheck s.mem a != .good)
  | .core c p off =>
    let key := Config.coreBase + (c * 64 + p) * Config.coreSize + off
    some (storedBytes s.mem key 8, wordCheck s.mem key != .good)
  | .gddr _ _ => some (storedBytes s.mem a 8, gddrPoisoned s a)
  | .cxl d _ =>
    some ((List.range 8).map (fun i => mapGet (Config.cxlByte (a + i)) s.mem.cxl (a + i)),
      (s.cxlOf d).state == .lost || mapGet (Config.cxlPoison (a / 64)) s.mem.cxlShown (a / 64))
  | _ => none

/-- The bytes at local physical addresses a to a + n - 1 with their tags; none where one lies in a hole or a register. -/
def physRead (s : State) (a n : Nat) : Option (List Tagged) :=
  if n = 0 then some [] else
  let a0 := a / 8 * 8
  let words := (List.range ((a + n + 7) / 8 - a / 8)).map (fun i => wordAt s (a0 + 8 * i))
  if words.all (·.isSome) then
    some (((words.flatMap (fun w => match w with
      | some (bs, p) => bs.map (fun b => (b, p))
      | none => [])).drop (a % 8)).take n)
  else none

/-- The word at an address belongs to a port whose link is lost (R560). -/
def lostPlace (s : State) (a : Nat) : Bool :=
  match placeOf s a with
  | .cxl d _ => (s.cxlOf d).state == .lost
  | _ => false

/-- Write the given bytes of the word stored under a key. -/
def putCells (m : List Host.Cell) (key : Nat) (bs : List (Option Byte)) : List Host.Cell :=
  bs.zipIdx.foldl (fun m e => match e.1 with
    | some b => cellSet 0 m (key + e.2) b
    | none => m) m

/-- A word of core or stacked memory is written (R528, R529, R581): a merge into a poisoned word leaves it poisoned. -/
def writeChecked (m : Mem) (key : Nat) (bs : List (Option Byte)) (poison : Bool) : Mem :=
  let p := poison || (!bs.all (·.isSome) && wordCheck m key != .good)
  let bytes := putCells m.bytes key bs
  let crc := crc8 (storedBytes { m with bytes := bytes } key 8)
  { m with bytes := bytes, check := cellSet poisonCheck m.check (key / 8) (if p then crc ^^^ 0xFF#8 else crc)
           badWords := m.badWords.map (fun b => if b.key = key && !p then { b with rewritten := true } else b) }

/-- A word of GDDR7 is written (R542): the first write to an uninitialised unit clears the rest of it; a word written as
poison makes its unit uninitialised (as R549 does; DEDUCED, log entry 22). -/
def writeGddr (s : State) (a : Nat) (bs : List (Option Byte)) (poison : Bool) : State :=
  let u := (a - Config.gddrBase) / 4096
  if (s.gdcOf ((a - Config.gddrBase) / 2 ^ 32)).failed.getLsbD ((a - Config.gddrBase) / 2 ^ 30 % 4) then s
  else if poison then { s with mem := { s.mem with inited := setErase s.mem.inited u } }
  else
    let base := Config.gddrBase + u * 4096
    let cells := if s.mem.inited.contains u then s.mem.bytes else cellClear s.mem.bytes base (base + 4096)
    { s with mem := { s.mem with
        bytes := putCells cells a bs
        inited := setInsert s.mem.inited u
        gddrPoison := setErase s.mem.gddrPoison ((a - Config.gddrBase) / 64) } }

/-- A word is written at an address; none of its bytes lies in a hole. A write of a whole word takes it off the poison list of a
retired slice (R597); a word that is written as poison (R581) is held there, while the list has room (DEDUCED, log entry 22). -/
def writeWord (s : State) (a : Nat) (bs : List (Option Byte)) (poison : Bool) : State :=
  match placeOf s a with
  | .stacked c sl off =>
    match redirectSlot s c sl with
    | some k =>
      if poison && ((s.cluster c).poisonList.contains a || (s.cluster c).poisonList.length < 256) then
        s.modCluster c (fun x => { x with poisonList := setInsert x.poisonList a })
      else
        let s := writeGddr s (Config.redirectArea + k * Config.sliceBytes + off) bs poison
        if bs.all (·.isSome) then s.modCluster c (fun x => { x with poisonList := setErase x.poisonList a }) else s
    | none => { s with mem := writeChecked s.mem a bs poison }
  | .core c p off =>
    { s with mem := writeChecked s.mem (Config.coreBase + (c * 64 + p) * Config.coreSize + off) bs poison }
  | .gddr _ _ => writeGddr s a bs poison
  | .cxl d _ =>
    if (s.cxlOf d).state == .lost || poison then s else
    { s with mem := { s.mem with
        cxl := bs.zipIdx.foldl (fun m e => match e.1 with
          | some b => mapSet m (a + e.2) b
          | none => m) s.mem.cxl
        cxlShown := mapSet s.mem.cxlShown (a / 64) false } }
  | _ => s

/-- Tagged bytes cut into the words they fall in: address, bytes by place in the word, and tag. -/
def wordsOf (a : Nat) (data : List Tagged) : List (Nat × List (Option Byte) × Bool) :=
  (chunks 8 (List.replicate (a % 8) none ++ data.map some)).zipIdx.map (fun e =>
    (a / 8 * 8 + 8 * e.2, (e.1 ++ List.replicate (8 - e.1.length) none).map (Option.map (·.1)),
      e.1.any (fun x => match x with
        | some t => t.2
        | none => false)))

/-- A write that reaches a watched 4 KiB unit discards the preload (R845), one to a unit of a kept root drops it (R916). -/
def discardPreloads (s : State) (lo hi : Nat) : State :=
  { s with disp := { s.disp with
      preloads := s.disp.preloads.filter (fun p => !p.units.any (fun u => lo / 4096 ≤ u && u ≤ hi / 4096))
      kept := s.disp.kept.filter (fun p => !p.units.any (fun u => lo / 4096 ≤ u && u ≤ hi / 4096)) } }

/-- The 64 B lines of a CXL transaction that hold a poisoned word (R1080). -/
def poisonedLines (ws : List (Nat × List (Option Byte) × Bool)) : List Nat :=
  (ws.filter (fun w => w.2.2)).map (fun w => w.1 / 64)

/-- Tagged bytes are written at local physical addresses from a on. In a CXL window a line that holds a poisoned word is
not written and WRITE_POISON_DROPPED is set (R1080). -/
def physWrite (s : State) (a : Nat) (data : List Tagged) : State :=
  if data.isEmpty then s else
  let ws := wordsOf a data
  let s := discardPreloads s a (a + data.length - 1)
  match placeOf s a with
  | .cxl d _ =>
    let bad := poisonedLines ws
    let s := ws.foldl (fun s w => if bad.contains (w.1 / 64) then s else writeWord s w.1 w.2.1 false) s
    if bad.isEmpty then s else cxlEvent d 5 s
  | _ =>
    let s := (ws.filter (fun w => !w.2.2)).foldl (fun s w => writeWord s w.1 w.2.1 false) s
    (ws.filter (fun w => w.2.2)).foldl (fun s w => writeWord s w.1 w.2.1 true) s

def untagged (bs : List Byte) : List Tagged := bs.map (fun b => (b, false))
def tagged (bs : List Byte) (p : Bool) : List Tagged := bs.map (fun b => (b, p))
def plain (ts : List Tagged) : List Byte := ts.map (·.1)
def anyPoison (ts : List Tagged) : Bool := ts.any (·.2)

/-! ## Translation (R563 to R582, R1082) -/

/-- A leaf that a walk has reached. -/
structure Leaf where
  /-- base of the page as ADDR gives it -/
  addr : Nat
  bytes : Nat
  target : Nat
  w : Bool
  pin : Bool
  mig : Bool
  /-- local physical address of the leaf entry, and its level -/
  entry : Nat
  level : Nat
  deriving DecidableEq, Repr

/-- An access that is not performed: a fault of R578 with its level, or a page that a migration holds. -/
inductive AccErr where
  | fault (kind level va : Nat)
  | held
  | rejected
  | lost
  deriving DecidableEq, Repr

/-- R569: a local page lies wholly within the stacked, GDDR7 or CXL region, outside the areas of R524 and every hole. -/
def localPage (s : State) (a n : Nat) : Bool :=
  a / 2 ^ 52 = 0 && !reservedArea a n && (
    a + n ≤ Config.stackedSize ||
    (Config.gddrBase ≤ a && a + n ≤ Config.gddrBase + Config.gddrSize && placeOf s a != .hole) ||
    (Config.cxlBase ≤ a && a + n ≤ Config.cxlBase + Config.cxlSize &&
      (List.range (ceilDiv n 0x10000000)).all (fun i => placeOf s (a + i * 0x10000000) != .hole)))

/-- The leaf that an entry word of a level is, with the faults that its content causes (R568, R569). -/
def leafOf (s : State) (entry level : Nat) (e : Nat) : Except (Nat × Nat) Leaf :=
  let size := if level = 2 then 2 ^ 30 else if level = 1 then 2 ^ 21 else 2 ^ 16
  let addr := e / 256 * 256
  let target := bits e 3 2
  if level > 2 ∨ addr % size ≠ 0 then .error (5, level)
  else if target = 3 ∨ (target = 0 ∧ !localPage s addr size) then .error (6, level)
  else .ok { addr := addr, bytes := size, target := target, w := bit e 1, pin := bit e 5, mig := bit e 6,
             entry := entry, level := level }

/-- The index of a virtual address at a level (R566). -/
def levelIndex (va level : Nat) : Nat :=
  if level = 0 then bits va 16 5 else bits va (21 + 9 * (level - 1)) 9

/-- The walk from a table at the first of the levels down (R1082, item 4). -/
def walkLevels (s : State) (va : Nat) : List Nat → Nat → Except (Nat × Nat) Leaf
  | [], _ => .error (5, 0)
  | level :: rest, table =>
    let entry := table + 8 * levelIndex va level
    match wordAt s entry with
    | none => .error (5, level)
    | some (bs, poison) =>
      let e := leNat bs
      if poison then .error (7, level)
      else if !bit e 0 then .error (3, level)
      else if bit e 2 then leafOf s entry level e
      else if level = 0 then .error (5, level)
      else
        let next := e / 256 * 256
        if next % (if level = 1 then 256 else 4096) ≠ 0 ∨ !tablePlace s next then .error (5, level)
        else walkLevels s va rest next

/-- The place of an address space's entry (R565). -/
def asEntry (s : State) (asid : Nat) : Nat := bits s.memc.astabBase.toNat 12 40 * 4096 + 16 * asid

/-- The walk of a virtual address in the order of R1082; a fault is its kind and its level. -/
def walk (s : State) (asid va : Nat) (write : Bool) : Except (Nat × Nat) Leaf :=
  if va ≥ 2 ^ 57 then .error (1, 7)
  else if !s.memc.astabBase.getLsbD 0 ∨ !tablePlace s (asEntry s asid) then .error (2, 7)
  else match wordAt s (asEntry s asid) with
    | none => .error (2, 7)
    | some (bs, poison) =>
      let root := leNat bs
      if poison || (wordAt s (asEntry s asid + 8)).any (·.2) then .error (7, 7)
      else if !bit root 0 then .error (2, 7)
      else if !tablePlace s (bits root 12 40 * 4096) then .error (5, 7)
      else match walkLevels s va [4, 3, 2, 1, 0] (bits root 12 40 * 4096) with
        | .error e => .error e
        | .ok leaf => if write && !leaf.w then .error (4, leaf.level) else .ok leaf

/-- PASID_EN and PASID of an address space (R565, R571). -/
def pasidOf (s : State) (asid : Nat) : Option Nat :=
  match wordAt s (asEntry s asid + 8) with
  | some (bs, _) => if bit (leNat bs) 31 then some (bits (leNat bs) 0 20) else none
  | none => none

/-- The address that a leaf gives a virtual address. -/
def Leaf.at (l : Leaf) (va : Nat) : Nat := l.addr + va % l.bytes

/-- A location as poison names it: a local physical address; a peer's memory and host memory lie above all of them. -/
def peerPlace (s : State) (g : Nat) : Nat := if s.silk.device = some (g / 2 ^ 52) then g % 2 ^ 52 else 2 ^ 64 + g

def Leaf.place (s : State) (l : Leaf) (va : Nat) : Nat :=
  if l.target = 0 then l.at va else if l.target = 1 then peerPlace s (l.at va) else 2 ^ 65 + l.at va

/-- Record a translation fault (R577, R619). -/
def recordFault (asid kind level va source : Nat) (write : Bool) (s : State) : State :=
  let s := memcEvent 6 s
  if s.memc.fault.msb then s else
  { s with memc := { s.memc with
      fault := BitVec.ofNat 64 (asid + kind * 2 ^ 12 + level * 2 ^ 16 + natOfBool write * 2 ^ 19 + source * 2 ^ 32 + 2 ^ 63)
      faultVa := BitVec.ofNat 64 va } }

/-- The status of a launch whose access faulted (R577, R579). -/
def AccErr.status : AccErr → Nat
  | .fault 7 _ _ => 0x301
  | .lost => 0x400
  | _ => 0x300

/-! ## Silk egress and ingress (file 09) -/

/-- The up ports of a device's route, in ascending order (R719, R720). -/
def routePorts (s : State) (dev : Nat) : List Nat :=
  (List.range 12).filter (fun p => (mapGet 0 s.silk.routes dev).getLsbD p && (s.portOf p).up)

/-- The port of a transaction to a device at a global address (R720). -/
def egressPort (s : State) (dev addr : Nat) : Option Nat :=
  let ps := routePorts s dev
  if ps.isEmpty then none else ps[((addr / 4096) ^^^ dev) % 256 % ps.length]?

/-- A transaction to a device cannot be sent and fails as lost (R717, R719, R742). -/
def unreachable (s : State) (dev addr : Nat) : Bool :=
  s.silk.device.isNone || s.silk.lost.contains dev || (egressPort s dev addr).isNone

/-- The windows and refusals of the ingress (R722, R723): addr is a local physical address. -/
def ingressAllows (s : State) (addr n : Nat) (write : Bool) : Bool :=
  n > 0 && (List.range 16).any (fun w =>
    let base := (mapGet 0#64 s.silk.winBase w)
    let limit := (mapGet 0#64 s.silk.winLimit w)
    bits base.toNat 12 40 * 4096 ≤ addr && addr + n ≤ (bits limit.toNat 12 40 + 1) * 4096 &&
      (if write then base.getLsbD 1 else base.getLsbD 0)) &&
  !reservedArea addr n &&
  (List.range ((addr + n - 1) / 4096 - addr / 4096 + 1)).all (fun i =>
    match placeOf s ((addr / 4096 + i) * 4096) with
    | .stacked _ _ _ => true
    | .gddr _ _ => true
    | .cxl _ _ => true
    | _ => false)

/-- Bytes of a peer's memory, or of the own memory through the ingress (R718), at a global address. -/
def peerRead (s : State) (g n : Nat) : Except AccErr (List Tagged) :=
  let dev := g / 2 ^ 52
  if s.silk.device = some dev then
    if ingressAllows s (g % 2 ^ 52) n false then
      match physRead s (g % 2 ^ 52) n with
      | some ts => .ok ts
      | none => .error .rejected
    else .error .rejected
  else if unreachable s dev g then .error .lost
  else .ok ((List.range n).map (fun i =>
    (mapGet (Config.peerByte (g + i)) s.mem.peer (g + i), s.mem.peerPoison.contains ((g + i) / 8))))

/-- The packets of a write of bytes at a global address, at most 1 KiB each (R726). -/
def writePackets (src dev tag g : Nat) (data : List Tagged) : List SilkPkt :=
  let ps := chunks 1024 data
  ps.zipIdx.map (fun e =>
    { typ := 1, vc := 1, src := src, dest := dev, tag := tag, length := e.1.length
      last := e.2 + 1 == ps.length, addr := g + 1024 * e.2, payload := plain e.1 })

/-- Bytes are written to a peer at a global address by a unit that waits for them (R726, R731). -/
def peerWrite (s : State) (g : Nat) (data : List Tagged) : Except AccErr State :=
  let dev := g / 2 ^ 52
  if s.silk.device = some dev then
    if ingressAllows s (g % 2 ^ 52) data.length true then .ok (physWrite s (g % 2 ^ 52) data) else .error .rejected
  else match egressPort s dev g, s.silk.device with
    | some p, some me =>
      if s.silk.lost.contains dev then .error .lost else
      let t : Txn := { tag := s.silk.nextTag, kind := .write, device := dev, port := p, addr := g, bytes := data.length
                       issued := s.now, issuer := .unit, data := plain data, via := routePorts s dev }
      let s := (writePackets me dev t.tag g data).foldl (fun s k => emitSilk p k s) s
      .ok { s with
        silk := { s.silk with nextTag := (t.tag + 1) % 2 ^ 32, txns := s.silk.txns ++ [t] }
        mem := { s.mem with peer := data.zipIdx.foldl (fun m e => mapSet m (g + e.2) e.1.1) s.mem.peer } }
    | _, _ => .error .lost

/-! ## Host memory (R571, R793, R794, R1083) -/

def hostRead (s : State) (a n : Nat) : List Tagged :=
  (List.range n).map (fun i =>
    (mapGet (Config.hostByte (a + i)) s.mem.host (a + i), s.mem.hostPoison.contains ((a + i) / 8)))

/-- A posted write to host memory, with the PASID of its address space (R571); a poisoned word makes it a poisoned TLP
(R1083). -/
def hostWrite (s : State) (asid a : Nat) (data : List Tagged) : State :=
  let p := anyPoison data
  let s := if p then hostEvent 3 s else s
  { s with
    out := s.out ++ [.hostWrite a (plain data) p (pasidOf s asid)]
    mem := { s.mem with host := data.zipIdx.foldl (fun m e => if e.1.2 then mapErase m (a + e.2) else mapSet m (a + e.2) e.1.1) s.mem.host } }

/-! ## Accesses through a virtual address -/

/-- A virtual range cut at 64 KiB boundaries: address and length of each piece. -/
def piecesFuel : Nat → Nat → Nat → List (Nat × Nat)
  | 0, _, _ => []
  | fuel + 1, va, n =>
    if n = 0 then [] else
    let m := min n (0x10000 - va % 0x10000)
    (va, m) :: piecesFuel fuel (va + m) (n - m)

def pieces (va n : Nat) : List (Nat × Nat) := piecesFuel (n / 0x10000 + 2) va n

/-- The bytes behind a leaf. -/
def leafRead (s : State) (l : Leaf) (va n : Nat) : Except AccErr (List Tagged) :=
  if l.target = 0 then
    (match physRead s (l.at va) n with
      | some ts => .ok ts
      | none => .error (.fault 6 l.level va))
  else if l.target = 1 then peerRead s (l.at va) n
  else .ok (hostRead s (l.at va) n)

/-- One piece is read through the leaf that a walk gives. -/
def pieceRead (s : State) (asid va n : Nat) : Except AccErr (List Tagged) :=
  match walk s asid va false with
  | .error e => .error (.fault e.1 e.2 va)
  | .ok l => if l.mig then .error .held else leafRead s l va n

def piecesRead (s : State) (asid : Nat) : List (Nat × Nat) → Except AccErr (List Tagged)
  | [] => .ok []
  | p :: ps =>
    match pieceRead s asid p.1 p.2 with
    | .error e => .error e
    | .ok ts =>
      match piecesRead s asid ps with
      | .error e => .error e
      | .ok us => .ok (ts ++ us)

/-- The bytes at virtual addresses va to va + n - 1 of an address space, with their poison tags. -/
def vaRead (s : State) (asid va n : Nat) : Except AccErr (List Tagged) := piecesRead s asid (pieces va n)

/-- One piece can be written: its leaf, or why not (R577). -/
def pieceWritable (s : State) (asid va : Nat) : Except AccErr Leaf :=
  match walk s asid va true with
  | .error e => .error (.fault e.1 e.2 va)
  | .ok l => if l.mig then .error .held else .ok l

def leafWrite (s : State) (l : Leaf) (asid va : Nat) (data : List Tagged) : Except AccErr State :=
  if l.target = 0 then .ok (physWrite s (l.at va) data)
  else if l.target = 1 then peerWrite s (l.at va) data
  else .ok (hostWrite s asid (l.at va) data)

def piecesWrite (s : State) (asid : Nat) (data : List Tagged) : List (Nat × Nat) → Except AccErr State
  | [] => .ok s
  | p :: ps =>
    match pieceWritable s asid p.1 with
    | .error e => .error e
    | .ok l =>
      match leafWrite s l asid p.1 (data.take p.2) with
      | .error e => .error e
      | .ok s => piecesWrite s asid (data.drop p.2) ps

/-- The first piece of a range that cannot be written. -/
def firstFault (s : State) (asid : Nat) : List (Nat × Nat) → Option AccErr
  | [] => none
  | p :: ps =>
    match pieceWritable s asid p.1 with
    | .error e => some e
    | .ok _ => firstFault s asid ps

/-- Tagged bytes are written at virtual addresses from va on; an access that faults is not performed (R577). -/
def vaWrite (s : State) (asid va : Nat) (data : List Tagged) : Except AccErr State :=
  match firstFault s asid (pieces va data.length) with
  | some e => .error e
  | none => piecesWrite s asid data (pieces va data.length)

/-- The fault of a failed access is recorded (R577). -/
def noteFault (asid source : Nat) (write : Bool) (e : AccErr) (s : State) : State :=
  match e with
  | .fault kind level va => recordFault asid kind level va source write s
  | .rejected => silkEvent 4 s
  | _ => s

/-! ## Locations that fail twice (R591) -/

/-- The key of the word at a place, where R580 finds it bad. -/
def badKey (s : State) (place : Nat) : Option Nat :=
  let found := fun key => if wordCheck s.mem key == .bad then some key else none
  match placeOf s place with
  | .stacked c sl _ => if (redirectSlot s c sl).isNone then found place else none
  | .core c p off => found (Config.coreBase + (c * 64 + p) * Config.coreSize + off)
  | _ => none

/-- The order that answers a location that has failed twice. -/
def twiceOrder (s : State) (place : Nat) : State :=
  match placeOf s place with
  | .stacked c sl _ => sendOrder c (.retireSlice sl none) s
  | .core c p _ => sendOrder c (.fence p none) s
  | _ => s

/-- A word that R580 finds bad has been delivered during a launch: it is noted, and one that was bad before and has been written
with good data since fails twice. -/
def noteBad (id : Nat) (s : State) (place : Nat) : State :=
  match badKey s place with
  | none => s
  | some key =>
    match s.mem.badWords.find? (fun b => b.key = key && b.launch = id) with
    | none => { s with mem := { s.mem with badWords := { key := key, launch := id } :: s.mem.badWords } }
    | some b =>
      if b.rewritten then
        let fresh := s.mem.badWords.map (fun x => if x.key = key && x.launch = id then { x with rewritten := false } else x)
        twiceOrder { s with mem := { s.mem with badWords := fresh } } place
      else s

/-- A range of local memory has been delivered to a reader: its bad words are noted for every launch that runs. A merge into a word
delivers nothing (DEDUCED, log entry 58). -/
def noteDelivered (a n : Nat) (s : State) : State :=
  let places := ((List.range ((a + n + 7) / 8 - a / 8)).map (fun i => 8 * (a / 8 + i))).filter (fun p => (badKey s p).isSome)
  (s.disp.launches.filter (fun l => l.phase == .running)).foldl (fun s l => places.foldl (noteBad l.id) s) s

/-! ## Core memory by logical core (R522, R585) -/

/-- The local physical address of an offset in the window of a logical core. -/
def window (c l off : Nat) : Nat := Config.coreBase + (c * 64 + l) * Config.coreSize + off

def coreRead (s : State) (c l off n : Nat) : List Tagged :=
  (physRead s (window c l off) n).getD (List.replicate n (0, true))

/-- The stacked address of the snapshot slot of a line (R585). -/
def slotAddr (c l line : Nat) : Nat :=
  c * Config.clusterStacked + Config.snapshotOffset + l * Config.coreSize + line * 64

/-- The snapshot logger copies a line before its first write after a step boundary (R585). -/
def logLine (s : State) (c l line : Nat) : State :=
  if (s.cluster c).snap.logged.contains (l, line) then s else
  let s := noteDelivered (window c l (line * 64)) 64 (physWrite s (slotAddr c l line) (coreRead s c l (line * 64) 64))
  s.modCluster c (fun k => { k with snap := { k.snap with logged := k.snap.logged ++ [(l, line)] } })

/-- An operation writes tagged bytes into the core memory of a logical core. -/
def coreWrite (s : State) (c l off : Nat) (data : List Tagged) : State :=
  if data.isEmpty then s else
  let lines := (List.range ((off + data.length - 1) / 64 - off / 64 + 1)).map (fun i => off / 64 + i)
  let words := (List.range ((off + data.length - 1) / 8 - off / 8 + 1)).map (fun i => (l, off / 8 + i))
  let s := (lines.foldl (fun s x => logLine s c l x) s).modCluster c (fun k =>
    { k with snap := { k.snap with written := words.filter (fun w => !k.snap.written.contains w) ++ k.snap.written } })
  physWrite s (window c l off) data

/-! ## Launches -/

def State.launch (s : State) (id : Nat) : Option Launch := s.disp.launches.find? (fun l => l.id == id)

def State.modLaunch (s : State) (id : Nat) (f : Launch → Launch) : State :=
  { s with disp := { s.disp with launches := s.disp.launches.map (fun l => if l.id = id then f l else l) } }

/-- A launch ends with a status; the first error stands (R861). -/
def Launch.stop (st : Nat) (l : Launch) : Launch :=
  if l.phase = .ended then { l with status := if l.status ≤ 2 then (if st ≤ 2 then l.status else st) else l.status }
  else { l with status := if l.status = 0 then st else l.status, phase := .ended }

/-- A launch ends with a status: its clusters do nothing more for it. -/
def stopLaunch (id st : Nat) (s : State) : State := s.modLaunch id (Launch.stop st)

/-- The launch that a cluster runs. -/
def State.runningOn (s : State) (c : Nat) : Option Launch :=
  match (s.cluster c).launch with
  | some id => s.launch id
  | none => none

/-- The step of a cluster is abandoned, on top of what has already abandoned it. -/
def Cluster.abandonWith (k : Cluster) (a : Abandon) : Cluster :=
  { k with abandon := some (match k.abandon with
    | none => a
    | some b => { b with places := b.places ++ a.places, lost := b.lost || a.lost }) }

/-- An engine of a core consumes poisoned words (R583): it abandons its operation; the step waits for STEP_RECOMPUTE. -/
def consumePoison (c l : Nat) (places : List Nat) (s : State) : State :=
  let lost := places.any (lostPlace s)
  let s := coreEvent c l 1 (memcPoison s)
  let s := logEvent 1 c (places.headD 0) l s
  s.modCluster c (fun k => k.abandonWith { core := l, places := places, lost := lost })

/-- The addresses of the poisoned words of a tagged range. -/
def poisonPlaces (a : Nat) (ts : List Tagged) : List Nat :=
  (ts.zipIdx.filter (fun e => e.1.2)).foldr (fun e acc =>
    let w := (a + e.2) / 8 * 8
    if acc.head? = some w then acc else w :: acc) []

/-- Poison that the dispatcher or a cluster controller consumes outside a step ends the launch (R594). -/
def controlPoison (id : Nat) (place : Nat) (s : State) : State :=
  stopLaunch id (if lostPlace s place then 0x400 else 0x301) (logEvent 1 (hubSource 0) place 0 (memcPoison s))

/-- Paced launches started and not completed (R928). -/
def State.paced (s : State) : Nat :=
  (s.disp.launches.filter (fun l => l.started && l.lflags.testBit 1)).length

/-- Launches fetched and not completed of an address space that are Paced or carry a deadline (R606, R611). -/
def State.holdsMigration (s : State) (asid : Nat) : Bool :=
  s.disp.launches.any (fun l => l.asid = asid && (l.lflags.testBit 1 || l.lflags.testBit 2))

end Sys2Proof.Machine
end

