-- ==== Sys2Proof/Machine/EntQueue.lean ====
section
/-! DEFINITION. The queue of generate requests (file 13, R994, R997 to R1000). -/

namespace Sys2Proof.Machine

def Requester.isMantis : Requester → Bool
  | .management => true
  | _ => false

/-- Requests of one requester in the queue. -/
def queuedBy (m : Bool) (q : List GenReq) : Nat := (q.filter (fun r => r.who.isMantis == m)).length

/-- Requests that their requester holds are placed, in order of arrival, while it has places free (R998). -/
def placeWaiting : List GenReq → List GenReq → List GenReq × List GenReq
  | q, [] => (q, [])
  | q, r :: rs =>
    if queuedBy r.who.isMantis q < 32 then placeWaiting (q ++ [r]) rs
    else
      let x := placeWaiting q rs
      (x.1, r :: x.2)

def placeRequests (s : State) : State :=
  let x := placeWaiting s.ent.queue s.ent.waiting
  { s with ent := { s.ent with queue := x.1, waiting := x.2 } }

/-- A generate request meets the state of the source (R1000): the status it completes with at once, or its place. -/
def askEntropy (r : GenReq) (s : State) : Except Nat State :=
  match s.ent.state with
  | .notReady => .error 0x500
  | .fault => .error 0x501
  | .ready => .ok (placeRequests { s with ent := { s.ent with waiting := s.ent.waiting ++ [r] } })

/-- The requests that meet a condition are withdrawn and consume no output (R1002). -/
def withdraw (p : GenReq → Bool) (s : State) : State :=
  placeRequests { s with ent := { s.ent with
    queue := s.ent.queue.filter (fun r => !p r), waiting := s.ent.waiting.filter (fun r => !p r) } }

end Sys2Proof.Machine
end

