-- ==== Sys2Proof/Machine/Translate.lean ====
section
/-! DEFINITION. Translation units (file 07): their cached entries (R572 to R576), page heat (R603), and what an access through
a unit sends out of the device (R570, R571). -/

namespace Sys2Proof.Machine

/-- The translation units besides those of the cluster crossbars, which are 0 to 255: of the dispatcher's memory interface and
of the Silk egress (R572). -/
def dispUnit : Nat := 256
def silkUnit : Nat := 257

/-! ## Cached entries -/

/-- The entry word of a leaf. -/
def leafWord (s : State) (l : Leaf) : Nat := ((wordAt s l.entry).map (fun w => leNat w.1)).getD 0

/-- What a unit has cached for a virtual address. -/
def cachedLeaf (s : State) (unit asid va : Nat) : Option TlbEntry :=
  (mapGet [] s.memc.tlb unit).find? (fun e => e.asid = asid && e.va ≤ va && va < e.va + e.bytes)

/-- A unit caches a translation; it holds 1,024 (R572). -/
def cacheLeaf (unit asid va : Nat) (l : Leaf) (s : State) : State :=
  let old := (mapGet [] s.memc.tlb unit).filter (fun e => !(e.asid = asid && e.va = va / l.bytes * l.bytes))
  let e : TlbEntry := { asid := asid, va := va / l.bytes * l.bytes, bytes := l.bytes, leaf := leafWord s l }
  { s with memc := { s.memc with tlb := mapSet s.memc.tlb unit (e :: old.take 1023) } }

/-- The leaf that a cached entry word gives. -/
def leafOfCached (s : State) (e : TlbEntry) (write : Bool) : Except (Nat × Nat) Leaf :=
  let level := if e.bytes = 2 ^ 30 then 2 else if e.bytes = 2 ^ 21 then 1 else 0
  match leafOf s 0 level e.leaf with
  | .error f => .error f
  | .ok l => if write && !l.w then .error (4, level) else .ok l

/-- A unit translates an address. Where its cached entry differs from the tables it may use either (R575): a free value
decides (DESIGN CHOICE, log entry 11). -/
def translate (unit asid va : Nat) (write : Bool) (s : State) : State × Except (Nat × Nat) Leaf :=
  let fresh := walk s asid va write
  let take := match fresh with
    | .ok l => cacheLeaf unit asid va l s
    | .error _ => s
  match cachedLeaf s unit asid va with
  | none => (take, fresh)
  | some e =>
    let same := match fresh with
      | .ok l => leafWord s l == e.leaf
      | .error _ => false
    if same then (s, fresh)
    else if Config.freeBool s.free then (drawn 1 s, leafOfCached s e write)
    else (drawn 1 take, fresh)

/-! ## Page heat (R603) -/

/-- Transactions of at most 4 KiB that a range makes (R381). -/
def transactions (va n : Nat) : Nat := if n = 0 then 0 else (va + n - 1) / 4096 - va / 4096 + 1

/-- The heat entry of a page gains one; a new page takes the place of the lowest count when 256 are held. -/
def HeatUnit.add (h : HeatUnit) (asid page : Nat) : HeatUnit :=
  if h.entries.any (fun e => e.asid = asid && e.page = page) then
    { h with entries := h.entries.map (fun e => if e.asid = asid && e.page = page then { e with count := e.count + 1 } else e) }
  else if h.entries.length < 256 then { h with entries := h.entries ++ [⟨asid, page, 1⟩] }
  else
    let low := h.entries.foldl (fun b e => min b e.count) ((h.entries.headD ⟨0, 0, 0⟩).count)
    { h with entries := modifyAt h.entries ((findIdx (fun e => decide (e.count = low)) h.entries 0).getD 0) (fun _ => ⟨asid, page, 1⟩) }

/-- A translation unit counts the transactions of a range, every 64th of them as heat. -/
def heatCount (unit asid va n : Nat) (s : State) : State :=
  let h := (List.range (transactions va n)).foldl (fun (h : HeatUnit) i =>
    let h := { h with run := (h.run + 1) % 64 }
    if h.run = 0 then h.add asid ((va / 4096 + i) / 16) else h) (mapGet {} s.memc.heat unit)
  { s with memc := { s.memc with heat := mapSet s.memc.heat unit h } }

/-- An access through a global leaf leaves through the Silk egress, which translates it as well (R570, R572). -/
def throughEgress (asid : Nat) (l : Leaf) (va n : Nat) (s : State) : State :=
  if l.target = 1 then heatCount silkUnit asid va n (cacheLeaf silkUnit asid va l s) else s

/-! ## What a read through a unit does besides delivering data -/

/-- A read request to a peer, answered by the view of its memory and outstanding until its response arrives (R570, R726).
DESIGN CHOICE, log entry 81. -/
def peerAsk (g n : Nat) (s : State) : State :=
  let dev := g / 2 ^ 52
  match egressPort s dev g, s.silk.device with
  | some p, some me =>
    if s.silk.device = some dev || s.silk.lost.contains dev then s else
    let base := g / 64 * 64
    let t : Txn := { tag := s.silk.nextTag, kind := .read, device := dev, port := p, addr := g, bytes := n, issued := s.now
                     issuer := .unit, via := routePorts s dev }
    emitSilk p { typ := 0, vc := 1, src := me, dest := dev, tag := t.tag, length := ceilDiv (g + n) 64 * 64 - base, addr := base }
      { s with silk := { s.silk with nextTag := (t.tag + 1) % 2 ^ 32, txns := s.silk.txns ++ [t] } }
  | _, _ => s

/-- The poisoned 64 B lines that reads of a CXL window deliver are counted (R559). -/
def countCxlPoison (a n : Nat) (s : State) : State :=
  match placeOf s a with
  | .cxl d _ =>
    (List.range (ceilDiv (a + n) 64 - a / 64)).foldl (fun s i =>
      if (wordAt s (64 * (a / 64 + i))).any (·.2) && (s.cxlOf d).state != .lost then cxlCountPoison d s else s) s
  | _ => s

/-- What a read of a range within one page sends out, and the poison that a CXL port counts. -/
def readThrough (asid : Nat) (l : Leaf) (va n : Nat) (s : State) : State :=
  if l.target = 0 then noteDelivered (l.at va) n (countCxlPoison (l.at va) n s)
  else if l.target = 1 then
    (List.range (transactions (l.at va) n)).foldl (fun s i =>
      let lo := max (l.at va) (4096 * (l.at va / 4096 + i))
      let hi := min (l.at va + n) (4096 * (l.at va / 4096 + i) + 4096)
      peerAsk lo (hi - lo) s) s
  else { s with out := s.out ++ [.hostRead (l.at va) n (pasidOf s asid)] }

/-- One piece of an access passes a translation unit: the unit caches its leaf and counts its transactions; a piece of a global
leaf passes that of the Silk egress too. -/
def touchPiece (unit asid : Nat) (write : Bool) (s : State) (p : Nat × Nat) : State :=
  match walk s asid p.1 write with
  | .error _ => s
  | .ok l =>
    if l.mig then s else
    let s := throughEgress asid l p.1 p.2 (heatCount unit asid p.1 p.2 (cacheLeaf unit asid p.1 l s))
    if write then s else readThrough asid l p.1 p.2 s

/-- An access to a virtual range passes a translation unit (R570 to R572, R603). -/
def touch (unit asid va n : Nat) (write : Bool) (s : State) : State := (pieces va n).foldl (touchPiece unit asid write) s

end Sys2Proof.Machine
end

