-- ==== Sys2Proof/Machine/Access.lean ====
section
/-! DEFINITION. Reads and writes of a unit that stops its launch when an access faults or delivers poison: what stopped
it, and what the launch ends with (R577, R594, R1088). -/

namespace Sys2Proof.Machine

/-- Why a unit stops its work. -/
inductive Halt where
  /-- an access that faults, or that a migration holds -/
  | access (write : Bool) (e : AccErr)
  /-- a word read as poison, at a local physical address -/
  | poison (place : Nat)
  /-- a status of R863 -/
  | status (st : Nat)
  /-- a load check of R276: code and image offset -/
  | load (code off : Nat)
  deriving DecidableEq, Repr

/-- The local physical address behind a virtual one, as a read finds it; the virtual address where there is none. -/
def physOfVa (s : State) (asid va : Nat) : Nat :=
  match walk s asid va false with
  | .ok l => l.place s va / 8 * 8
  | .error _ => va

/-- Bytes read at virtual addresses; poison stops the reader. -/
def readVa (s : State) (asid va n : Nat) : Except Halt (List Byte) :=
  match vaRead s asid va n with
  | .error e => .error (.access false e)
  | .ok ts =>
    match findIdx (·.2) ts 0 with
    | some i => .error (.poison (physOfVa s asid (va + i)))
    | none => .ok (plain ts)

/-- Bytes written at virtual addresses through a translation unit. -/
def writeVa (unit : Nat) (s : State) (asid va : Nat) (data : List Byte) : Except Halt State :=
  match vaWrite s asid va (untagged data) with
  | .error e => .error (.access true e)
  | .ok s => .ok (touch unit asid va data.length true s)

/-- Several writes in order. -/
def writeAll (unit : Nat) (s : State) (asid base : Nat) : List (Nat × List Byte) → Except Halt State
  | [] => .ok s
  | w :: ws =>
    match writeVa unit s asid (base + w.1) w.2 with
    | .error h => .error h
    | .ok s => writeAll unit s asid base ws

/-- Ranges from an address on have been read through a translation unit. -/
def touchAll (unit asid base : Nat) (rs : List (Nat × Nat)) (s : State) : State :=
  rs.foldl (fun s r => touch unit asid (base + r.1) r.2 false s) s

/-- The work waits for a page that a migration holds (step 5 of R608). -/
def Halt.waits : Halt → Bool
  | .access _ .held => true
  | _ => false

/-- A launch ends for what stopped one of its units; source is the SOURCE of R619. An access that waits ends nothing. -/
def haltLaunch (id asid source : Nat) (h : Halt) (s : State) : State :=
  match h with
  | .access _ .held => s
  | .access w e => stopLaunch id e.status (noteFault asid source w e s)
  | .poison p => controlPoison id p s
  | .status st => stopLaunch id st s
  | .load _ _ => stopLaunch id 0x204 s

end Sys2Proof.Machine
end

