-- ==== Sys2Proof/Machine/Context.lean ====
section
/-! DEFINITION. The context table (file 03, R281 to R293) and what the end of a run does to an entry (R292, R340). -/

namespace Sys2Proof.Machine

/-- An entry; an unlisted one is FREE with all other fields zero (R285). -/
def State.ctx (s : State) (n : Nat) : Ctx := mapGet {} s.ctxs n

/-- An entry is written whole (R283), into the cache and through it into GDDR7 (R282): its bursts no longer read as poison. An
entry enters the cache when it is written (DESIGN CHOICE, log entry 86). -/
def State.setCtx (s : State) (n : Nat) (c : Ctx) : State :=
  { s with
    ctxs := if c = {} then mapErase s.ctxs n else mapSet s.ctxs n c
    ctxPoison := s.ctxPoison.filter (fun b => b / 4 != n)
    ctxCache := n :: (s.ctxCache.filter (fun k => k != n)).take 4095 }

/-- The local physical address of an entry (R524). -/
def ctxAddr (n : Nat) : Nat := Config.ctxTable + 256 * n

/-- An address of the context table. -/
def inCtxTable (a : Nat) : Bool := Config.ctxTable ≤ a && a < ctxAddr Config.contexts

/-- The channel that holds the context table does not answer (R524, R554). -/
def ctxDead (s : State) : Bool := (s.gdcOf 15).failed.getLsbD 3

/-- An entry reads as poison: the cache does not hold it, and a burst of it reads as poison (R539, R541, R554). -/
def ctxPoisoned (s : State) (n : Nat) : Bool :=
  !s.ctxCache.contains n && (ctxDead s || s.ctxPoison.any (fun b => b / 4 = n))

/-- The code of a context state (R287). -/
def CtxState.code : CtxState → Nat
  | .free => 0
  | .loading => 1
  | .ready => 2
  | .running => 3
  | .paused => 4
  | .failed => 5

/-- The 256 bytes of an entry (R286). -/
def Ctx.image (c : Ctx) : List Byte :=
  putAt (pack 256 [(0x0, 1, c.state.code), (0x1, 1, c.convention), (0x2, 1, c.loadError), (0x3, 1, wrap 8 c.qexp),
    (0x4, 2, c.asid), (0x6, 1, c.replicas), (0x7, 1, c.flags), (0x8, 8, c.imageVa), (0x10, 8, c.imageSize),
    (0x18, 8, c.nvars), (0x20, 4, c.blocks), (0x24, 4, c.groups), (0x28, 4, c.links), (0x2C, 2, c.colours),
    (0x2E, 2, c.stages), (0x30, 8, c.couplings), (0x38, 8, c.errorOffset), (0x40, 16, wrap 128 c.energyOffset),
    (0x80, 8, c.stateVa), (0x88, 8, c.checkpointVa), (0x90, 4, c.loadGen), (0x98, 8, c.loadCricket), (0xA0, 8, c.runs),
    (0xA8, 16, wrap 128 c.bestEnergy)]) 0x50 (c.coeffRoot ++ List.replicate (48 - c.coeffRoot.length) 0)

/-- The entry names an address space: it has been loaded and not released. -/
def Ctx.owned (c : Ctx) : Bool := c.state != .free

/-- A context that reads as poison stops its reader (R594). -/
def readCtx (s : State) (n : Nat) : Except Halt Ctx :=
  if ctxPoisoned s n then .error (.poison (ctxAddr n)) else .ok (s.ctx n)

/-- A context of another address space (R288). -/
def foreign (c : Ctx) (asid : Nat) : Bool := c.owned && c.asid != asid

/-- The lowest best energy of the replicas (R340). -/
def lowestBest (start : Int) (rs : List Replica) : Int := rs.foldl (fun b r => min b r.bestEnergy) start

/-- A run ends in error: its context returns to READY and keeps its checkpoint and BEST_ENERGY (R292, R340). -/
def failRun (n : Nat) (s : State) : State :=
  let c := s.ctx n
  if c.state = .running then s.setCtx n { c with state := .ready, runs := (c.runs + 1) % 2 ^ 64 } else s

/-- A run ends normally (R340). -/
def endRun (n : Nat) (rs : List Replica) (s : State) : State :=
  let c := s.ctx n
  s.setCtx n { c with state := .ready, runs := (c.runs + 1) % 2 ^ 64, bestEnergy := lowestBest c.bestEnergy rs }

/-- A run pauses (R340). -/
def pauseRun (n : Nat) (rs : List Replica) (s : State) : State :=
  let c := s.ctx n
  s.setCtx n { c with state := .paused, bestEnergy := lowestBest c.bestEnergy rs }

def State.run (s : State) (n : Nat) : Option Run := mapFind s.runs n
def State.setRun (s : State) (n : Nat) (r : Run) : State := { s with runs := mapSet s.runs n r }
def State.modRun (s : State) (n : Nat) (f : Run → Run) : State :=
  match s.run n with
  | some r => s.setRun n (f r)
  | none => s

end Sys2Proof.Machine
end

