-- ==== Sys2Proof/Machine/Num.lean ====
section
/-! DEFINITION. Numbers (file 02): exact values, the formats and their rounding, the quantiser, products and chunks, and
the long accumulator with its drain. -/

namespace Sys2Proof.Machine

/-! ## Exact values -/

/-- An exact value: a NaN, an infinity, or (-1)^neg * m * 2^e; a zero keeps its sign (R152, R176). -/
inductive Val where
  | nan
  | inf (neg : Bool)
  | fin (neg : Bool) (m : Nat) (e : Int)
  deriving DecidableEq, Repr

def Val.ofInt (i : Int) (e : Int) : Val := .fin (i < 0) i.natAbs e
def Val.zero : Val := .fin false 0 0

def Val.isNan : Val → Bool
  | .nan => true
  | _ => false

def Val.isInf : Val → Bool
  | .inf _ => true
  | _ => false

def Val.isFin : Val → Bool
  | .fin _ _ _ => true
  | _ => false

def Val.neg? : Val → Bool
  | .nan => false
  | .inf n => n
  | .fin n _ _ => n

def Val.negate : Val → Val
  | .nan => .nan
  | .inf n => .inf (!n)
  | .fin n m e => .fin (!n) m e

def Val.absolute : Val → Val
  | .nan => .nan
  | .inf _ => .inf false
  | .fin _ m e => .fin false m e

def Val.isZero : Val → Bool
  | .fin _ 0 _ => true
  | _ => false

/-- A value of integer arithmetic: its zero has no sign (R176). -/
def Val.unsigned0 : Val → Val
  | .fin _ 0 e => .fin false 0 e
  | v => v

/-- m * 2^e as an integer over a lower exponent. -/
def scaled (neg : Bool) (m : Nat) (e low : Int) : Int :=
  let v : Int := (m * 2 ^ (e - low).toNat : Nat)
  if neg then -v else v

/-- The exact sum; inf - inf is NaN; an exact zero of two summands is +0 unless both are -0 (IEEE 754, PRESUMED, log entry 14). -/
def Val.add : Val → Val → Val
  | .nan, _ => .nan
  | _, .nan => .nan
  | .inf a, .inf b => if a = b then .inf a else .nan
  | .inf a, _ => .inf a
  | _, .inf b => .inf b
  | .fin n 0 e, .fin n' 0 _ => .fin (n && n') 0 e
  | .fin _ 0 _, .fin n' m' e' => .fin n' m' e'
  | .fin n m e, .fin _ 0 _ => .fin n m e
  | .fin n m e, .fin n' m' e' =>
    let low := min e e'
    let v := scaled n m e low + scaled n' m' e' low
    .fin (v < 0) v.natAbs low

/-- The exact product; 0 * inf is NaN (IEEE 754, PRESUMED, log entry 14). -/
def Val.mul : Val → Val → Val
  | .nan, _ => .nan
  | _, .nan => .nan
  | .inf a, .inf b => .inf (a != b)
  | .inf a, .fin n m _ => if m = 0 then .nan else .inf (a != n)
  | .fin n m _, .inf b => if m = 0 then .nan else .inf (n != b)
  | .fin n m e, .fin n' m' e' => .fin (n != n') (m * m') (e + e')

/-- a < b for values that are no NaN. -/
def Val.lt : Val → Val → Bool
  | .inf a, .inf b => a && !b
  | .inf a, _ => a
  | _, .inf b => !b
  | .fin n m e, .fin n' m' e' =>
    let low := min e e'
    scaled n m e low < scaled n' m' e' low
  | _, _ => false

/-- Equal as numbers: both zeros are equal. -/
def Val.eqv : Val → Val → Bool
  | .nan, _ => false
  | _, .nan => false
  | a, b => !a.lt b && !b.lt a

/-! ## Rounding (R172) -/

/-- m / 2^k rounded to an integer by a mode: 0 RNE, 1 RTZ, 2 RDN, 3 RUP; neg is the sign of the value. -/
def roundShift (mode : Nat) (neg : Bool) (m k : Nat) : Nat :=
  let away : Bool := (mode = 2 && neg) || (mode = 3 && !neg)
  if m = 0 then 0
  else if Nat.log2 m + 2 < k then (if away then 1 else 0)
  else
    let q := m / 2 ^ k
    let r := m % 2 ^ k
    if mode = 0 then (if 2 ^ k < 2 * r ∨ (2 * r = 2 ^ k ∧ q % 2 = 1) then q + 1 else q)
    else if away && 0 < r then q + 1 else q

/-- m * 2^e rounded to a multiple of 2^q, as the multiple. -/
def roundAt (mode : Nat) (neg : Bool) (m : Nat) (e q : Int) : Nat :=
  if q ≤ e then m * 2 ^ (e - q).toNat else roundShift mode neg m (q - e).toNat

/-- The nearest integer to m * 2^e with its sign. -/
def roundInt (mode : Nat) (neg : Bool) (m : Nat) (e : Int) : Int :=
  let n : Int := roundAt mode neg m e 0
  if neg then -n else n

/-! ## Floating-point formats (R152 to R158) -/

structure FloatFormat where
  ebits : Nat
  tbits : Nat
  bias : Nat
  /-- encoding of the largest finite value with S = 0 -/
  largest : Nat
  /-- encoding of the infinity, where the format has one -/
  infinity : Option Nat
  nan : Nat
  deriving DecidableEq, Repr

def fp32 : FloatFormat := ⟨8, 23, 127, 0x7F7FFFFF, some 0x7F800000, 0x7FC00000⟩
def fp16 : FloatFormat := ⟨5, 10, 15, 0x7BFF, some 0x7C00, 0x7E00⟩
def bf16 : FloatFormat := ⟨8, 7, 127, 0x7F7F, some 0x7F80, 0x7FC0⟩
def e4m3 : FloatFormat := ⟨4, 3, 7, 0x7E, none, 0x7F⟩
def e5m2 : FloatFormat := ⟨5, 2, 15, 0x7B, some 0x7C, 0x7E⟩
def fp64 : FloatFormat := ⟨11, 52, 1023, 0x7FEFFFFFFFFFFFFF, some 0x7FF0000000000000, 0x7FF8000000000000⟩

/-- The value of an encoding (R152, R155, R156). -/
def FloatFormat.decode (f : FloatFormat) (w : Nat) : Val :=
  let neg := bit w (f.ebits + f.tbits)
  let mag := w % 2 ^ (f.ebits + f.tbits)
  if mag ≤ f.largest then
    let ex := mag / 2 ^ f.tbits
    let t := mag % 2 ^ f.tbits
    if ex = 0 then .fin neg t (1 - (f.bias : Int) - f.tbits)
    else .fin neg (2 ^ f.tbits + t) ((ex : Int) - f.bias - f.tbits)
  else if f.infinity = some mag then .inf neg
  else .nan

def FloatFormat.signed (f : FloatFormat) (neg : Bool) (mag : Nat) : Nat :=
  if neg then mag + 2 ^ (f.ebits + f.tbits) else mag

/-- A rounded encoding of a finite nonzero value, or none when it lies above the largest finite magnitude (R173, R174). -/
def FloatFormat.roundMag (f : FloatFormat) (mode : Nat) (neg : Bool) (m : Nat) (e : Int) : Option Nat :=
  let top : Int := (Nat.log2 m : Int) + e
  let qmin : Int := 1 - (f.bias : Int) - f.tbits
  if (f.bias : Int) + 2 < top then none else
  let q := max (top - f.tbits) qmin
  let n := roundAt mode neg m e q
  let enc := if n = 0 then 0 else (q - qmin + 1).toNat * 2 ^ f.tbits + n - 2 ^ f.tbits
  if enc ≤ f.largest then some enc else none

/-- Conversion to a floating-point format: encoding and saturation (R173 to R177). -/
def FloatFormat.encode (f : FloatFormat) (mode : Nat) : Val → Nat × Bool
  | .nan => (f.nan, false)
  | .inf neg => match f.infinity with
    | some x => (f.signed neg x, false)
    | none => (f.signed neg f.largest, true)
  | .fin neg 0 _ => (f.signed neg 0, false)
  | .fin neg m e => match f.roundMag mode neg m e with
    | some x => (f.signed neg x, false)
    | none => (f.signed neg f.largest, true)

/-- Rounding to a format by IEEE 754 with RNE: a value above the range becomes an infinity (R184, R212). -/
def FloatFormat.ieee (f : FloatFormat) : Val → Nat
  | .fin neg (m + 1) e => match f.roundMag 0 neg (m + 1) e with
    | some x => f.signed neg x
    | none => f.signed neg (f.infinity.getD f.largest)
  | v => (f.encode 0 v).1

/-- Conversion to an integer format of w bits: value and saturation (R175, R177). -/
def intEncode (w mode : Nat) : Val → Int × Bool
  | .nan => (0, true)
  | .inf neg => (if neg then -(2 ^ (w - 1)) else 2 ^ (w - 1) - 1, true)
  | .fin neg m e =>
    let top : Int := (Nat.log2 m : Int) + e
    if m ≠ 0 ∧ (w : Int) < top then (if neg then -(2 ^ (w - 1)) else 2 ^ (w - 1) - 1, true) else
    let v := roundInt mode neg m e
    if v < -(2 ^ (w - 1)) then (-(2 ^ (w - 1)), true)
    else if 2 ^ (w - 1) - 1 < v then (2 ^ (w - 1) - 1, true)
    else (v, false)

/-! ## Format codes (R150) -/

def floatFormat : Nat → Option FloatFormat
  | 0 => some fp32
  | 1 => some fp16
  | 2 => some bf16
  | 3 => some e4m3
  | 4 => some e5m2
  | 9 => some fp64
  | _ => none

def isFloat (fmt : Nat) : Bool := fmt ≤ 4
def isInteger (fmt : Nat) : Bool := 5 ≤ fmt && fmt ≤ 8

/-- Bits of an element of a format: 4 for INT4 and BS4. -/
def elementBits : Nat → Nat
  | 0 => 32
  | 1 => 16
  | 2 => 16
  | 3 => 8
  | 4 => 8
  | 5 => 8
  | 6 => 4
  | 7 => 4
  | 8 => 32
  | 9 => 64
  | 10 => 256
  | _ => 0

/-- The value of an element of a format with the exponent byte of its group, 127 without a plane (R160, R165, R166). -/
def elementValue (fmt w scale : Nat) : Val :=
  match floatFormat fmt with
  | some f => f.decode w
  | none => if scale = 0xFF then .nan else Val.ofInt (sext (elementBits fmt) w) ((scale : Int) - 127)

/-- Conversion to a format without an exponent plane: encoding and saturation (R173 to R177). -/
def convert (fmt mode : Nat) (v : Val) : Nat × Bool :=
  match floatFormat fmt with
  | some f => f.encode mode v
  | none => let r := intEncode (elementBits fmt) mode v; (wrap (elementBits fmt) r.1, r.2)

/-- Rounding of a float operation to FP32 by RNE (R216). -/
def toFp32 (v : Val) : Val × Bool := let r := fp32.encode 0 v; (fp32.decode r.1, r.2)

/-! ## The quantiser (R169) -/

/-- The greater of two finite magnitudes. -/
def largerMag (a b : Val) : Val := if a.lt b then b else a

/-- Smallest integer s with a < (M + 0.5) * 2^s, for a value that is not zero. -/
def quantScale (w : Nat) (a : Val) : Int :=
  match a with
  | .fin _ m e =>
    let top : Int := (Nat.log2 m : Int) + e
    let s := top - w + 2
    if a.lt (.fin false (2 ^ w - 1) (s - 1)) then s else s + 1
  | _ => 0

/-- One element of a group at scale 2^s: content and saturation. -/
def quantElement (w : Nat) (s : Int) (x : Val) : Int × Bool :=
  let M : Int := 2 ^ (w - 1) - 1
  match x with
  | .nan => (0, true)
  | .inf neg => (if neg then -M else M, true)
  | .fin neg m e =>
    let q := roundInt 0 neg m (e - s)
    if M < q then (M, true) else if q < -M then (-M, true) else (q, false)

/-- The quantiser of R169: exponent byte, contents and saturation. -/
def quantise (xs : List Val) (w : Nat) (smin : Int) : Nat × List Int × Bool :=
  if xs.any Val.isNan then (0xFF, xs.map (fun _ => 0), true) else
  let a := (xs.filter Val.isFin).foldl (fun a x => largerMag a x.absolute) Val.zero
  let s := if a.isZero then -127 else quantScale w a
  let s := max (max s smin) (-127)
  let high : Bool := 127 < s
  let s := min s 127
  let es := xs.map (quantElement w s)
  ((s + 127).toNat, es.map (·.1), high || es.any (·.2))

/-! ## Products and chunks (R179 to R186) -/

/-- IEEE 754 fusedMultiplyAdd in binary32 with RNE and canonical NaN (R184). -/
def fma32 (a b : Val) (s : BitVec 32) : BitVec 32 :=
  BitVec.ofNat 32 (fp32.ieee ((a.mul b).add (fp32.decode s.toNat)))

/-- A product as the array takes it: float operands, or integer contents with the sum of their scale exponents; bad marks
an operand from an invalid group (R185, R186). -/
inductive Product where
  | float (a b : Val)
  | int (p : Int) (e : Int) (bad : Bool)
  deriving DecidableEq, Repr

def Product.isFloat : Product → Bool
  | .float _ _ => true
  | .int _ _ _ => false

/-- m * 2^e added to n * 2^f, over the lower exponent. -/
def addDyadic (m e n f : Int) : Int × Int :=
  let low := min e f
  (m * 2 ^ (e - low).toNat + n * 2 ^ (f - low).toNat, low)

/-- A product joins a chunk of its own family (R184, R185). -/
def Chunk.push (c : Chunk) : Product → Chunk
  | .float a b => { c with fsum := fma32 a b c.fsum }
  | .int p e bad =>
    let r := addDyadic c.im c.ie p e
    { c with im := if p = 0 then c.im else r.1, ie := if p = 0 then c.ie else r.2, inan := c.inan || bad }

/-- The value of a chunk as it closes. -/
def Chunk.value (c : Chunk) : Val :=
  if c.isFloat then fp32.decode c.fsum.toNat else if c.inan then .nan else Val.ofInt c.im c.ie

/-! ## The long accumulator (R188 to R197) -/

def flagPINF : BitVec 8 := 0x01#8
def flagNINF : BitVec 8 := 0x02#8
def flagPOVR : BitVec 8 := 0x04#8
def flagNOVR : BitVec 8 := 0x08#8
def flagNAN : BitVec 8 := 0x10#8
def flagCNT : BitVec 8 := 0x20#8
def flagMIX : BitVec 8 := 0x40#8

def Wide.flag (w : Wide) (f : BitVec 8) : Bool := w.flags &&& f != 0

/-- One closed chunk contributes to an element with binary point F (R192). -/
def contribute (F : Int) (w : Wide) (v : Val) : Wide :=
  let w := if w.n = 0xFFFFFFFF#32 then { w with flags := w.flags ||| flagCNT } else { w with n := w.n + 1 }
  match v with
  | .nan => { w with flags := w.flags ||| flagNAN }
  | .inf false => { w with flags := w.flags ||| flagPINF }
  | .inf true => { w with flags := w.flags ||| flagNINF }
  | .fin neg m e =>
    let t := roundInt 0 neg m (e + F)
    if 2 ^ 127 ≤ t then { w with flags := w.flags ||| flagPOVR }
    else if t ≤ -(2 ^ 127) then { w with flags := w.flags ||| flagNOVR }
    else { w with v := w.v + BitVec.ofInt 160 t }

/-- Two records of equal binary point combine (R194). -/
def combine (a b : Wide) : Wide :=
  let n := a.n.toNat + b.n.toNat
  { v := a.v + b.v
    n := if 0xFFFFFFFF < n then 0xFFFFFFFF#32 else BitVec.ofNat 32 n
    flags := a.flags ||| b.flags ||| (if 0xFFFFFFFF < n then flagCNT else 0) }

/-- A record combines into a receiving tile of binary point F (R194, R195). -/
def combineInto (F : Int) (a : Wide) (r : WideRec) : Wide :=
  if r.f = F then combine a r.w else { combine a r.w with v := 0, flags := (combine a r.w).flags ||| flagMIX }

/-- The 32 bytes of a wide partial record (R189). -/
def wideBytes (r : WideRec) : List Byte :=
  leBytes 20 r.w.v.toNat ++ leBytes 4 r.w.n.toNat ++ [r.w.flags, BitVec.ofInt 8 r.f] ++ List.replicate 6 0#8

/-- A wide partial record from its bytes; bit 7 of FLAGS is reserved and ignored (R35). -/
def wideOf (bs : List Byte) : WideRec :=
  { w := { v := BitVec.ofNat 160 (fieldAt bs 0 20), n := BitVec.ofNat 32 (fieldAt bs 0x14 4)
           flags := BitVec.ofNat 8 (fieldAt bs 0x18 1 % 128) }
    f := fieldInt bs 0x19 1 }

/-- The value V * 2^-F of a record. -/
def Wide.value (w : Wide) (F : Int) : Val := Val.ofInt w.v.toInt (-F)

/-- The end of the range of a drain output, with a sign, as bits (R205). -/
def rangeEnd (fmt : Nat) (neg : Bool) : Nat :=
  match floatFormat fmt with
  | some f => f.signed neg f.largest
  | none => wrap (elementBits fmt) (if neg then -(2 ^ (elementBits fmt - 1)) else 2 ^ (elementBits fmt - 1) - 1)

/-- A drained element as bits of its output format, and whether it sets TILE_SAT (R205).
DEDUCED, log entry 87: a nonzero negative sum that rounds to zero gives −0; only a sum of zero gives +0 (R176). -/
def drainElement (fmt mode : Nat) (shift F : Int) (w : Wide) : Nat × Bool :=
  let p := w.flag flagPINF || w.flag flagPOVR
  let n := w.flag flagNINF || w.flag flagNOVR
  let float := isFloat fmt
  let nanBits := match floatFormat fmt with
    | some f => f.nan
    | none => 0
  if w.flag flagMIX || (p && n) then (nanBits, true)
  else if w.flag flagNAN then (nanBits, !float)
  else if w.flag flagCNT then (rangeEnd fmt (w.v.toInt < 0), true)
  else if w.flag flagPINF || w.flag flagNINF then
    (match floatFormat fmt with
      | some f => f.encode mode (.inf n)
      | none => (rangeEnd fmt n, true))
  else if p || n then (rangeEnd fmt n, true)
  else convert fmt mode (Val.ofInt w.v.toInt (shift - F))

/-! ## Chunks of an element (R183) -/

/-- The open chunk closes and contributes. -/
def Elem.close (F : Int) (x : Elem) : Elem :=
  match x.chunk with
  | some c => { wide := contribute F x.wide c.value, chunk := none }
  | none => x

/-- A product of reduction index k enters an element (R181 to R183). -/
def Elem.push (F : Int) (x : Elem) (k : Nat) (p : Product) : Elem :=
  let j := k / 64
  let x := match x.chunk with
    | some c => if c.j = j && c.isFloat == p.isFloat then x else x.close F
    | none => x
  let c := (x.chunk.getD { j := j, isFloat := p.isFloat }).push p
  let x := { x with chunk := some c }
  if k % 64 = 63 then x.close F else x

def Tile.el (t : Tile) (i : Nat) : Elem := mapGet {} t.els i

/-- Every open chunk of a tile closes (a drain token, or an operation with CLOSE; R183, R199). -/
def Tile.close (t : Tile) : Tile := { t with els := t.els.map (fun e => (e.1, e.2.close t.f)) }

/-- V, N and FLAGS of every element back to zero; F stays (R201). -/
def Tile.zero (t : Tile) : Tile := { t with els := [] }

/-- The record of an element as it is read. -/
def Tile.wide (t : Tile) (i : Nat) : WideRec := { w := (t.el i).wide, f := t.f }

/-! ## Open order (R212) -/

/-- A record converted to FP64 by RNE, its flags first (R654). -/
def toF64 (r : WideRec) : BitVec 64 :=
  let w := r.w
  let p := w.flag flagPINF || w.flag flagPOVR
  let n := w.flag flagNINF || w.flag flagNOVR
  BitVec.ofNat 64 (
    if w.flag flagMIX || w.flag flagNAN || (p && n) then fp64.nan
    else if p then fp64.ieee (.inf false)
    else if n then fp64.ieee (.inf true)
    else fp64.ieee (w.value r.f))

/-- Binary64 addition with RNE. -/
def addF64 (a b : BitVec 64) : BitVec 64 := BitVec.ofNat 64 (fp64.ieee ((fp64.decode a.toNat).add (fp64.decode b.toNat)))

end Sys2Proof.Machine
end

