-- ==== Sys2Proof/Machine/Network.lean ====
section
/-! DEFINITION. The on-chip network (file 08): header flits, routes, router FIFOs, the order in which inputs are admitted,
in-network reduction, multicast branches, and packets that fail parity. -/

namespace Sys2Proof.Machine

/-! ## Routers and their outputs (R632 to R637) -/

inductive RNode where
  | core (c p : Nat)
  | clu (c : Nat)
  | bridge (d : Nat)
  | hub
  deriving DecidableEq, Repr

/-- FIFO number of an output of a router and a virtual channel (DESIGN CHOICE, log entry 21). -/
def fifoNum : RNode → Nat → Nat → Nat
  | .core c p, o, v => 996 * c + 15 * p + 3 * o + v
  | .clu c, o, v => 996 * c + 960 + 3 * o + v
  | .bridge d, o, v => 254976 + 15 * d + 3 * o + v
  | .hub, o, v => 255036 + 3 * o + v

/-- The router, output and channel of a FIFO number; none for a router port. -/
def fifoOwner (n : Nat) : Option (RNode × Nat × Nat) :=
  if n < 254976 then
    let k := n % 996
    if k < 960 then some (.core (n / 996) (k / 15), k % 15 / 3, k % 3)
    else some (.clu (n / 996), (k - 960) / 3, (k - 960) % 3)
  else if n < 255036 then some (.bridge ((n - 254976) / 15), (n - 254976) % 15 / 3, (n - 254976) % 3)
  else if n < 255102 then some (.hub, (n - 255036) / 3, (n - 255036) % 3)
  else none

/-- The virtual channel of a FIFO or a router port: 0 control, 1 request, 2 response (R641, R694). -/
def fifoVc (n : Nat) : Nat := n % 3

/-- The local cluster number of the attach cluster of GDDR7 controller q (R121). -/
def gddrCluster (q : Nat) : Nat := if q % 4 = 0 then 16 else if q % 4 = 1 then 40 else if q % 4 = 2 then 2 else 5

/-- The attach cluster of a GDDR7 controller. -/
def gddrAttach (q : Nat) : Nat := 64 * (q / 4) + gddrCluster q

/-- The attach clusters of a bridge in the order of R635, by local cluster number. -/
def attachClusters : List Nat := [39, 55, 60, 62]

/-- The index of the attach cluster nearest a cluster (R124, R635). -/
def nearestAttach (c : Nat) : Nat :=
  ((List.range 4).foldl (fun (best : Nat × Nat) i =>
    let d := gridDistance (c % 64) ((attachClusters[i]?).getD 0)
    if d < best.2 then (i, d) else best) (0, 1000)).1

/-- The entry positions of a cluster's core grid in output order (R634).
DEDUCED, log entry 26: packets between dies enter at the nearest entry position, the lowest of equals. -/
def entryPositions : List Nat := [27, 28, 35, 36]

/-- The index of the entry position nearest a position, ties to the lowest (R635). -/
def nearestEntry (p : Nat) : Nat :=
  ((List.range 4).foldl (fun (best : Nat × Nat) i =>
    let d := gridDistance p ((entryPositions[i]?).getD 0)
    if d < best.2 then (i, d) else best) (0, 1000)).1

/-- The output of an 8 x 8 grid toward a position, x first: 0 north, 1 east, 2 south, 3 west, 4 here. -/
def gridToward (p q : Nat) : Nat :=
  if p % 8 < q % 8 then 1 else if q % 8 < p % 8 then 3 else if p / 8 < q / 8 then 0 else if q / 8 < p / 8 then 2 else 4

/-- The position one hop on. -/
def gridHop (p o : Nat) : Nat :=
  if o = 0 then p + 8 else if o = 1 then p + 1 else if o = 2 then p - 8 else p - 1

/-- A packet ends at a unit of a cluster's core grid. -/
def Pkt.toCores (p : Pkt) : Bool := p.destUnit == .core

/-- The output of a cluster router for a packet that leaves its die at the attach cluster nearest its source (R124). -/
def exitToward (c src : Nat) : Nat :=
  let exit := (attachClusters[nearestAttach src]?).getD 0
  if c % 64 = exit then 11 else gridToward (c % 64) exit

/-- The output of a cluster router for a packet to cluster t, which lies elsewhere. -/
def clusterToward (c src t : Nat) : Nat :=
  if t / 64 = c / 64 then gridToward (c % 64) (t % 64) else exitToward c src

/-- The physical position of a logical index of a cluster (R637); an unbacked index keeps its home position. -/
def physOf (s : State) (c l : Nat) : Nat := ((s.cluster c).phys l).getD l

/-- A hop: the router output taken, and the target as the packet names it from there on. -/
structure Hop where
  node : RNode
  out : Nat
  target : Nat
  /-- the target is a physical position from here on (R637) -/
  resolved : Bool
  deriving DecidableEq, Repr

/-- The hop out of a cluster router toward a target core. -/
def cluHop (s : State) (c : Nat) (k : Pkt) (t : Nat) : Hop :=
  if t / 64 = c then
    let q := if k.phys.isSome then t % 64 else physOf s c (t % 64)
    ⟨.clu c, 4 + nearestEntry q, 64 * c + q, true⟩
  else ⟨.clu c, clusterToward c k.srcCluster (t / 64), t, k.phys.isSome⟩

/-- The hop out of a router toward a target core (R635, R636, R662). -/
def hopTo (s : State) (node : RNode) (k : Pkt) (lowest t : Nat) : Hop :=
  match node with
  | .core c p =>
    if t / 64 = c && k.phys.isSome then ⟨.core c p, gridToward p (t % 64), t, true⟩
    else if t / 64 = c && k.typ != 5 then
      let q := physOf s c (t % 64)
      ⟨.core c p, gridToward p q, 64 * c + q, true⟩
    else
      let e := (entryPositions[nearestEntry p]?).getD 0
      if p = e then cluHop s c k t else ⟨.core c p, gridToward p e, t, false⟩
  | .clu c => cluHop s c k t
  | .bridge d => if t / 4096 = d then ⟨.bridge d, 1 + nearestAttach (lowest / 64), t, k.phys.isSome⟩ else ⟨.bridge d, 0, t, k.phys.isSome⟩
  | .hub => ⟨.hub, 18 + t / 4096, t, k.phys.isSome⟩

/-- The hop of a packet to a unit on a cluster router or to a hub unit, which is an output of the hub crossbar (R638, R642). -/
def hopUnit (node : RNode) (k : Pkt) : Hop :=
  let c' := k.destCluster
  let hub := k.destUnit == .hub
  let unit := if k.destUnit == .controller then 8 else if k.destUnit == .node then 9 else if k.destUnit == .crossbar then 10 else 11
  let clu := fun c => if hub then exitToward c k.srcCluster else if c = c' then unit else clusterToward c k.srcCluster c'
  match node with
  | .core c p =>
    let e := (entryPositions[nearestEntry p]?).getD 0
    if p = e then ⟨.clu c, clu c, 0, false⟩ else ⟨.core c p, gridToward p e, 0, false⟩
  | .clu c => ⟨.clu c, clu c, 0, false⟩
  | .bridge d => if !hub && c' / 64 = d then ⟨.bridge d, 1 + nearestAttach c', 0, false⟩ else ⟨.bridge d, 0, 0, false⟩
  | .hub => ⟨.hub, if hub then k.destIndex else 18 + c' / 64, 0, false⟩

/-- The copies that a packet sends into the outputs of a router: FIFO number and packet (R662). -/
def branches (s : State) (node : RNode) (k : Pkt) : List (Nat × Pkt) :=
  if k.toCores then
    let inDie := match node with
      | .bridge d => k.targets.filter (fun t => t / 4096 = d)
      | _ => k.targets
    let lowest := inDie.foldl min (inDie.headD 0)
    let hops := k.targets.map (hopTo s node k lowest)
    let outs := (hops.map (fun h => fifoNum h.node h.out k.vc)).foldl setInsert []
    outs.map (fun n =>
      let hs := hops.filter (fun h => fifoNum h.node h.out k.vc = n)
      (n, { k with targets := hs.map (·.target), phys := if hs.any (·.resolved) then some 0 else k.phys }))
  else
    let h := hopUnit node k
    [(fifoNum h.node h.out k.vc, k)]

/-- What lies behind an output: the next router, or a unit. -/
def behind : RNode → Nat → Option RNode
  | .core c p, o => if o = 4 then none else some (.core c (gridHop p o))
  | .clu c, o =>
    if o ≤ 3 then some (.clu (c / 64 * 64 + gridHop (c % 64) o))
    else if o ≤ 7 then some (.core c ((entryPositions[o - 4]?).getD 0))
    else if o = 11 && attachClusters.contains (c % 64) then some (.bridge (c / 64))
    else none
  | .bridge d, o => if o = 0 then some .hub else some (.clu (64 * d + (attachClusters[o - 1]?).getD 0))
  | .hub, o => if 18 ≤ o then some (.bridge (o - 18)) else none

/-- The router that takes the packets of a FIFO or a router port; none where a unit takes them. -/
def takenBy (n : Nat) : Option RNode :=
  match fifoOwner n with
  | some (node, o, _) => behind node o
  | none =>
    if n < 304254 then some (.core ((n - 255102) / 192) ((n - 255102) / 3 % 64))
    else if n < 305022 then some (.clu ((n - 304254) / 3))
    else if n < 305790 then some (.clu ((n - 305022) / 3))
    else if n < 306558 then some (.clu ((n - 305790) / 3))
    else if n < 306606 then some (.clu (gddrAttach ((n - 306558) / 3)))
    else some .hub

/-! ## FIFOs (R645, R646, R677, R686) -/

def fifoFlits (ps : List Pkt) : Nat := (ps.map (·.flits)).sum

/-- A FIFO has room for a packet: 68 flits in a router FIFO (R645); a router port holds what its engine wants to send. -/
def hasRoom (s : State) (n : Nat) (k : Pkt) : Bool :=
  255102 ≤ n || fifoFlits (s.fifo n) + k.flits ≤ 68

/-- It is the FIFO's turn at its output (R646): control first, then response and request alternately. -/
def itsTurn (s : State) (n : Nat) : Bool :=
  if 255102 ≤ n then true else
  let base := n / 3 * 3
  let v := n % 3
  if v = 0 then true
  else if !(s.fifo base).isEmpty then false
  else
    let other := if v = 1 then base + 2 else base + 1
    (s.fifo other).isEmpty || (mapGet true s.net.turn (n / 3) == (v == 2))

/-- The first packet of a FIFO leaves it; the other channel has the next turn (R646). -/
def popFifo (s : State) (n : Nat) : State :=
  let s := s.setFifo n ((s.fifo n).drop 1)
  if 255102 ≤ n || n % 3 = 0 then s
  else { s with net := { s.net with turn := mapSet s.net.turn (n / 3) (n % 3 == 1) } }

/-! ## In-network reduction (R656 to R661) -/

/-- Two packets are partners (R656). -/
def partners (a b : Pkt) : Bool :=
  a.typ = 6 && b.typ = 6 && a.netred && b.netred && a.destCluster = b.destCluster && a.destIndex = b.destIndex &&
    a.elem = b.elem && a.fixed == b.fixed && a.launch = b.launch &&
    ((a.srcCluster = a.destCluster) == (b.srcCluster = b.destCluster) : Bool)

/-- A Fixed-order merge takes place (R658), an Open-order merge always. -/
def mergeable (a b : Pkt) : Bool :=
  partners a b && (!a.fixed || (a.level = b.level && a.level != 0xF && a.node / 2 = b.node / 2 && a.node != b.node))

/-- Two records of packets that merge; records of different binary points take that of the receiving tile, F (R194, R195). -/
def mergeRec (F : Int) (p q : WideRec) : WideRec := { w := combineInto p.f p.w q, f := if q.f = p.f then p.f else F }

/-- The merged packet (R658 to R660), on its way to a tile of binary point F. -/
def mergePkt (F : Int) (a b : Pkt) : Pkt :=
  let payload := match a.payload, b.payload with
    | .wides x, .wides y => .wides (x.zipWith (mergeRec F) y)
    | .f64 x, .f64 y => .f64 (x.zipWith addF64 y)
    | p, _ => p
  { a with
    payload := payload, sources := a.sources + b.sources, targets := a.targets ++ b.targets, bad := a.bad || b.bad
    level := if a.fixed then a.level + 1 else a.level
    node := if a.fixed then a.node / 2 else a.node }

/-- The cluster whose routers hold a FIFO. -/
def fifoCluster (n : Nat) : Option Nat := if n < 254976 then some (n / 996) else none

/-- The binary point of the node tile to which a packet goes. -/
def State.tileF (s : State) (k : Pkt) : Int := (mapGet {} (s.cluster k.destCluster).node k.destIndex).tile.f

/-- A packet arrives at an output FIFO: it merges into a waiting partner (R657) or takes its place at the end. -/
def pushFifo (s : State) (n : Nat) (k : Pkt) : State :=
  match findIdx (fun w => mergeable w k) (s.fifo n) 0 with
  | some i =>
    let s := s.setFifo n (modifyAt (s.fifo n) i (fun w => mergePkt (s.tileF k) w k))
    match fifoCluster n with
    | some c => netCount c Cluster.netMerges (fun x m => { x with netMerges := m }) 0x210 1 s
    | none => s
  | none => s.setFifo n (s.fifo n ++ [k])

/-- Every branch has room for its copy or a partner to merge into. -/
def roomFor (s : State) (bs : List (Nat × Pkt)) : Bool :=
  bs.all (fun b => hasRoom s b.1 b.2 || (s.fifo b.1).any (fun w => mergeable w b.2))

def pushAll (s : State) (bs : List (Nat × Pkt)) : State := bs.foldl (fun s b => pushFifo s b.1 b.2) s

/-! ## The order in which inputs are admitted (R647, R663, R664) -/

/-- A FIFO holds fewer than four MCAST packets (R663). -/
def mcastRoom (s : State) (b : Nat × Pkt) : Bool :=
  hasRoom s b.1 b.2 && ((s.fifo b.1).filter (fun k => k.typ = 5)).length < 4

/-- Every branch of a packet may be entered now (R664, R686). -/
def mayPlace (s : State) (k : Pkt) (bs : List (Nat × Pkt)) : Bool := if k.typ = 5 then bs.all (mcastRoom s) else roomFor s bs

/-- The positions beside a position of an 8 x 8 grid, each with the output there that leads here. -/
def neighbours (p : Nat) : List (Nat × Nat) :=
  (if p / 8 < 7 then [(p + 8, 2)] else []) ++ (if p % 8 < 7 then [(p + 1, 3)] else []) ++
    (if 0 < p / 8 then [(p - 8, 0)] else []) ++ (if 0 < p % 8 then [(p - 1, 1)] else [])

/-- The FIFOs and ports of a channel that a core router takes. -/
def coreInputs (c p v : Nat) : List Nat :=
  (neighbours p).map (fun q => fifoNum (.core c q.1) q.2 v) ++
    (match findIdx (· == p) entryPositions 0 with
      | some i => [fifoNum (.clu c) (4 + i) v]
      | none => []) ++ [corePort c p v]

/-- The FIFOs and ports of a channel that may feed an output of a router: those that the router takes, and for a cluster
router those that its entry positions take (R635). -/
def inputsOf (v : Nat) : RNode → List Nat
  | .core c p => coreInputs c p v
  | .clu c =>
    (neighbours (c % 64)).map (fun q => fifoNum (.clu (c / 64 * 64 + q.1)) q.2 v) ++
      entryPositions.flatMap (fun e => coreInputs c e v) ++ [nodePort c v, xbarPort c v, ctlPort c v] ++
      ((List.range 16).filter (fun q => gddrAttach q = c)).map (fun q => attPort q v) ++
      (match findIdx (· == c % 64) attachClusters 0 with
        | some i => [fifoNum (.bridge (c / 64)) (1 + i) v]
        | none => [])
  | .bridge d => fifoNum .hub (18 + d) v :: attachClusters.map (fun a => fifoNum (.clu (64 * d + a)) 11 v)
  | .hub => (List.range 4).map (fun d => fifoNum (.bridge d) 0 v) ++ (List.range 18).map (fun u => hubPort u v)

/-- The packet at the head of an input could enter output FIFO m now. -/
def contends (s : State) (m n : Nat) : Bool :=
  match s.fifo n, takenBy n with
  | k :: _, some node =>
    let bs := branches s node k
    itsTurn s n && bs.any (fun b => b.1 = m) && mayPlace s k bs
  | _, _ => false

/-- The input whose packet an output FIFO admits next, in round-robin order after the one that it admitted last (R647). -/
def nextInput (s : State) (m : Nat) : Option Nat :=
  match fifoOwner m with
  | none => none
  | some (node, _, v) =>
    let cs := ((inputsOf v node).filter (contends s m)).foldl setInsert []
    match mapFind s.net.served m with
    | none => cs.head?
    | some last => (cs.find? (fun n => last < n)).or cs.head?

/-- An input is next at the lowest of the outputs that its packet enters. -/
def admitsInput (s : State) (n : Nat) (bs : List (Nat × Pkt)) : Bool :=
  match bs with
  | [] => false
  | b :: _ => nextInput s b.1 == some n

/-- The outputs that a packet enters have admitted its input. -/
def noteServed (n : Nat) (bs : List (Nat × Pkt)) (s : State) : State :=
  { s with net := { s.net with served := bs.foldl (fun m b => mapSet m b.1 n) s.net.served } }

/-! ## The header flit and words that fail parity (R641, R643, R675, R676, R688) -/

def UnitKind.code : UnitKind → Nat
  | .core => 0
  | .controller => 1
  | .node => 2
  | .crossbar => 3
  | .attached => 4
  | .hub => 5

/-- Bytes 0x0 to 0x7 of a header flit, by which a router routes (R643). -/
def Pkt.route (k : Pkt) : List Byte :=
  [k.typ, k.vc, k.flits, natOfBool k.netred + 2 * natOfBool k.fixed + 4 * natOfBool k.last, k.destUnit.code, k.destCluster,
    k.destIndex, 0].map (BitVec.ofNat 8)

/-- The header flit (R641). -/
def Pkt.header (k : Pkt) : List Byte :=
  k.route ++ (pack 64 [(0x8, 1, k.srcUnit.code), (0x9, 1, k.srcCluster), (0xA, 1, k.srcIndex), (0xC, 2, k.txn),
    (0xE, 2, k.launch), (0x10, 8, k.addr), (0x18, 2, k.elem), (0x1A, 1, k.level), (0x1C, 4, k.node), (0x20, 4, k.sources),
    (0x28, 8, k.mask), (0x30, 1, k.cLo), (0x31, 1, k.cHi), (0x38, 8, leNat k.route)]).drop 8

/-- Even parity of a byte (R675). -/
def parityBit (b : Byte) : Bool := (List.range 8).foldl (fun p i => p != b.getLsbD i) false

/-- A byte of a header is taken from the main copy, from ROUTE_COPY where the main copy fails parity, and not at all where both
do (R643). -/
def routeByte (k : Pkt) (badMain badCopy : BitVec 8) (i : Nat) : Option Byte :=
  if !badMain.getLsbD i then k.header[i]? else if !badCopy.getLsbD i then k.header[0x38 + i]? else none

/-- The bytes by which a router routes a packet, each from the copy that passes (R643). -/
def readRoute (k : Pkt) (badMain badCopy : BitVec 8) : Option (List Byte) := (List.range 8).mapM (routeByte k badMain badCopy)

/-- A word of a FIFO (R675): its data and their parity bits, its poison tag, VALID count and end-of-packet marker. -/
structure FifoWord where
  data : List Byte
  parity : List Bool
  poison : Bool
  valid : Nat
  eop : Bool
  deriving DecidableEq, Repr

/-- A read word of width w for the bytes of an item, filled with zero bytes (R687, R688). -/
def fifoWord (w : Nat) (data : List Byte) (poison eop : Bool) : FifoWord :=
  let bs := data ++ List.replicate (w - data.length) 0#8
  { data := bs, parity := bs.map parityBit, poison := poison, valid := data.length, eop := eop }

/-- The payload of a packet as bytes, each with the poison tag of its word. -/
def Payload.bytesOf : Payload → List (Byte × Bool)
  | .bytes data => data
  | .wides rs => (rs.flatMap wideBytes).map (fun b => (b, false))
  | .f64 vs => (vs.flatMap (fun v => leBytes 8 v.toNat)).map (fun b => (b, false))
  | .event e => (leBytes 8 e.cricket.toNat ++ leBytes 2 e.kind ++ leBytes 2 e.source ++ leBytes 4 0 ++ leBytes 8 e.wher.toNat ++
      leBytes 8 e.detail.toNat).map (fun b => (b, false))
  | _ => []

/-- The words of a packet in a router FIFO: its header flit, then its payload flits (R640, R645, R675). -/
def Pkt.words (k : Pkt) : List FifoWord :=
  let ps := chunks 64 k.payload.bytesOf
  fifoWord 64 k.header k.badHeader ps.isEmpty ::
    ps.zipIdx.map (fun e => fifoWord 64 (e.1.map (·.1)) (k.bad || e.1.any (·.2)) (e.2 + 1 == ps.length))

/-- The words of a packet that a reader finds bad: bit 0 of bad for the header flit, bit 1 + i for payload flit i; a header
flit fails also where a byte of either copy of its route fails (R676). -/
def badWords (badMain badCopy : BitVec 8) (bad : BitVec 17) : BitVec 17 :=
  if badMain = 0 && badCopy = 0 then bad else bad ||| 1

/-- The words that fail parity are delivered with their poison tags set (R676). What a poisoned header flit does beyond R643 the
spec does not say: the tag stays with the packet and nothing else changes (DEDUCED, log entry 82). -/
def poisonFlits (k : Pkt) (bad : BitVec 17) : Pkt :=
  if bad = 0 then k else
  let k := { k with badHeader := k.badHeader || bad.getLsbD 0 }
  match k.payload with
  | .bytes data => { k with payload := .bytes (data.zipIdx.map (fun e => (e.1.1, e.1.2 || bad.getLsbD (1 + e.2 / 64)))) }
  | _ => { k with bad := k.bad || bad.ushiftRight 1 != 0 }

/-- How many words of a packet fail parity. -/
def badCount (k : Pkt) (bad : BitVec 17) : Nat := ((List.range k.flits).filter (fun i => bad.getLsbD i)).length

/-- A packet whose header byte fails parity in both copies is dropped, counted and reported (R652). A bridge, which has no
SOURCE number of its own, reports as an attach cluster of its die (DESIGN CHOICE, log entry 35). -/
def dropPacket (s : State) (n : Nat) : State :=
  match takenBy n, fifoCluster n with
  | some (.core c _), _ => logEvent 16 c 0 0 (netCount c Cluster.netDrops (fun x m => { x with netDrops := m }) 0x208 1 (popFifo s n))
  | some (.clu c), _ => logEvent 16 c 0 0 (netCount c Cluster.netDrops (fun x m => { x with netDrops := m }) 0x208 1 (popFifo s n))
  | none, some c => logEvent 16 c 0 0 (netCount c Cluster.netDrops (fun x m => { x with netDrops := m }) 0x208 1 (popFifo s n))
  | some (.bridge d), _ => logEvent 16 (64 * d + 39) 0 0 (popFifo s n)
  | _, _ => logEvent 16 (hubSource 0) 0 0 (popFifo s n)

/-- The words that failed parity are counted in the cluster whose FIFO delivered them (R676, R695). -/
def countBad (s : State) (n : Nat) (m : Nat) : State :=
  if m = 0 then s else
  match fifoCluster n with
  | some c => netCount c Cluster.netPoison (fun x y => { x with netPoison := y }) 0x200 m s
  | none => s

/-! ## Partials at a reduction node (R202, R474, R475, R660, R1094) -/

def nodeTile (k : Cluster) (t : Nat) : NodeTile := mapGet {} k.node t

/-- The records of a partial are combined into a tile, from element e on (R194, R475). -/
def tileAbsorb (F : Int) (t : Tile) (elem : Nat) : Payload → Tile
  | .wides rs => rs.zipIdx.foldl (fun t e =>
      { t with els := mapModify {} t.els (elem + e.2) (fun x => { x with wide := combineInto F x.wide e.1 }) }) t
  | .f64 vs => vs.zipIdx.foldl (fun t e =>
      { t with els := mapModify {} t.els (elem + e.2) (fun x => { x with wide := contribute F x.wide (fp64.decode e.1.toNat) }) }) t
  | _ => t

/-- The ELEM ranges of 32 records that a partial covers. -/
def partialRanges (k : Pkt) : List Nat :=
  match k.payload with
  | .f64 vs => (List.range (ceilDiv vs.length 32)).map (fun i => k.elem / 32 + i)
  | _ => [k.elem / 32]

/-- SOURCES of a partial are added to the ranges it covers (R660). -/
def addSources (m : Map Nat) (k : Pkt) : Map Nat :=
  (partialRanges k).foldl (fun m r => mapModify 0 m r (· + k.sources)) m

/-- A partial enters the tile, or the foreign accumulator when it comes from another cluster (R1094). -/
def absorbPartial (x : NodeTile) (foreign : Bool) (k : Pkt) : NodeTile :=
  if foreign then
    { x with foreign := tileAbsorb x.tile.f x.foreign k.elem k.payload, foreignSources := addSources x.foreignSources k }
  else { x with tile := tileAbsorb x.tile.f x.tile k.elem k.payload, sources := addSources x.sources k }

/-! ## Distances (R121 to R126) -/

/-- Dies on opposite sides of the hub (R122). -/
def oppositeDie (a b : Nat) : Bool := a + b = 3

/-- Hub hops between sides (R125). -/
def hubHops (a b : Nat) (port : Bool) : Nat :=
  let n := if a = b then 1 else if oppositeDie a b then 3 else 2
  if port then n else n - 1

/-- Mesh hops from a cluster to the attach cluster of its die nearest it (R124). -/
def meshToHub (c : Nat) : Nat :=
  attachClusters.foldl (fun b a => min b (gridDistance (c % 64) a)) 1000

/-- Mesh hops, bridge crossings and hub hops from cluster c to port q of R130 (R123). -/
def pathOf (c q : Nat) : Nat × Nat × Nat :=
  let die := c / 64
  if q < 16 then
    if q / 4 = die then (gridDistance (c % 64) (gddrCluster q), 0, 0)
    else (meshToHub c + meshToHub (64 * (q / 4) + gddrCluster q), 2, hubHops die (q / 4) false)
  else (meshToHub c, 1, hubHops die (if q < 20 then q - 16 else (q - 20) / 3) true)

/-- Distance class (R126). -/
def distanceClass (hops : Nat) : Nat := if hops ≤ 4 then 0 else if hops ≤ 8 then 1 else if hops ≤ 12 then 2 else 3

end Sys2Proof.Machine
end

