-- ==== Sys2Proof/Machine/Operands.lean ====
section
/-! DEFINITION. Operand forms (file 06, R429 to R435, R459, R460): operation words, tensor descriptors, and the reading
and writing of tensors in the core memory of a logical core. -/

namespace Sys2Proof.Machine

/-! ## Structures of a program image -/

/-- A tensor descriptor from its 32 bytes (R429). -/
def descOf (bs : List Byte) : Desc :=
  let fl := fieldAt bs 0x1 1
  { format := fieldAt bs 0x0 1, plane := bit fl 0, isVirtual := bit fl 1, argrel := bit fl 2
    rows := fieldAt bs 0x2 2, cols := fieldAt bs 0x4 2, addr := fieldAt bs 0x8 8, expAddr := fieldAt bs 0x10 8
    rowStride := fieldAt bs 0x18 4, expStride := fieldAt bs 0x1C 4 }

/-- An operation word from its 64 bytes (R459). -/
def opOf (bs : List Byte) : OpWord :=
  { opcode := fieldAt bs 0x0 1, oflags := fieldAt bs 0x1 1, wait := fieldAt bs 0x2 1, aux := fieldAt bs 0x3 1
    a := fieldAt bs 0x4 2, b := fieldAt bs 0x6 2, c := fieldAt bs 0x8 2, d := fieldAt bs 0xA 2
    reserved0 := fieldAt bs 0xC 4, cores := fieldAt bs 0x10 8
    imm := [fieldAt bs 0x18 8, fieldAt bs 0x20 8, fieldAt bs 0x28 8, fieldAt bs 0x30 8]
    reserved1 := fieldAt bs 0x38 8 }

/-- ARGn of an operation word: the immediate holds an argument-block offset (R460). -/
def OpWord.arg (o : OpWord) (n : Nat) : Bool := bit o.oflags (4 + n)

/-- The immediate n that an operation uses: the word's, or the u64 of the argument block (R460, R452). -/
def immOf (l : Launch) (o : OpWord) (n : Nat) : Nat :=
  let v := (o.imm[n]?).getD 0
  if o.arg n then mapGet 0 l.argWords v else v

/-- The logical indices of CORES, ascending. -/
def OpWord.coreList (o : OpWord) : List Nat := (List.range 64).filter (bit o.cores)

/-- Signed byte of an immediate. -/
def immI8 (v lo : Nat) : Int := sext 8 (bits v lo 8)

/-! ## Tensors in core memory -/

/-- Groups of a row (R163). -/
def Desc.groups (d : Desc) : Nat := ceilDiv d.cols 32

/-- Bytes of a row that hold its elements. -/
def Desc.usedBytes (d : Desc) : Nat := ceilDiv (d.cols * elementBits d.format) 8

/-- Bytes of a row with the zero elements that fill its last group (R163). -/
def Desc.rowBytes (d : Desc) : Nat :=
  if d.plane then ceilDiv (d.groups * 32 * elementBits d.format) 8 else d.usedBytes

/-- A descriptor keeps R429, R433 and R434, and its format is none of the reserved ones. -/
def Desc.valid (d : Desc) : Bool :=
  (d.format ≤ 8 || d.format = 10) && 1 ≤ d.rows && 1 ≤ d.cols && d.rowStride % 8 = 0 &&
  (if d.plane then 5 ≤ d.format && d.format ≤ 7 else d.format != 7) && (!d.argrel || d.isVirtual) &&
  (d.isVirtual ||
    (d.addr + (d.rows - 1) * d.rowStride + d.rowBytes ≤ Config.coreSize &&
      (!d.plane || d.expAddr + (d.rows - 1) * d.expStride + d.groups ≤ Config.coreSize)))

/-- A valid descriptor of core memory. -/
def Desc.inCore (d : Desc) : Bool := d.valid && !d.isVirtual

def Desc.sameShape (a b : Desc) : Bool :=
  a.format = b.format && a.rows = b.rows && a.cols = b.cols && a.plane = b.plane

/-- The elements of a row from its bytes: n bits each, packed from the low end (R161). -/
def elementsOf (fmt cols : Nat) (bs : List Byte) : List Nat :=
  if elementBits fmt = 4 then
    (bs.flatMap (fun b => [b.toNat % 16, b.toNat / 16])).take cols
  else ((chunks (elementBits fmt / 8) bs).map leNat).take cols

/-- A row of elements packed into n bytes, zero beyond them (R161 to R163). -/
def packElements (fmt n : Nat) (es : List Nat) : List Byte :=
  let bs := if elementBits fmt = 4 then
      (chunks 2 es).map (fun p => BitVec.ofNat 8 ((p[0]?).getD 0 % 16 + 16 * ((p[1]?).getD 0 % 16)))
    else es.flatMap (leBytes (elementBits fmt / 8))
  (bs ++ List.replicate (n - bs.length) 0#8).take n

/-- A tensor as read: rows of (element bits, exponent byte of its group), and the places of its poisoned words. -/
structure Tensor where
  format : Nat
  rows : List (List (Nat × Nat))
  poison : List Nat
  deriving DecidableEq, Repr

/-- Row r of an operand in the core memory of a logical core. -/
def readRow (s : State) (c l : Nat) (d : Desc) (r : Nat) : List (Nat × Nat) × List Nat :=
  let a := d.addr + r * d.rowStride
  let es := coreRead s c l a d.usedBytes
  let xs := if d.plane then coreRead s c l (d.expAddr + r * d.expStride) d.groups else []
  ((elementsOf d.format d.cols (plain es)).zipIdx.map (fun e =>
      (e.1, if d.plane then ((plain xs)[e.2 / 32]?.getD 0).toNat else 127)),
    poisonPlaces (window c l a) es ++ poisonPlaces (window c l (d.expAddr + r * d.expStride)) xs)

/-- An operand in the core memory of a logical core (R430 to R433). -/
def readTensor (s : State) (c l : Nat) (d : Desc) : Tensor :=
  let rs := (List.range d.rows).map (readRow s c l d)
  { format := d.format, rows := rs.map (·.1), poison := rs.flatMap (·.2) }

/-- The exact values of an operand. -/
def Tensor.values (t : Tensor) : List (List Val) := t.rows.map (fun r => r.map (fun e => elementValue t.format e.1 e.2))

/-- Rows of element bits, each with its exponent bytes, are written to a tensor (R163, R430 to R432). -/
def writeTensor (s : State) (c l : Nat) (d : Desc) (rows : List (List Nat × List Nat)) : State :=
  rows.zipIdx.foldl (fun s e =>
    let s := coreWrite s c l (d.addr + e.2 * d.rowStride) (untagged (packElements d.format d.rowBytes e.1.1))
    if d.plane then
      coreWrite s c l (d.expAddr + e.2 * d.expStride) (untagged (e.1.2.map (BitVec.ofNat 8)))
    else s) s

/-- Bytes are written over the rows of a descriptor in order. -/
def writeRows (s : State) (c l : Nat) (d : Desc) (data : List Byte) : State :=
  (chunks d.rowBytes data).zipIdx.foldl (fun s e => coreWrite s c l (d.addr + e.2 * d.rowStride) (untagged e.1)) s

/-- A tensor of values is converted to the format of a destination (R173 to R177, R482): the rows to write and whether
any of them saturated. A destination with an exponent plane has scale 2^0 in every group. -/
def convertRows (d : Desc) (mode : Nat) (rows : List (List Val)) : List (List Nat × List Nat) × Bool :=
  let rs := rows.map (fun r => r.map (convert d.format mode))
  (rs.map (fun r => (r.map (·.1), List.replicate d.groups 0x7F)), rs.any (fun r => r.any (·.2)))

/-- The wide partial records of a tile in memory: 256 records, row-major (R473, R501). -/
def readWides (s : State) (c l : Nat) (d : Desc) : List WideRec × List Nat :=
  let rs := (List.range d.rows).map (fun r => coreRead s c l (d.addr + r * d.rowStride) (32 * d.cols))
  (rs.flatMap (fun r => (chunks 32 (plain r)).map wideOf),
    (rs.zipIdx.flatMap (fun e => poisonPlaces (window c l (d.addr + e.2 * d.rowStride)) e.1)))

end Sys2Proof.Machine
end

