-- ==== Sys2Proof/Machine/Issue.lean ====
section
/-! DEFINITION. How a cluster controller issues the operation at its program position, what the engines of the cores make
of it, and what its end counts (R446, R447, R457, R516, R583). An operation takes its whole effect as it is issued, but for the
transactions and packets of a Stream engine (DESIGN CHOICE, log entry 7); the handshakes it takes are a free number up to its
worst case (DESIGN CHOICE, log entry 12). -/

namespace Sys2Proof.Machine

/-! ## Issuing -/

/-- The operation word at the position of a cluster. -/
def Cluster.op (k : Cluster) : Option OpWord := k.ops[k.pos]?

/-- The opcode at the position of a cluster. -/
def Cluster.opcode (k : Cluster) : Nat := ((k.op).map (·.opcode)).getD 0x100

/-- The cluster stands at the start of a step with orders to apply (R76). -/
def Cluster.ordersFirst (k : Cluster) : Bool := k.pos = k.snap.pos && k.rerun.isEmpty && !k.orders.isEmpty

/-- A cluster controller may issue its next operation: the step has begun and has not been abandoned or ended, and no order waits
at its start. -/
def Cluster.mayIssue (k : Cluster) : Bool :=
  k.state == .running && !k.ended && k.begun && k.abandon.isNone && !k.entropyWait && !k.ordersFirst

/-- No operation is issued to a core whose position a fence order names (step 3 of Fencing a core in service). -/
def Cluster.stopped (k : Cluster) (l : Nat) : Bool :=
  k.orders.any (fun o => match o with
    | .fence p _ => k.phys l == some p
    | _ => false)

/-- The cores on which an operation is issued: those of CORES, in the rerun after a fence only the cores concerned. -/
def Cluster.active (k : Cluster) (o : OpWord) : List Nat :=
  ((List.range 64).filter (bit o.cores)).filter (fun l => (k.rerun.isEmpty || k.rerun.contains l) && !k.stopped l)

/-- Every operation issued earlier to the Stream engine of a core has completed: no transaction is outstanding or waits, and
every acknowledgement has arrived (R651). -/
def Core.streamIdle (k : Core) : Bool := k.acks = 0 && k.sent.isEmpty && k.waiting.isEmpty

/-- An operation may start on its cores: its own engine and those that WAIT names have completed every earlier operation (R447).
Only a Stream engine holds one after its issue (log entry 7). -/
def Cluster.ready (k : Cluster) (o : OpWord) : Bool :=
  (o.opcode / 16 != 3 && !bit o.wait 3) || (k.active o).all (fun l => (mapGet {} k.cores l).streamIdle)

/-- The launch and the operation word that a cluster may issue, if the word has a given opcode. -/
def issuing (s : State) (c code : Nat) : Option (Launch × OpWord) :=
  match s.runningOn c, (s.cluster c).op with
  | some l, some o =>
    if s.on && l.phase == .running && (s.cluster c).mayIssue && (s.cluster c).ready o && o.opcode = code then some (l, o) else none
  | _, _ => none

/-- The engines of a core (R447). -/
inductive Engine where
  | field
  | flip
  | vector
  | stream
  deriving DecidableEq, Repr

/-- The HS register of an engine counts handshakes (R516). -/
def countEngine (e : Engine) (c l n : Nat) (s : State) : State :=
  match e with
  | .field => coreCount c l Core.fieldHs (fun k x => { k with fieldHs := x }) 0x18 n s
  | .flip => coreCount c l Core.flipHs (fun k x => { k with flipHs := x }) 0x20 n s
  | .vector => coreCount c l Core.vectorHs (fun k x => { k with vectorHs := x }) 0x28 n s
  | .stream => coreCount c l Core.streamHs (fun k x => { k with streamHs := x }) 0x30 n s

/-- An engine of a core has taken handshakes, at most the worst case: they count on the core and for the launch (R516, R859). -/
def countShakes (e : Engine) (c id worst : Nat) (s : State) (l : Nat) : State :=
  let n := freePick s (worst + 1)
  (countEngine e c l n (drawn 1 s)).modLaunch id (fun x => { x with handshakes := (x.handshakes + n) % 2 ^ 64 })

/-- An operation has completed on a core (R516). -/
def countDone (c : Nat) (s : State) (l : Nat) : State := coreCount c l Core.ops (fun k x => { k with ops := x }) 0x10 1 s

/-- A completed operation counts on a core: its handshakes and CORE_OPS. -/
def countOp (e : Engine) (c id worst : Nat) (s : State) (l : Nat) : State := countDone c (countShakes e c id worst s l) l

/-- The program position of a cluster moves on. -/
def advance (c : Nat) (s : State) : State := s.modCluster c (fun k => { k with pos := k.pos + 1 })

/-! ## Engines -/

/-- Why an engine does not complete an operation. -/
inductive CoreStop where
  /-- poisoned words consumed, as local physical addresses -/
  | poison (places : List Nat)
  /-- an invalid operand (R457) -/
  | invalid
  /-- an access that faults or waits -/
  | halt (h : Halt)
  deriving DecidableEq, Repr

abbrev CoreWork := State → Nat → Except CoreStop State

/-- An operation runs on the cores of CORES, ascending; the first that stops it is named. -/
def runCores (f : CoreWork) : List Nat → State → Except (Nat × CoreStop) State
  | [], s => .ok s
  | l :: ls, s =>
    match f s l with
    | .error e => .error (l, e)
    | .ok s => runCores f ls s

/-- An operation with an invalid operand ends the launch and marks the cores on which it runs (R457, R514). -/
def invalidOp (c : Nat) (cores : List Nat) (ln : Launch) (s : State) : State :=
  cores.foldl (fun s l => coreEvent c l 2 s) (stopLaunch ln.id 0x201 s)

/-- What stops an operation of some cores on one of them: poison is consumed (R583), an invalid operand or a fault ends the launch
(R457, R577). -/
def stopCore (c : Nat) (cores : List Nat) (l : Nat) (ln : Launch) (e : CoreStop) (s : State) : State :=
  match e with
  | .poison places => consumePoison c l places s
  | .invalid => invalidOp c cores ln s
  | .halt h => haltLaunch ln.id ln.asid c h s

/-- The same for the cluster controller or the reduction node, which belong to no core. -/
def stopUnit (c : Nat) (ln : Launch) (e : CoreStop) (s : State) : State :=
  match e with
  | .poison places => controlPoison ln.id (places.headD 0) s
  | .invalid => stopLaunch ln.id 0x201 s
  | .halt h => haltLaunch ln.id ln.asid c h s

/-- An engine operation: the work of each core, then its end; nothing of it remains where a core stops it. -/
def engineOp (s : State) (c code : Nat) (e : Engine) (worst : OpWord → Nat) (f : Launch → OpWord → CoreWork) :
    Host.Outcome State Fault Refusal :=
  match issuing s c code with
  | none => .next s
  | some (ln, o) =>
    let cores := (s.cluster c).active o
    match runCores (f ln o) cores s with
    | .ok t => .next (advance c (cores.foldl (countOp e c ln.id (worst o)) t))
    | .error (l, stop) => .next (stopCore c cores l ln stop s)

/-- An operation of the controller or the reduction node; the rerun of single cores passes over it (DEDUCED, log entry 31). -/
def controlOp (s : State) (c code : Nat) (f : Launch → OpWord → State → Except CoreStop State) :
    Host.Outcome State Fault Refusal :=
  match issuing s c code with
  | none => .next s
  | some (ln, o) =>
    if !(s.cluster c).rerun.isEmpty then .next (advance c s) else
    match f ln o s with
    | .ok t => .next (advance c t)
    | .error stop => .next (stopUnit c ln stop s)

/-! ## Operands -/

def State.desc (s : State) (c i : Nat) : Desc := ((s.cluster c).descs[i]?).getD ⟨15, false, false, false, 0, 0, 0, 0, 0, 0⟩

/-- A descriptor of core memory that keeps its rules. -/
def needDesc (s : State) (c i : Nat) : Except CoreStop Desc :=
  let d := s.desc c i
  if d.inCore then .ok d else .error .invalid

def require (ok : Bool) : Except CoreStop Unit := if ok then .ok () else .error .invalid

/-- A tensor in core memory, with no poisoned word. -/
def needTensor (s : State) (c l : Nat) (d : Desc) : Except CoreStop Tensor :=
  let t := readTensor s c l d
  if t.poison.isEmpty then .ok t else .error (.poison t.poison)

end Sys2Proof.Machine
end

