-- ==== Sys2Proof/Machine/FieldOps.lean ====
section
/-! DEFINITION. The Field engine and the reduction node (file 06, R465 to R470; file 02, R179 to R207). -/

namespace Sys2Proof.Machine

/-! ## Virtual operands (R431, R435, R452) -/

/-- The virtual addresses of the two planes of a virtual descriptor; an ARGREL address is a multiple of 8 (R457). -/
def planeVas (ln : Launch) (d : Desc) : Except CoreStop (Nat × Nat) :=
  if d.argrel then
    let a := mapGet 0 ln.argWords d.addr
    let x := if d.plane then mapGet 0 ln.argWords d.expAddr else 0
    if a % 8 = 0 && x % 8 = 0 then .ok (a, x) else .error .invalid
  else .ok (d.addr, d.expAddr)

/-- One row is written at a virtual address by a unit of cluster c. -/
def storeRow (ln : Launch) (c va : Nat) (data : List Tagged) (s : State) : Except CoreStop State :=
  match vaWrite s ln.asid va data with
  | .ok s => .ok (touch c ln.asid va data.length true s)
  | .error e => .error (.halt (.access true e))

/-- Rows of bytes are written over a plane in virtual memory. -/
def storeRows (ln : Launch) (c va stride : Nat) : Nat → List (List Tagged) → State → Except CoreStop State
  | _, [], s => .ok s
  | r, row :: rows, s =>
    match storeRow ln c (va + r * stride) row s with
    | .error e => .error e
    | .ok s => storeRows ln c va stride (r + 1) rows s

/-! ## CLEAR (R200, R467) -/

def coreTile (s : State) (c l t : Nat) : Tile := mapGet {} (s.core c l).tiles t

/-- A tile cleared to a binary point (R200). -/
def clearedTile (F : Int) : Tile := { f := F, els := [] }

def setTile (c l t : Nat) (x : Tile) (s : State) : State :=
  s.modCore c l (fun k => { k with tiles := mapSet k.tiles t x })

def setTileSat (c l t : Nat) (b : Bool) (s : State) : State :=
  s.modCore c l (fun k => { k with tileSat :=
    if b then k.tileSat ||| BitVec.ofNat 4 (2 ^ t) else k.tileSat &&& ~~~BitVec.ofNat 4 (2 ^ t) })

/-- A binary point of R458. -/
def goodPoint (F : Int) : Bool := -64 ≤ F && F ≤ 126

def execClear (c : Nat) (s : State) : Host.Outcome State Fault Refusal :=
  engineOp s c 0x10 .field (fun _ => 2) (fun ln o s l => do
    let F := immI8 (immOf ln o 0) 0
    require (goodPoint F)
    return setTileSat c l (o.aux % 4) false (setTile c l (o.aux % 4) (clearedTile F) s))

/-! ## MMA (R179 to R187, R465, R466) -/

/-- The product of two elements with the exponent bytes of their groups (R179, R184 to R186). -/
def productOf (fa fb : Nat) (x y : Nat × Nat) : Product :=
  if isFloat fa then .float (elementValue fa x.1 x.2) (elementValue fb y.1 y.2)
  else .int (sext (elementBits fa) x.1 * sext (elementBits fb) y.1) ((x.2 : Int) + y.2 - 254) (x.2 = 0xFF || y.2 = 0xFF)

/-- The products of one row of A and one row of B enter an element in ascending k (R182). -/
def pushRow (F : Int) (fa fb : Nat) : Nat → List (Nat × Nat) → List (Nat × Nat) → Elem → Elem
  | k, x :: xs, y :: ys, e => pushRow F fa fb (k + 1) xs ys (e.push F k (productOf fa fb x y))
  | _, _, _, e => e

/-- The products of two operands enter a tile. -/
def mmaTile (t : Tile) (a b : Tensor) (kbase : Nat) : Tile :=
  a.rows.zipIdx.foldl (fun t ra =>
    b.rows.zipIdx.foldl (fun t rb =>
      let n := 16 * ra.2 + rb.2
      { t with els := mapSet t.els n (pushRow t.f a.format b.format kbase ra.1 rb.1 (t.el n)) }) t) t

/-- The factor of R463 and R180, in halves. -/
def mmaFactor (a b : Desc) : Nat :=
  if a.format = 6 && b.format = 6 && !a.plane && !b.plane then 1
  else if isInteger a.format then 2
  else if a.format = 0 || b.format = 0 then 32
  else if 3 ≤ a.format && 3 ≤ b.format then 2 else 4

/-- Operand formats of a product: one family, and no INT32 (R179). -/
def mmaFormats (a b : Nat) : Bool := (isFloat a && isFloat b) || (5 ≤ a && a ≤ 7 && 5 ≤ b && b ≤ 7)

def execMma (c : Nat) (s : State) : Host.Outcome State Fault Refusal :=
  engineOp s c 0x11 .field
    (fun o => ceilDiv ((s.desc c o.a).cols * mmaFactor (s.desc c o.a) (s.desc c o.b)) 2 + 16)
    (fun ln o s l => do
      let da ← needDesc s c o.a
      let db ← needDesc s c o.b
      require (da.cols = db.cols && da.rows ≤ 16 && db.rows ≤ 16 && mmaFormats da.format db.format)
      let a ← needTensor s c l da
      let b ← needTensor s c l db
      let t := mmaTile (coreTile s c l (o.aux % 4)) a b (immOf ln o 0)
      return setTile c l (o.aux % 4) (if bit o.oflags 0 then t.close else t) s)

/-! ## DRAIN (R199 to R207, R468) -/

/-- The fields of a drain control word (R203). -/
structure DrainWord where
  tile : Nat
  format : Nat
  round : Nat
  shift : Int
  clear : Bool
  reserved : Bool
  deriving DecidableEq, Repr

def drainWordOf (v : Nat) : DrainWord :=
  { tile := bits v 0 8, format := bits v 8 8, round := bits v 16 8, shift := sext 8 (bits v 24 8), clear := bit v 32
    reserved := bits v 33 31 != 0 }

/-- The conditions of R458 on a drain control word of a unit with n tiles. -/
def DrainWord.valid (w : DrainWord) (n : Nat) : Bool :=
  w.tile < n && (w.format ≤ 6 || w.format = 8 || w.format = 10) && w.round ≤ 3 && -64 ≤ w.shift && w.shift ≤ 63 && !w.reserved

/-- The sixteen rows of bytes that a drain writes, and whether it sets TILE_SAT (R204, R205). -/
def drainRows (w : DrainWord) (t : Tile) : List (List Byte) × Bool :=
  if w.format = 10 then
    ((List.range 16).map (fun i => (List.range 16).flatMap (fun j => wideBytes (t.wide (16 * i + j)))), false)
  else
    let es := (List.range 16).map (fun i => (List.range 16).map (fun j =>
      drainElement w.format w.round w.shift t.f (t.el (16 * i + j)).wide))
    (es.map (fun r => packElements w.format (16 * elementBits w.format / 8) (r.map (·.1))), es.any (fun r => r.any (·.2)))

/-- The destination of a drain: 16 x 16, in the control word's format, without a plane (R468). -/
def drainShape (d : Desc) (w : DrainWord) : Bool := d.rows = 16 && d.cols = 16 && d.format = w.format && !d.plane

/-- A drain that sets TILE_SAT reports it for the count of its step execution (R207). -/
def countDrain (c l : Nat) (s : State) : State := s.modCore c l (fun k => { k with drainSat := k.drainSat + 1 })

/-- Rows of bytes over the element plane of a core-memory descriptor. -/
def writePlane (s : State) (c l : Nat) (d : Desc) (rows : List (List Byte)) : State :=
  rows.zipIdx.foldl (fun s e => coreWrite s c l (d.addr + e.2 * d.rowStride) (untagged e.1)) s

def execDrain (c : Nat) (s : State) : Host.Outcome State Fault Refusal :=
  engineOp s c 0x12 .field (fun _ => 160) (fun ln o s l => do
    let w := drainWordOf (immOf ln o 0)
    let d ← needDesc s c o.d
    require (w.valid 4 && w.tile = o.aux % 4 && drainShape d w)
    let t := (coreTile s c l w.tile).close
    let r := drainRows w t
    let s := setTile c l w.tile (if w.clear then t.zero else t) s
    let s := if r.2 then countDrain c l (setTileSat c l w.tile true s) else s
    return writePlane s c l d r.1)

/-! ## RCLEAR and RDRAIN (R200, R202, R467, R469) -/

/-- RCLEAR clears tile and foreign accumulator, not the count of partials received (DESIGN CHOICE, log entry 88). -/
def execRclear (c : Nat) (s : State) : Host.Outcome State Fault Refusal :=
  controlOp s c 0x08 (fun ln o s => do
    let F := immI8 (immOf ln o 0) 0
    require (goodPoint F)
    return s.modCluster c (fun k => { k with
      node := mapModify {} k.node (o.aux % 16) (fun x => { x with tile := clearedTile F, sat := false, foreign := { x.foreign with f := F } }) }))

/-- Every ELEM range of a node tile has received n partials (R202, R660). -/
def NodeTile.received (x : NodeTile) (n : Nat) : Bool := (List.range 8).all (fun r => n ≤ mapGet 0 x.sources r)

/-- The partials that a drain has taken are no longer counted. -/
def NodeTile.taken (x : NodeTile) (n : Nat) : Map Nat := (List.range 8).map (fun r => (r, mapGet 0 x.sources r - n))

/-- No Stream engine of the cluster still sends, receives or waits (R446). -/
def streamsIdle (s : State) (c : Nat) : Bool :=
  (s.cluster c).cores.all (fun e => e.2.streamIdle)

/-- The drained rows go to virtual memory, or to the core memory of every index of CORES (R469). -/
def rdrainWrite (ln : Launch) (c : Nat) (o : OpWord) (d : Desc) (rows : List (List Byte)) (s : State) : Except CoreStop State :=
  if d.isVirtual then do
    let a ← planeVas ln d
    storeRows ln c a.1 d.rowStride 0 (rows.map untagged) s
  else .ok (o.coreList.foldl (fun s l => writePlane s c l d rows) s)

/-- The conditions of R458 and R469 on an RDRAIN. -/
def rdrainGood (o : OpWord) (w : DrainWord) (d : Desc) : Bool :=
  w.valid 16 && w.tile = o.aux % 16 && d.valid && drainShape d w && (d.isVirtual == o.coreList.isEmpty)

/-- RDRAIN waits until its tile has received IMM1 partials (R202).
DEDUCED, log entry 56: RDRAIN waits for at least IMM1 partials. -/
def rdrainWaits (s : State) (c : Nat) : Bool :=
  match issuing s c 0x09 with
  | none => false
  | some (ln, o) =>
    (s.cluster c).rerun.isEmpty && rdrainGood o (drainWordOf (immOf ln o 0)) (s.desc c o.d) &&
      !(streamsIdle s c && (nodeTile (s.cluster c) (o.aux % 16)).received (immOf ln o 1))

def execRdrain (c : Nat) (s : State) : Host.Outcome State Fault Refusal :=
  if rdrainWaits s c then .next s else
  controlOp s c 0x09 (fun ln o s => do
    let w := drainWordOf (immOf ln o 0)
    let d := s.desc c o.d
    let x := nodeTile (s.cluster c) (o.aux % 16)
    require (rdrainGood o w d)
    let t := x.tile.close
    let r := drainRows w t
    let s ← rdrainWrite ln c o d r.1 s
    return s.modCluster c (fun k => { k with
      nodeSat := k.nodeSat + natOfBool r.2
      node := mapSet k.node w.tile { x with
        tile := if w.clear then t.zero else t, sat := x.sat || r.2, sources := x.taken (immOf ln o 1) } }))

end Sys2Proof.Machine
end

