-- ==== Sys2Proof/Machine/ControlOps.lean ====
section
/-! DEFINITION. The operations of the cluster controller (file 06, R445, R448, R483, R485, R486) and GIBBS (R501 to
R504). -/

namespace Sys2Proof.Machine

/-! ## Steps -/

/-- The position after the last STEP_END before a position: where its step begins. -/
def stepStart (ops : List OpWord) (pos : Nat) : Nat :=
  (List.range pos).foldl (fun b i => if (ops[i]?).map (·.opcode) = some 1 then i + 1 else b) 0

/-- The operations of the step that begins at a position, its STEP_END left out. -/
def opsFrom (ops : List OpWord) (pos : Nat) : List OpWord := (ops.drop pos).takeWhile (fun o => o.opcode != 1)

/-- The step at the position of a cluster holds an ANNEAL or a LOADIMG (R489). -/
def Cluster.holdsLong (k : Cluster) : Bool :=
  (opsFrom k.ops (stepStart k.ops k.pos)).any (fun o => o.opcode = 0x40 || o.opcode = 0x42)

/-- The clusters on which a launch runs. -/
def Launch.clusterList (l : Launch) : List Nat := (List.range Config.clusters).filter (bit l.header.clusters)

/-- The present step of a launch is an anneal step or a load step on some cluster. -/
def longStep (s : State) (l : Launch) : Bool := l.clusterList.any (fun c => (s.cluster c).holdsLong)

/-- The step of a cluster may end: in an anneal step or load step, when the work of the execution is done; a cluster that
holds only the STEP_END of such a step waits for the end of the run or load (R1092). -/
def longReady (s : State) (c : Nat) (l : Launch) : Bool :=
  if (s.cluster c).holdsLong then l.longRan && s.runs.all (fun e => e.2.launch != l.id || e.2.next != .sweepEnd)
  else !longStep s l || l.longDone

/-- The saturations that a step execution adds to the count of R207 (R515). -/
def Cluster.stepSats (k : Cluster) : Nat :=
  k.nodeSat + (k.cores.map (fun e => e.2.drainSat + natOfBool e.2.stepSat)).sum

/-- The counts of a step execution begin again. -/
def Cluster.freshCounts (k : Cluster) : Cluster :=
  { k with nodeSat := 0, cores := k.cores.map (fun e => (e.1, { e.2 with drainSat := 0, stepSat := false })) }

/-- The step-boundary snapshot (R584, R586): log bits clear, shadows of the tiles. -/
def Cluster.snapshot (k : Cluster) (pos step : Nat) : Snap :=
  { pos := pos, step := step, sat := k.sat, logged := [], written := [], tiles := k.cores.map (fun e => (e.1, e.2.tiles))
    sats := k.cores.map (fun e => (e.1, e.2.tileSat)), node := k.node }

/-- A cluster reaches the launch-wide end of its step (R445, R515, R586). -/
def Cluster.endStep (k : Cluster) : Cluster :=
  let k := ({ k with sat := k.sat + k.stepSats } : Cluster).freshCounts
  { k with ended := true, reduced := [], rerun := [], reruns := 0, consumed := []
           snap := k.snapshot k.pos k.step }

/-- A cluster stands at a step boundary (R77, R78): idle or out of service, or with no operation in flight at the start of a step,
at its STEP_END or past it; in the rerun of a core (R115, R116) the start is none. -/
def atBoundary (s : State) (c : Nat) : Bool :=
  let k := s.cluster c
  k.state != .running || (k.abandon.isNone && !k.entropyWait && streamsIdle s c &&
    (k.ended || (k.pos = k.snap.pos && k.rerun.isEmpty) ||
      (k.opcode = 1 && (!k.holdsLong || (s.runningOn c).any (longReady s c)))))

/-- The engines of a core hold an ANNEAL: it has been issued in this execution, and the anneal step is not done (R513). -/
def annealHeld (s : State) (c l : Nat) : Bool :=
  let k := s.cluster c
  k.state == .running && k.begun && !k.ended && k.abandon.isNone && k.opcode != 0x40 &&
    (opsFrom k.ops (stepStart k.ops k.pos)).any (fun o => o.opcode = 0x40 && bit o.cores l) &&
    (s.runningOn c).any (fun ln => ln.phase == .running && !longReady s c ln)

/-- An order that holds the cluster waits for its step boundary. -/
def Cluster.holdPending (k : Cluster) : Bool :=
  k.orders.any (fun o => match o with
    | .fence _ _ => true
    | .retireSlice _ _ => true
    | _ => false)

/-- The state of a cluster as CLU_STATUS shows it: held at a step boundary for a fence or a slice retirement (R141; Fencing a core
in service, step 4; Slice retirement, step 2). -/
def State.cluState (s : State) (c : Nat) : CluState :=
  let k := s.cluster c
  if k.state == .running && k.holdPending && atBoundary s c then .held else k.state

/-- STEP_END waits for the operations of the step and for pending orders (R445). -/
def execStepEnd (c : Nat) (s : State) : Host.Outcome State Fault Refusal :=
  match issuing s c 0x01 with
  | none => .next s
  | some (ln, _) =>
    needs (streamsIdle s c && (s.cluster c).orders.isEmpty && longReady s c ln)
      (s.modCluster c Cluster.endStep) s

def execNop (c : Nat) (s : State) : Host.Outcome State Fault Refusal := controlOp s c 0x00 (fun _ _ s => .ok s)

/-- SYNC waits until every operation issued earlier has completed (R448). -/
def execSync (c : Nat) (s : State) : Host.Outcome State Fault Refusal :=
  if streamsIdle s c then controlOp s c 0x02 (fun _ _ s => .ok s) else .next s

/-! ## TIME and ENTROPY (R483, R485) -/

/-- The D of TIME and ENTROPY: 8 bytes of core memory. -/
def eightBytes (d : Desc) : Bool := !d.plane && d.rows * d.rowBytes = 8

/-- Bytes go to D in every core of CORES. -/
def writeCores (c : Nat) (o : OpWord) (d : Desc) (bs : List Byte) (s : State) : State :=
  o.coreList.foldl (fun s l => writeRows s c l d bs) s

def execTime (c : Nat) (s : State) : Host.Outcome State Fault Refusal :=
  controlOp s c 0x03 (fun _ o s => do
    let d ← needDesc s c o.d
    require (eightBytes d)
    return writeCores c o d (leBytes 8 (s.follower c)) (readFollower c s))

/-- ENTROPY asks for 64 bits and waits; GENERATE_DELIVER ends it (R485, R999). -/
def execEntropy (c : Nat) (s : State) : Host.Outcome State Fault Refusal :=
  match issuing s c 0x04 with
  | none => .next s
  | some (ln, o) =>
    if !(s.cluster c).rerun.isEmpty then .next (advance c s)
    else if !((s.desc c o.d).inCore && eightBytes (s.desc c o.d)) then .next (stopLaunch ln.id 0x201 s)
    else match askEntropy { who := .entropyOp c, bits := 64 } s with
      | .error st => .next (stopLaunch ln.id st s)
      | .ok t => .next (t.modCluster c (fun k => { k with entropyWait := true }))

/-- A seed or the bits of an ENTROPY operation are kept for the result digest in the order of R919. -/
def noteSeed (id c seed : Nat) (s : State) : State :=
  let pos := (s.cluster c).pos
  s.modLaunch id (fun l => { l with seeds := mapSet l.seeds (2 ^ 36 * l.stepsDone + 2 ^ 28 * c + pos) seed })

/-- The bits of an ENTROPY operation reach their cores. -/
def deliverOp (c : Nat) (bits : List Byte) (s : State) : State :=
  match s.runningOn c, (s.cluster c).op with
  | some ln, some o =>
    if (s.cluster c).entropyWait && o.opcode = 0x04 && ln.phase == .running then
      let s := s.modCluster c (fun k => { k with entropyWait := false })
      let s := noteSeed ln.id c (leNat bits) s
      advance c (writeCores c o (s.desc c o.d) bits s)
    else s
  | _, _ => s

/-! ## CTXREAD and RELEASE (R284, R288, R293, R486) -/

/-- The entry that an operation of an address space names. -/
def ownContext (s : State) (asid n : Nat) : Except CoreStop Ctx := do
  require (n < 262144)
  match readCtx s n with
  | .error h => .error (.halt h)
  | .ok x => if foreign x asid then .error (.halt (.status 0x300)) else .ok x

def execCtxread (c : Nat) (s : State) : Host.Outcome State Fault Refusal :=
  controlOp s c 0x43 (fun ln o s => do
    require (immOf ln o 1 % 64 = 0)
    let x ← ownContext s ln.asid (immOf ln o 0)
    match writeVa c s ln.asid (immOf ln o 1) x.image with
    | .error h => .error (.halt h)
    | .ok s => .ok s)

/-- RELEASE frees the entry as the operation runs (DEDUCED, log entry 90). -/
def execRelease (c : Nat) (s : State) : Host.Outcome State Fault Refusal :=
  controlOp s c 0x44 (fun ln o s => do
    let _ ← ownContext s ln.asid (immOf ln o 0)
    return s.setCtx (immOf ln o 0) {})

/-! ## GIBBS (R501 to R504) -/

/-- The fields of an immediate group that every unit of a GIBBS shares. -/
structure GibbsArgs where
  bitConv : Bool
  seed : Nat
  betaM : Nat
  betaX : Int
  unit : Nat
  chain : Nat
  index : Nat
  deriving DecidableEq, Repr

/-- One unit (R502): whether it is up, and whether its field is not a number. -/
def gibbsUnit (g : GibbsArgs) (i j : Nat) (w : WideRec) : Bool × Bool :=
  if w.w.flags != 0 then (false, true) else
  let q := scaledProduct ((if g.bitConv then 1 else 2) * g.betaM * w.w.v.toInt) (g.betaX - w.f)
  let r := drawAt g.seed g.index (g.chain + i) (g.unit + j) 0x04
  (decide (q < negLog r - negLog (complement r)), false)

/-- The INT8 state of a unit. -/
def gibbsState (bitConv up : Bool) : Byte := if up then 1#8 else if bitConv then 0#8 else 0xFF#8

/-- DEDUCED, log entry 42: a flagged GIBBS record sets CONV_SAT and is not counted as a saturation. -/
def execGibbs (c : Nat) (s : State) : Host.Outcome State Fault Refusal :=
  engineOp s c 0x41 .flip (fun _ => 272) (fun ln o s l => do
    let a ← needDesc s c o.a
    let d ← needDesc s c o.d
    require (a.format = 10 && a.rows = 16 && a.cols = 16 && d.format = 5 && !d.plane && d.rows ≤ 16 && d.cols ≤ 16)
    let w := readWides s c l a
    if !w.2.isEmpty then .error (.poison w.2) else
    let g : GibbsArgs := { bitConv := bit o.aux 0, seed := immOf ln o 0, betaM := bits (immOf ln o 1) 0 32
                           betaX := immI8 (immOf ln o 1) 32, unit := bits (immOf ln o 2) 0 32
                           chain := bits (immOf ln o 2) 32 16, index := immOf ln o 3 }
    let rows := (List.range d.rows).map (fun i => (List.range d.cols).map (fun j =>
      gibbsUnit g i j ((w.1[16 * i + j]?).getD {})))
    let s := if rows.any (fun r => r.any (·.2)) then coreEvent c l 0 s else s
    return writePlane s c l d (rows.map (fun r => r.map (fun x => gibbsState g.bitConv x.1))))

end Sys2Proof.Machine
end

