-- ==== Sys2Proof/Machine/CluRegs.lean ====
section
/-! DEFINITION. The CLU registers as they read (file 01, R138 to R149), and the map image of the disabled-unit map (file 11,
R921). -/

namespace Sys2Proof.Machine

/-- CLU_MAP_l (R147) in a unit of n logical cores. PHYS of an unbacked index is zero, which differs from every home position
but 0; MOVED of an entry l at or above n, which has no home position (R101), reads 0 (DESIGN CHOICE, log entry 85). -/
def cluMap (n : Nat) (k : Cluster) (l : Nat) : Nat :=
  match k.phys l with
  | some p => p + 128 * natOfBool (p != l) + 256
  | none => 128 * natOfBool (l != 0 && l < n)

/-- Die, x and y of a cluster (R97). -/
def dieOf (c : Nat) : Nat := c / 64

/-- CLU_ID (R140). -/
def cluId (s : State) (c : Nat) : Nat := dieOf c + c % 8 * 4 + c % 64 / 8 * 32 + c * 256 + s.lcores * 2 ^ 16

def CluState.code : CluState → Nat
  | .idle => 0
  | .running => 1
  | .held => 2
  | .out => 3

/-- CLU_STATUS (R141). -/
def cluStatus (s : State) (c : Nat) : Nat := (s.cluState c).code + (s.cluster c).step % 2 ^ 32 * 2 ^ 16

/-- A CLU register at its offset, as a 64-bit value. -/
def cluReg (s : State) (c off : Nat) : Nat :=
  let k := s.cluster c
  if off = 0x0 then cluId s c
  else if off = 0x8 then cluStatus s c
  else if off = 0x10 then k.mapGen.toNat
  else if off = 0x18 then k.events.toNat
  else if off = 0x20 then k.fenced.toNat
  else if off = 0x28 then k.spares.toNat
  else if off = 0x30 then k.live.toNat
  else if 0x100 ≤ off && off < 0x200 && off % 4 = 0 then cluMap s.lcores k ((off - 0x100) / 4)
  else 0

/-- The map image of R921 for given clusters and retired channels. -/
def mapImageOf (n : Nat) (cluster : Nat → Cluster) (retired : Nat → BitVec 4) : List Byte :=
  (List.range Config.clusters).flatMap (fun c =>
    let k := cluster c
    (List.range 64).flatMap (fun l => leBytes 4 (cluMap n k l)) ++ leBytes 4 k.live.toNat) ++
  (List.range 16).map (fun q => BitVec.ofNat 8 (retired q).toNat)

def mapImage (s : State) : List Byte := mapImageOf s.lcores s.cluster (fun q => (s.gdcOf q).retired)

/-- What MAP_CHANGED of R922 compares: CLU_MAP_GEN of the taking-part clusters and the retired GDDR7 channels. -/
def mapMarks (s : State) (cs : List Nat) : List (Nat × Nat) :=
  cs.map (fun c => (c, (s.cluster c).mapGen.toNat)) ++ (List.range 16).map (fun q => (256 + q, (s.gdcOf q).retired.toNat))

end Sys2Proof.Machine
end

