-- ==== Sys2Proof/Machine/Sha.lean ====
section
/-! DEFINITION. SHA-384 of FIPS 180-4, HMAC over it, and the Merkle root of R907. The standard's text stands outside the
spec (PRESUMED, log entry 13). -/

namespace Sys2Proof.Machine

/-! ## SHA-384 -/

/-- Round constants 0 to 19. -/
def shaK0 : List (BitVec 64) :=
  [0x428A2F98D728AE22#64, 0x7137449123EF65CD#64, 0xB5C0FBCFEC4D3B2F#64, 0xE9B5DBA58189DBBC#64,
   0x3956C25BF348B538#64, 0x59F111F1B605D019#64, 0x923F82A4AF194F9B#64, 0xAB1C5ED5DA6D8118#64,
   0xD807AA98A3030242#64, 0x12835B0145706FBE#64, 0x243185BE4EE4B28C#64, 0x550C7DC3D5FFB4E2#64,
   0x72BE5D74F27B896F#64, 0x80DEB1FE3B1696B1#64, 0x9BDC06A725C71235#64, 0xC19BF174CF692694#64,
   0xE49B69C19EF14AD2#64, 0xEFBE4786384F25E3#64, 0x0FC19DC68B8CD5B5#64, 0x240CA1CC77AC9C65#64]

/-- Round constants 20 to 39. -/
def shaK1 : List (BitVec 64) :=
  [0x2DE92C6F592B0275#64, 0x4A7484AA6EA6E483#64, 0x5CB0A9DCBD41FBD4#64, 0x76F988DA831153B5#64,
   0x983E5152EE66DFAB#64, 0xA831C66D2DB43210#64, 0xB00327C898FB213F#64, 0xBF597FC7BEEF0EE4#64,
   0xC6E00BF33DA88FC2#64, 0xD5A79147930AA725#64, 0x06CA6351E003826F#64, 0x142929670A0E6E70#64,
   0x27B70A8546D22FFC#64, 0x2E1B21385C26C926#64, 0x4D2C6DFC5AC42AED#64, 0x53380D139D95B3DF#64,
   0x650A73548BAF63DE#64, 0x766A0ABB3C77B2A8#64, 0x81C2C92E47EDAEE6#64, 0x92722C851482353B#64]

/-- Round constants 40 to 59. -/
def shaK2 : List (BitVec 64) :=
  [0xA2BFE8A14CF10364#64, 0xA81A664BBC423001#64, 0xC24B8B70D0F89791#64, 0xC76C51A30654BE30#64,
   0xD192E819D6EF5218#64, 0xD69906245565A910#64, 0xF40E35855771202A#64, 0x106AA07032BBD1B8#64,
   0x19A4C116B8D2D0C8#64, 0x1E376C085141AB53#64, 0x2748774CDF8EEB99#64, 0x34B0BCB5E19B48A8#64,
   0x391C0CB3C5C95A63#64, 0x4ED8AA4AE3418ACB#64, 0x5B9CCA4F7763E373#64, 0x682E6FF3D6B2B8A3#64,
   0x748F82EE5DEFB2FC#64, 0x78A5636F43172F60#64, 0x84C87814A1F0AB72#64, 0x8CC702081A6439EC#64]

/-- Round constants 60 to 79. -/
def shaK3 : List (BitVec 64) :=
  [0x90BEFFFA23631E28#64, 0xA4506CEBDE82BDE9#64, 0xBEF9A3F7B2C67915#64, 0xC67178F2E372532B#64,
   0xCA273ECEEA26619C#64, 0xD186B8C721C0C207#64, 0xEADA7DD6CDE0EB1E#64, 0xF57D4F7FEE6ED178#64,
   0x06F067AA72176FBA#64, 0x0A637DC5A2C898A6#64, 0x113F9804BEF90DAE#64, 0x1B710B35131C471B#64,
   0x28DB77F523047D84#64, 0x32CAAB7B40C72493#64, 0x3C9EBE0A15C9BEBC#64, 0x431D67C49C100D4C#64,
   0x4CC5D4BECB3E42B6#64, 0x597F299CFC657E2A#64, 0x5FCB6FAB3AD6FAEC#64, 0x6C44198C4A475817#64]

def shaK : List (BitVec 64) := shaK0 ++ shaK1 ++ shaK2 ++ shaK3

/-- The initial hash value of SHA-384. -/
def shaIv : List (BitVec 64) :=
  [0xCBBB9D5DC1059ED8#64, 0x629A292A367CD507#64, 0x9159015A3070DD17#64, 0x152FECD8F70E5939#64,
   0x67332667FFC00B31#64, 0x8EB44A8768581511#64, 0xDB0C2E0D64F98FA7#64, 0x47B5481DBEFA4FA4#64]

/-- The message schedule: the sixteen words of a block extended to n more, newest first. -/
def shaSchedule : Nat → List (BitVec 64) → List (BitVec 64)
  | 0, ws => ws
  | n + 1, ws =>
    let w := fun i => (ws[i - 1]?).getD 0
    let s0 := (w 15).rotateRight 1 ^^^ (w 15).rotateRight 8 ^^^ ((w 15) >>> 7)
    let s1 := (w 2).rotateRight 19 ^^^ (w 2).rotateRight 61 ^^^ ((w 2) >>> 6)
    shaSchedule n ((s1 + w 7 + s0 + w 16) :: ws)

/-- The eight working variables. -/
structure ShaVars where
  a : BitVec 64
  b : BitVec 64
  c : BitVec 64
  d : BitVec 64
  e : BitVec 64
  f : BitVec 64
  g : BitVec 64
  h : BitVec 64
  deriving DecidableEq, Repr

/-- One round with constant and schedule word. -/
def shaRound (v : ShaVars) (kw : BitVec 64 × BitVec 64) : ShaVars :=
  let t1 := v.h + (v.e.rotateRight 14 ^^^ v.e.rotateRight 18 ^^^ v.e.rotateRight 41) +
    ((v.e &&& v.f) ^^^ (~~~v.e &&& v.g)) + kw.1 + kw.2
  let t2 := (v.a.rotateRight 28 ^^^ v.a.rotateRight 34 ^^^ v.a.rotateRight 39) +
    ((v.a &&& v.b) ^^^ (v.a &&& v.c) ^^^ (v.b &&& v.c))
  { a := t1 + t2, b := v.a, c := v.b, d := v.c, e := v.d + t1, f := v.e, g := v.f, h := v.g }

/-- One block of 128 bytes. -/
def shaBlock (h : List (BitVec 64)) (block : List Byte) : List (BitVec 64) :=
  let ws := (chunks 8 block).map (fun w => BitVec.ofNat 64 (beNat w))
  let w := fun i => (h[i]?).getD 0
  let v := (shaK.zip (shaSchedule 64 ws.reverse).reverse).foldl shaRound
    { a := w 0, b := w 1, c := w 2, d := w 3, e := w 4, f := w 5, g := w 6, h := w 7 }
  [w 0 + v.a, w 1 + v.b, w 2 + v.c, w 3 + v.d, w 4 + v.e, w 5 + v.f, w 6 + v.g, w 7 + v.h]

/-- The padding of a message of n bytes. -/
def shaPad (n : Nat) : List Byte := 0x80#8 :: List.replicate ((239 - n % 128) % 128) 0#8 ++ beBytes 16 (8 * n)

/-- SHA-384 of bytes: 48 bytes. -/
def sha384 (m : List Byte) : List Byte :=
  (((chunks 128 (m ++ shaPad m.length)).foldl shaBlock shaIv).take 6).flatMap (fun w => beBytes 8 w.toNat)

/-- HMAC with SHA-384 (RFC 2104), for a key of at most 128 bytes. -/
def hmac384 (key m : List Byte) : List Byte :=
  let k := key ++ List.replicate (128 - key.length) 0#8
  sha384 (k.map (· ^^^ 0x5C#8) ++ sha384 (k.map (· ^^^ 0x36#8) ++ m))

/-! ## Merkle roots (R907, R920) -/

/-- One level of the tree: neighbours combine, an odd node rises unchanged. -/
def merklePairs : List (List Byte) → List (List Byte)
  | a :: b :: hs => sha384 (0x01#8 :: a ++ b) :: merklePairs hs
  | hs => hs

def merkleTop : Nat → List (List Byte) → List Byte
  | 0, hs => hs.headD []
  | n + 1, hs => merkleTop n (merklePairs hs)

/-- region_root of R907. -/
def regionRoot (d : List Byte) : List Byte :=
  let leaves := (chunks 1048576 d).zipIdx.map (fun e => sha384 (0x00#8 :: leBytes 8 e.2 ++ e.1))
  sha384 (0x02#8 :: leBytes 8 d.length ++ merkleTop (Nat.log2 leaves.length + 1) leaves)

/-- The role root of R920: a region's VA, length and root. -/
def roleRoot (role : Nat) (rs : List (Nat × Nat × List Byte)) : List Byte :=
  sha384 (0x03#8 :: BitVec.ofNat 8 role :: rs.flatMap (fun r => leBytes 8 r.1 ++ leBytes 8 r.2.1 ++ r.2.2))

end Sys2Proof.Machine
end

