-- ==== Sys2Proof/Machine/Image.lean ====
section
/-! DEFINITION. The problem image (file 03): its header and directories, the checks of a load in the order of R274, the
automatic scaling of source sections, and the coefficient stream. Reserved bytes are ignored (R35, DEDUCED, log entry 24). -/

namespace Sys2Proof.Machine

/-! ## Layouts -/

/-- The fields of the image header that a unit uses (R238). -/
structure ImgHeader where
  magic : Nat
  version : Nat
  convention : Nat
  qexp : Int
  nvars : Nat
  blocks : Nat
  links : Nat
  groups : Nat
  colours : Nat
  replicas : Nat
  source : Nat
  stages : Nat
  initRows : Nat
  couplings : Nat
  offset : Int
  imageSize : Nat
  blockDir : Nat
  linkDir : Nat
  biasOff : Nat
  biasSrc : Nat
  groupDir : Nat
  replicaOff : Nat
  scheduleOff : Nat
  initOff : Nat
  deriving DecidableEq, Repr

def imgHeaderOf (b : List Byte) : ImgHeader :=
  { magic := fieldAt b 0x0 4, version := fieldAt b 0x4 2, convention := fieldAt b 0x6 1, qexp := fieldInt b 0x7 1
    nvars := fieldAt b 0x8 8, blocks := fieldAt b 0x10 4, links := fieldAt b 0x14 4, groups := fieldAt b 0x18 4
    colours := fieldAt b 0x1C 2, replicas := fieldAt b 0x1E 1, source := fieldAt b 0x1F 1
    stages := fieldAt b 0x20 2, initRows := fieldAt b 0x22 2, couplings := fieldAt b 0x28 8
    offset := fieldInt b 0x30 16, imageSize := fieldAt b 0x40 8, blockDir := fieldAt b 0x48 8
    linkDir := fieldAt b 0x50 8, biasOff := fieldAt b 0x58 8, biasSrc := fieldAt b 0x60 8
    groupDir := fieldAt b 0x68 8, replicaOff := fieldAt b 0x70 8, scheduleOff := fieldAt b 0x78 8
    initOff := fieldAt b 0x80 8 }

/-- A block directory entry (R241). -/
structure Blk where
  first : Nat
  size : Nat
  kind : Nat
  format : Nat
  colour : Nat
  linkCount : Nat
  matOff : Nat
  linkFirst : Nat
  srcOff : Nat
  deriving DecidableEq, Repr

def blkOf (b : List Byte) : Blk :=
  { first := fieldAt b 0x0 4, size := fieldAt b 0x4 2, kind := fieldAt b 0x6 1, format := fieldAt b 0x7 1
    colour := fieldAt b 0x8 4, linkCount := fieldAt b 0xC 4, matOff := fieldAt b 0x10 8
    linkFirst := fieldAt b 0x18 8, srcOff := fieldAt b 0x20 8 }

/-- A link record (R248). -/
structure Lnk where
  a : Nat
  b : Nat
  kind : Nat
  format : Nat
  count : Nat
  dataOff : Nat
  srcOff : Nat
  deriving DecidableEq, Repr

def lnkOf (b : List Byte) : Lnk :=
  { a := fieldAt b 0x0 4, b := fieldAt b 0x4 4, kind := fieldAt b 0x8 1, format := fieldAt b 0x9 1
    count := fieldAt b 0xC 4, dataOff := fieldAt b 0x10 8, srcOff := fieldAt b 0x18 8 }

/-- A group directory entry (R256). -/
structure Grp where
  block : Nat
  members : Nat
  memberOff : Nat
  deriving DecidableEq, Repr

def grpOf (b : List Byte) : Grp :=
  { block := fieldAt b 0x0 4, members := fieldAt b 0x4 2, memberOff := fieldAt b 0x8 8 }

/-- A replica table entry (R260). -/
structure RepEntry where
  init : Nat
  initRow : Nat
  rank : Nat
  betaM : Nat
  betaX : Int
  deriving DecidableEq, Repr

def repEntryOf (b : List Byte) : RepEntry :=
  { init := fieldAt b 0x0 1, initRow := fieldAt b 0x1 1, rank := fieldAt b 0x2 2, betaM := fieldAt b 0x4 4
    betaX := fieldInt b 0x8 1 }

/-- A schedule table entry (R265). -/
structure Stage where
  rule : Nat
  policy : Nat
  mode : Nat
  sweeps : Nat
  betaM : Nat
  betaX : Int
  paramA : Nat
  paramB : Nat
  traceK : Nat
  deriving DecidableEq, Repr

def stageOf (b : List Byte) : Stage :=
  { rule := fieldAt b 0x0 1, policy := fieldAt b 0x1 1, mode := fieldAt b 0x2 1, sweeps := fieldAt b 0x4 4
    betaM := fieldAt b 0x8 4, betaX := fieldInt b 0xC 1, paramA := fieldAt b 0x10 4, paramB := fieldAt b 0x14 4
    traceK := fieldAt b 0x18 4 }

/-! ## Planes (R242 to R244, R251) -/

def up64 (n : Nat) : Nat := ceilDiv n 64 * 64

/-- The padded size of a block (R242). -/
def pad32 (n : Nat) : Nat := 32 * ceilDiv n 32

/-- An element plane with its exponent plane. -/
structure Plane where
  format : Nat
  count : Nat
  off : Nat
  deriving DecidableEq, Repr

def Plane.elemLen (p : Plane) : Nat := p.count * elementBits p.format / 8
def Plane.expOff (p : Plane) : Nat := up64 (p.off + p.elemLen)
def Plane.expLen (p : Plane) : Nat := p.count / 32
def Plane.fin (p : Plane) : Nat := p.expOff + p.expLen

/-- The image offset of element k. -/
def Plane.elemAt (p : Plane) (k : Nat) : Nat := p.off + k * elementBits p.format / 8

/-- Planes as read: the signed contents and the exponent bytes. -/
structure PlaneData where
  plane : Plane
  es : List Int
  xs : List Nat
  deriving DecidableEq, Repr

def signedElements (fmt : Nat) (bs : List Byte) : List Int :=
  if fmt = 5 then bs.map (fun b => b.toInt)
  else bs.flatMap (fun b => [sext 4 (b.toNat % 16), sext 4 (b.toNat / 16)])

/-- Element k: its content and the exponent byte of its group. -/
def PlaneData.at (d : PlaneData) (k : Nat) : Int × Nat := ((d.es[k]?).getD 0, (d.xs[k / 32]?).getD 0)

/-- A decoded value as a number of 2^-127 quanta (R227). -/
def coefficient (e : Int × Nat) : Int := e.1 * 2 ^ e.2

/-- Contents packed into an element plane (R161). -/
def packSigned (fmt : Nat) (es : List Int) : List Byte :=
  if fmt = 5 then es.map (BitVec.ofInt 8)
  else (chunks 2 es).map (fun p => BitVec.ofNat 8 (wrap 4 ((p[0]?).getD 0) + 16 * wrap 4 ((p[1]?).getD 0)))

def Blk.pad (b : Blk) : Nat := pad32 b.size
def Blk.plane (b : Blk) : Plane := { format := b.format, count := b.pad * b.pad, off := b.matOff }

/-- The planes of a link record between blocks of sizes sa and sb (R251). -/
def Lnk.plane (l : Lnk) (sa sb : Nat) : Plane :=
  if l.kind = 1 then { format := l.format, count := pad32 sa * pad32 sb, off := l.dataOff }
  else { format := l.format, count := pad32 l.count, off := up64 (l.dataOff + 4 * l.count) }

/-! ## Reading -/

/-- A reader of image bytes: offset and length. -/
abbrev Fetch := Nat → Nat → Except Halt (List Byte)

def Fetch.table {α : Type} (rd : Fetch) (off size count : Nat) (f : List Byte → α) : Except Halt (List α) := do
  let bs ← rd off (size * count)
  return (chunks size bs).map f

def Fetch.planes (rd : Fetch) (p : Plane) : Except Halt PlaneData := do
  let es ← rd p.off p.elemLen
  let xs ← rd p.expOff p.expLen
  return { plane := p, es := signedElements p.format es, xs := xs.map BitVec.toNat }

/-- The entries of a sparse index plane (R251). -/
def Fetch.index (rd : Fetch) (l : Lnk) : Except Halt (List (Nat × Nat)) :=
  rd.table l.dataOff 4 (if l.kind = 1 then 0 else l.count) (fun b => (fieldAt b 0 2, fieldAt b 2 2))

/-- An image with its directories. -/
structure Problem where
  h : ImgHeader
  blocks : List Blk
  links : List Lnk
  groups : List Grp
  deriving DecidableEq, Repr

def Problem.block (m : Problem) (k : Nat) : Blk := (m.blocks[k]?).getD ⟨0, 0, 0, 0, 0, 0, 0, 0, 0⟩
def Problem.linkPlane (m : Problem) (l : Lnk) : Plane := l.plane (m.block l.a).size (m.block l.b).size
def Problem.mirror (m : Problem) (l : Lnk) : Option Lnk := m.links.find? (fun k => k.a = l.b && k.b = l.a)

def Fetch.problem (rd : Fetch) : Except Halt Problem := do
  let h := imgHeaderOf (← rd 0 256)
  let blocks ← rd.table h.blockDir 64 h.blocks blkOf
  let links ← rd.table h.linkDir 32 h.links lnkOf
  let groups ← rd.table h.groupDir 16 h.groups grpOf
  return { h := h, blocks := blocks, links := links, groups := groups }

/-- Bytes of an initial-state row (R263). -/
def rowBytes (v : Nat) : Nat := up64 (ceilDiv v 8)

/-- The members of a group, as logical indices. -/
def Fetch.members (rd : Fetch) (m : Problem) (g : Grp) : Except Halt (List Nat) :=
  rd.table g.memberOff 2 g.members (fun b => (m.block g.block).first + leNat b)

/-! ## Failures: (image offset, code) -/

abbrev Failure := Nat × Nat

/-- Failures of a check, kept where a condition fails. -/
def failIf (c : Bool) (off code : Nat) : List Failure := if c then [(off, code)] else []

/-- The failing check ends the load at its lowest offset (R276). -/
def firstFailure (fs : List Failure) : Except Halt Unit :=
  match fs with
  | [] => .ok ()
  | f :: rest =>
    let b := rest.foldl (fun b x => if x.1 < b.1 then x else b) f
    .error (.load b.2 b.1)

/-! ## Step 2: header and offsets -/

/-- R238, R229 and the counts of R273. -/
def headerFailures (h : ImgHeader) : List Failure :=
  failIf (h.magic != 0x4D425250) 0x0 1 ++ failIf (h.version != 1) 0x4 1 ++ failIf (h.convention > 1) 0x6 1 ++
  failIf (h.qexp < -64 || 63 < h.qexp) 0x7 1 ++ failIf (h.nvars = 0 || 2 ^ 32 < h.nvars) 0x8 1 ++
  failIf (h.blocks = 0 || 2 ^ 24 < h.blocks) 0x10 1 ++ failIf (2 ^ 24 < h.groups) 0x18 1 ++
  failIf (h.colours = 0) 0x1C 1 ++ failIf (h.replicas = 0 || 64 < h.replicas) 0x1E 1 ++ failIf (7 < h.source) 0x1F 1 ++
  failIf (h.stages = 0 || 4096 < h.stages) 0x20 1 ++ failIf (64 < h.initRows) 0x22 1 ++
  failIf (32 * 10 ^ 12 < h.couplings) 0x28 1 ++ failIf (2 ^ 94 ≤ h.offset.natAbs) 0x30 1 ++
  failIf (h.links = 0 && h.linkDir != 0) 0x50 1 ++ failIf (!bit h.source 2 && h.biasSrc != 0) 0x60 1 ++
  failIf (h.groups = 0 && h.groupDir != 0) 0x68 1 ++ failIf (h.initRows = 0 && h.initOff != 0) 0x80 1

/-- An offset breaks R236 or its item breaks R237. -/
def offsetFailure (size at' off n : Nat) : List Failure := failIf (off % 64 != 0 || size < off + n) at' 2

/-- R235 to R237 for the header's offsets. An IMAGE_SIZE above the end of the last item is accepted: the directories, which give
that end, have not been read at step 2 (DESIGN CHOICE, log entry 29). -/
def headerOffsets (va : Nat) (h : ImgHeader) : List Failure :=
  failIf (va % 4096 != 0) 0 2 ++ offsetFailure h.imageSize 0x40 0 256 ++
  offsetFailure h.imageSize 0x48 h.blockDir (64 * h.blocks) ++
  offsetFailure h.imageSize 0x50 h.linkDir (32 * h.links) ++
  offsetFailure h.imageSize 0x58 h.biasOff (8 * h.nvars) ++
  (if bit h.source 2 then offsetFailure h.imageSize 0x60 h.biasSrc (4 * h.nvars) else []) ++
  offsetFailure h.imageSize 0x68 h.groupDir (16 * h.groups) ++
  offsetFailure h.imageSize 0x70 h.replicaOff (16 * h.replicas) ++
  offsetFailure h.imageSize 0x78 h.scheduleOff (32 * h.stages) ++
  offsetFailure h.imageSize 0x80 h.initOff (h.initRows * rowBytes h.nvars)

def goodFormat (f : Nat) : Bool := f = 5 || f = 7

/-- R236 and R237 for the offsets of the directories; the extent of an item whose form step 3 refuses is not known. -/
def directoryOffsets (m : Problem) : List Failure :=
  let z := m.h.imageSize
  m.blocks.zipIdx.flatMap (fun e =>
    let b := e.1
    let at' := m.h.blockDir + 64 * e.2
    let ok := goodFormat b.format && b.size ≤ 1024
    offsetFailure z (at' + 0x10) b.matOff (if ok then b.plane.fin - b.matOff else 0) ++
    (if bit m.h.source 0 then offsetFailure z (at' + 0x20) b.srcOff (if ok then 4 * b.pad * b.pad else 0) else [])) ++
  m.links.zipIdx.flatMap (fun e =>
    let l := e.1
    let at' := m.h.linkDir + 32 * e.2
    let ok := goodFormat l.format && l.kind ≤ 1
    let p := m.linkPlane l
    offsetFailure z (at' + 0x10) l.dataOff (if ok then p.fin - l.dataOff else 0) ++
    (if bit m.h.source 1 then
      offsetFailure z (at' + 0x18) l.srcOff (if ok then 4 * (if l.kind = 1 then p.count else l.count) else 0)
    else [])) ++
  m.groups.zipIdx.flatMap (fun e => offsetFailure z (m.h.groupDir + 16 * e.2 + 0x8) e.1.memberOff (2 * e.1.members))

/-! ## Step 3: directories -/

/-- R239 to R241, with the formats and kinds. -/
def blockFailures (m : Problem) : List Failure :=
  m.blocks.zipIdx.flatMap (fun e =>
    let b := e.1
    let at' := m.h.blockDir + 64 * e.2
    let mine := (m.links.filter (fun l => l.a = e.2)).length
    let next := if e.2 = 0 then 0 else (m.block (e.2 - 1)).first + (m.block (e.2 - 1)).size
    failIf (b.first != next) at' 3 ++
    failIf (b.size = 0 || 1024 < b.size || (b.kind = 0 && 256 < b.size) || (b.kind = 1 && b.size ≤ 256)) (at' + 0x4) 3 ++
    failIf (1 < b.kind) (at' + 0x6) 4 ++ failIf (!goodFormat b.format) (at' + 0x7) 4 ++
    failIf (m.h.colours ≤ b.colour) (at' + 0x8) 3 ++ failIf (b.linkCount != mine) (at' + 0xC) 3 ++
    failIf (mine != 0 && findIdx (fun l => l.a = e.2) m.links 0 != some b.linkFirst) (at' + 0x18) 3 ++
    failIf (!bit m.h.source 0 && b.srcOff != 0) (at' + 0x20) 3 ++
    failIf (e.2 + 1 = m.h.blocks && b.first + b.size != m.h.nvars) (at' + 0x4) 3)

/-- The pairs of a sparse index rise and stay inside the blocks (R251). -/
def indexFailures (off sa sb : Nat) : Nat → Option (Nat × Nat) → List (Nat × Nat) → List Failure
  | _, _, [] => []
  | k, prev, p :: ps =>
    let after := match prev with
      | none => true
      | some q => q.1 < p.1 || (q.1 = p.1 && q.2 < p.2)
    failIf (sa ≤ p.1 || sb ≤ p.2 || !after) (off + 4 * k) 10 ++ indexFailures off sa sb (k + 1) (some p) ps

/-- R248 to R250 for one record, but for the index plane. -/
def linkFailures (m : Problem) (k : Nat) (l : Lnk) : List Failure :=
  let at' := m.h.linkDir + 32 * k
  let sorted := match m.links[k - 1]? with
    | none => true
    | some p => k = 0 || p.a < l.a || (p.a = l.a && p.b < l.b)
  failIf (m.h.blocks ≤ l.a || !sorted) at' 10 ++
  failIf ((m.mirror l).map (·.kind) != some l.kind) at' 5 ++
  failIf (m.h.blocks ≤ l.b || l.a = l.b) (at' + 0x4) 10 ++ failIf (1 < l.kind) (at' + 0x8) 4 ++
  failIf (!goodFormat l.format) (at' + 0x9) 4 ++
  failIf (if l.kind = 1 then l.count != 0 else l.count = 0 || (m.block l.a).size * (m.block l.b).size < l.count)
    (at' + 0xC) 10 ++
  failIf (!bit m.h.source 1 && l.srcOff != 0) (at' + 0x18) 10

/-! ## Step 4: automatic scaling (R266 to R271) -/

def Fetch.floats (rd : Fetch) (off n : Nat) : Except Halt (List Val) :=
  rd.table off 4 n (fun b => fp32.decode (leNat b))

/-- A source value divided by the quantum. -/
def inQuanta (qexp : Int) : Val → Val
  | .fin neg m e => .fin neg m (e - qexp)
  | v => v

/-- Sub-tile (a, g) of an array with the given row pitch, row by row (R266). -/
def subTile (vs : List Val) (pitch a g : Nat) : List Val :=
  (List.range 32).flatMap (fun r => (vs.drop ((32 * a + r) * pitch + 32 * g)).take 32)

/-- An item as step 4 quantises it: contents, exponent bytes, and the failing elements. -/
structure Quantised where
  es : List Int
  xs : List Nat
  bad : List Nat
  deriving DecidableEq, Repr

/-- A matrix or dense tile of pa rows and pb columns is quantised with its mirror (R267, R269). A sub-tile whose scaling fails is
named by its first source element, a list by its start (R271, R276; DESIGN CHOICE, log entry 29). -/
def quantiseTile (w pa pb : Nat) (mine other : List Val) : Quantised :=
  let bands := (List.range (pa / 32)).map (fun a =>
    (List.range (pb / 32)).map (fun g =>
      let q := quantise (subTile mine pb a g ++ subTile other pa g a) w 0
      (q.1, chunks 32 (q.2.1.take 1024), q.2.2, (32 * a) * pb + 32 * g)))
  { es := bands.flatMap (fun band => (List.range 32).flatMap (fun r => band.flatMap (fun t => (t.2.1[r]?).getD [])))
    xs := bands.flatMap (fun band => (List.range 32).flatMap (fun _ => band.map (·.1)))
    bad := bands.flatMap (fun band => (band.filter (fun t => t.2.2.1)).map (fun t => t.2.2.2)) }

/-- A sparse list is quantised with its mirror (R268, R269). -/
def quantiseList (w : Nat) (mine other : List Val) : Quantised :=
  let q := quantise (mine ++ other) w 0
  let n := pad32 mine.length
  { es := q.2.1.take mine.length ++ List.replicate (n - mine.length) 0, xs := List.replicate (n / 32) q.1
    bad := if q.2.2 then [0] else [] }

/-- What step 4 makes of one packed item: its bytes by image offset, and its failures. -/
structure PackedItem where
  writes : List (Nat × List Byte)
  fails : List Failure
  deriving DecidableEq, Repr

/-- Source values that are NaN or infinite (R271). -/
def nonFinite (off : Nat) (vs : List Val) : List Failure :=
  (vs.zipIdx.filter (fun e => !e.1.isFin)).map (fun e => (off + 4 * e.2, 9))

def packedItem (p : Plane) (srcOff : Nat) (vs : List Val) (q : Quantised) : PackedItem :=
  { writes := [(p.off, packSigned p.format q.es), (p.expOff, q.xs.map (BitVec.ofNat 8))]
    fails := nonFinite srcOff vs ++ q.bad.map (fun k => (srcOff + 4 * k, 9)) }

/-- The source matrix of a block, quantised. R245 is checked on the packed data (step 5), so a source element of the diagonal or the
padding that is not 0 and quantises to 0 is accepted (DESIGN CHOICE, log entry 29). -/
def quantiseBlock (rd : Fetch) (m : Problem) (b : Blk) : Except Halt PackedItem := do
  let vs := (← rd.floats b.srcOff (b.pad * b.pad)).map (inQuanta m.h.qexp)
  return packedItem b.plane b.srcOff vs (quantiseTile (if b.format = 5 then 8 else 4) b.pad b.pad vs vs)

def Lnk.sourceCount (m : Problem) (l : Lnk) : Nat := if l.kind = 1 then (m.linkPlane l).count else l.count

def quantiseLink (rd : Fetch) (m : Problem) (l : Lnk) : Except Halt PackedItem := do
  let k := (m.mirror l).getD l
  let w := if l.format = 5 && k.format = 5 then 8 else 4
  let vs := (← rd.floats l.srcOff (l.sourceCount m)).map (inQuanta m.h.qexp)
  let us := (← rd.floats k.srcOff (k.sourceCount m)).map (inQuanta m.h.qexp)
  let q := if l.kind = 1 then quantiseTile w (m.block l.a).pad (m.block l.b).pad vs us else quantiseList w vs us
  return packedItem (m.linkPlane l) l.srcOff vs q

/-- A source bias (R270): its i64, none where R228 or R271 refuses it. -/
def quantiseBias : Val → Option Int
  | .fin neg m e =>
    let b := roundInt 0 neg m e
    if 2 ^ 47 ≤ b.natAbs then none else some b
  | _ => none

def quantiseBiases (rd : Fetch) (m : Problem) : Except Halt PackedItem := do
  let bs := (← rd.floats m.h.biasSrc m.h.nvars).map (fun v => quantiseBias (inQuanta m.h.qexp v))
  return { writes := [(m.h.biasOff, bs.flatMap (fun b => leBytes 8 (wrap 64 (b.getD 0))))]
           fails := (bs.zipIdx.filter (fun e => e.1.isNone)).map (fun e => (m.h.biasSrc + 4 * e.2, 9)) }

/-- The packed items of the selected source sections whose sources begin in an image range. -/
def quantiseSections (rd : Fetch) (m : Problem) (sel : Nat) (here : Nat → Bool) : Except Halt (List PackedItem) := do
  let bs ← if bit sel 0 then (m.blocks.filter (fun b => here b.srcOff)).mapM (quantiseBlock rd m) else pure []
  let ls ← if bit sel 1 then (m.links.filter (fun l => here l.srcOff)).mapM (quantiseLink rd m) else pure []
  let cs ← if bit sel 2 && here m.h.biasSrc then (do return [← quantiseBiases rd m]) else pure []
  return bs ++ ls ++ cs

/-- The writes of step 4. Where a check of it fails, an item that fails is not written, and of every other item it is
open whether it is (R279): a free value decides. -/
def sectionWrites (free : Nat) (items : List PackedItem) : List (Nat × List Byte) :=
  let failed := items.any (fun i => !i.fails.isEmpty)
  items.zipIdx.flatMap (fun e =>
    if !failed || (e.1.fails.isEmpty && Config.freeBool (free + e.2)) then e.1.writes else [])

/-! ## Step 5: packed data -/

/-- A stored coupling: row and column as local indices of two blocks, element number, content and exponent byte. -/
structure Cell where
  i : Nat
  j : Nat
  k : Nat
  v : Int × Nat
  deriving DecidableEq, Repr

/-- The cells of a block matrix inside its size, off the diagonal. -/
def matrixCells (b : Blk) (d : PlaneData) : List Cell :=
  (List.range b.size).flatMap (fun i =>
    ((List.range b.size).filter (· != i)).map (fun j => { i := i, j := j, k := i * b.pad + j, v := d.at (i * b.pad + j) }))

/-- The cells of a link record. -/
def linkCells (m : Problem) (l : Lnk) (ix : List (Nat × Nat)) (d : PlaneData) : List Cell :=
  if l.kind = 1 then
    let pb := (m.block l.b).pad
    (List.range (m.block l.a).size).flatMap (fun i =>
      (List.range (m.block l.b).size).map (fun j => { i := i, j := j, k := i * pb + j, v := d.at (i * pb + j) }))
  else ix.zipIdx.map (fun e => { i := e.1.1, j := e.1.2, k := e.2, v := d.at e.2 })

/-- A link record with its data. -/
structure LinkData where
  l : Lnk
  d : PlaneData
  cells : List Cell
  deriving DecidableEq, Repr

def Fetch.linkData (rd : Fetch) (m : Problem) (l : Lnk) : Except Halt LinkData := do
  let ix ← rd.index l
  let d ← rd.planes (m.linkPlane l)
  return { l := l, d := d, cells := linkCells m l ix d }

/-- Exponent bytes outside 0x7F to 0xFE (R227). -/
def scaleFailures (d : PlaneData) : List Failure :=
  (d.xs.zipIdx.filter (fun e => e.1 < 0x7F || 0xFE < e.1)).map (fun e => (d.plane.expOff + e.2, 7))

/-- Decoded values differ; an element of an invalid group equals nothing (R166). -/
def differ (x y : Int × Nat) : Bool := x.2 = 0xFF || y.2 = 0xFF || coefficient x != coefficient y

/-- R227, R245 and R246 for a block matrix. -/
def matrixFailures (b : Blk) (d : PlaneData) : List Failure :=
  scaleFailures d ++
  (d.es.zipIdx.filter (fun e =>
    let i := e.2 / b.pad
    let j := e.2 % b.pad
    e.1 != 0 && (b.size ≤ i || b.size ≤ j || i = j))).map (fun e => (d.plane.elemAt e.2, 6)) ++
  ((matrixCells b d).filter (fun c => c.i < c.j && differ c.v (d.at (c.j * b.pad + c.i)))).map (fun c => (d.plane.elemAt c.k, 5))

/-- R227, the padding of R251 and R250 for a link record and its mirror. -/
def tileFailures (x mirror : LinkData) : List Failure :=
  scaleFailures x.d ++
  (x.d.es.zipIdx.filter (fun e => e.1 != 0 && !x.cells.any (fun c => c.k = e.2))).map (fun e => (x.d.plane.elemAt e.2, 10)) ++
  x.cells.flatMap (fun c =>
    match mirror.cells.find? (fun y => y.i = c.j && y.j = c.i) with
    | none => [(x.l.dataOff + 4 * c.k, 5)]
    | some y => failIf (differ c.v y.v) (x.d.plane.elemAt c.k) 5)

/-- The packed biases as bit patterns, in variable order. -/
def Fetch.biases (rd : Fetch) (m : Problem) : Except Halt (List Int) :=
  rd.table m.h.biasOff 8 m.h.nvars (fun b => sext 64 (leNat b))

/-- Sum of the magnitudes of the couplings that leave variable i of a block, in units of 2^-127 quanta. -/
def rowSum (cells : List Cell) (i : Nat) : Nat := ((cells.filter (fun c => c.i = i)).map (fun c => (coefficient c.v).natAbs)).sum

/-- R228 and R233, variable by variable. -/
def fieldFailures (m : Problem) (sel : Bool) (mats : List (Blk × PlaneData)) (links : List LinkData) (bs : List Int) :
    List Failure :=
  mats.zipIdx.flatMap (fun e =>
    let cells := matrixCells e.1.1 e.1.2 ++ (links.filter (fun x => x.l.a = e.2)).flatMap (·.cells)
    (List.range e.1.1.size).flatMap (fun i =>
      let v := e.1.1.first + i
      let b := (bs[v]?).getD 0
      failIf ((sel && 2 ^ 47 ≤ b.natAbs) || (2 ^ 47 - 1) * 2 ^ 127 < b.natAbs * 2 ^ 127 + rowSum cells i)
        (m.h.biasOff + 8 * v) 8))

/-- The stored coupling elements (R252). -/
def storedCouplings (m : Problem) : Nat :=
  (m.blocks.map (fun b => b.size * (b.size - 1))).sum +
    (m.links.map (fun l => if l.kind = 1 then (m.block l.a).size * (m.block l.b).size else l.count)).sum

/-- Step 5 of R274; sel masks the sections that R227, R228, R245, R246 and R250 are checked for (R275). -/
def packedFailures (rd : Fetch) (m : Problem) (sel : Nat) : Except Halt (List Failure) := do
  let mats ← m.blocks.mapM (fun b => do return (b, ← rd.planes b.plane))
  let links ← m.links.mapM (rd.linkData m)
  let bs ← rd.biases m
  return (if bit sel 0 then mats.flatMap (fun x => matrixFailures x.1 x.2) else []) ++
    (if bit sel 1 then links.flatMap (fun x =>
      match links.find? (fun y => y.l.a = x.l.b && y.l.b = x.l.a) with
      | some y => tileFailures x y
      | none => []) else []) ++
    fieldFailures m (bit sel 2) mats links bs ++ failIf (storedCouplings m != m.h.couplings) 0x28 15

/-! ## Step 6: groups, colours, replicas, schedule -/

/-- R255 to R257: used holds the variables of earlier groups. -/
def groupFailures (rd : Fetch) (m : Problem) : Nat → List Nat → List Grp → Except Halt (List Failure)
  | _, _, [] => .ok []
  | k, used, g :: gs =>
    let at' := m.h.groupDir + 16 * k
    if m.h.blocks ≤ g.block then (groupFailures rd m (k + 1) used gs).map ((at', 11) :: ·)
    else if g.members < 2 || 1024 < g.members || (m.block g.block).size < g.members then
      (groupFailures rd m (k + 1) used gs).map ((at' + 0x4, 11) :: ·)
    else do
      let vs ← rd.members m g
      let b := m.block g.block
      let bad := vs.zipIdx.flatMap (fun e =>
        failIf (b.first + b.size ≤ e.1 || used.contains e.1 ||
          (e.2 != 0 && e.1 ≤ (vs[e.2 - 1]?).getD 0)) (g.memberOff + 2 * e.2) 11)
      return bad ++ (← groupFailures rd m (k + 1) (vs ++ used) gs)

/-- R259. -/
def colourFailures (m : Problem) : List Failure :=
  m.links.zipIdx.flatMap (fun e =>
    failIf ((m.block e.1.a).colour = (m.block e.1.b).colour) (m.h.linkDir + 32 * e.2) 12)

/-- R260 and R262. -/
def replicaFailures (m : Problem) (rs : List RepEntry) : List Failure :=
  rs.zipIdx.flatMap (fun e =>
    let at' := m.h.replicaOff + 16 * e.2
    failIf (2 < e.1.init) at' 13 ++ failIf (e.1.init = 1 && m.h.initRows ≤ e.1.initRow) (at' + 0x1) 13 ++
    failIf (m.h.replicas ≤ e.1.rank || (rs.take e.2).any (fun r => r.rank = e.1.rank)) (at' + 0x2) 13)

/-- A state row as a number: bit v is u[v] (R263).
DEDUCED, log entry 54: padding bits of state rows are zero. -/
def rowState (bs : List Byte) : Nat := leNat bs

/-- Exactly one member is up (R255). -/
def oneUp (u : Nat) (members : List Nat) : Bool := (members.filter (bit u)).length = 1

/-- R263 and R264 for one row. -/
def rowFailures (m : Problem) (r : Nat) (bs : List Byte) (groups : List (List Nat)) : List Failure :=
  let base := m.h.initOff + r * rowBytes m.h.nvars
  let u := rowState bs
  (bs.zipIdx.filter (fun e => e.1.toNat != 0 && m.h.nvars < 8 * e.2 + Nat.log2 e.1.toNat + 1)).map (fun e => (base + e.2, 13)) ++
  groups.flatMap (fun g => failIf (!oneUp u g) (base + g.headD 0 / 8) 11)

/-- R265. -/
def stageFailures (m : Problem) (ss : List Stage) : List Failure :=
  ss.zipIdx.flatMap (fun e =>
    let at' := m.h.scheduleOff + 32 * e.2
    failIf (1 < e.1.rule) at' 14 ++ failIf (3 < e.1.policy) (at' + 0x1) 14 ++ failIf (1 < e.1.mode) (at' + 0x2) 14 ++
    failIf (e.1.sweeps = 0) (at' + 0x4) 14 ++ failIf (e.1.traceK = 0 || 2 ^ 20 < e.1.traceK) (at' + 0x18) 14)

def Fetch.replicaTable (rd : Fetch) (m : Problem) : Except Halt (List RepEntry) :=
  rd.table m.h.replicaOff 16 m.h.replicas repEntryOf

def Fetch.schedule (rd : Fetch) (m : Problem) : Except Halt (List Stage) :=
  rd.table m.h.scheduleOff 32 m.h.stages stageOf

def Fetch.row (rd : Fetch) (m : Problem) (r : Nat) : Except Halt (List Byte) :=
  rd (m.h.initOff + r * rowBytes m.h.nvars) (rowBytes m.h.nvars)

/-! ## The steps of R274 -/

/-- Steps 2 and 3. No step of R274 names R251: the index planes are checked with the link directory, the padding of element planes
with step 5 (DESIGN CHOICE, log entry 29). -/
def checkDirectories (rd : Fetch) (va : Nat) : Except Halt Problem := do
  let h := imgHeaderOf (← rd 0 256)
  firstFailure (headerFailures h)
  firstFailure (headerOffsets va h)
  let m ← rd.problem
  firstFailure (directoryOffsets m)
  firstFailure (blockFailures m)
  let fs ← m.links.zipIdx.mapM (fun e => do
    let own := linkFailures m e.2 e.1
    let ix ← if own.isEmpty then rd.index e.1 else pure []
    return own ++ indexFailures e.1.dataOff (m.block e.1.a).size (m.block e.1.b).size 0 none ix)
  firstFailure fs.flatten
  return m

/-- Step 6 on an image whose directories are good. -/
def checkContent (rd : Fetch) (m : Problem) : Except Halt Unit := do
  firstFailure (← groupFailures rd m 0 [] m.groups)
  firstFailure (colourFailures m)
  let rs ← rd.replicaTable m
  let groups ← m.groups.mapM (rd.members m)
  let rows ← (List.range m.h.initRows).mapM (fun r => do return rowFailures m r (← rd.row m r) groups)
  firstFailure (replicaFailures m rs ++ rows.flatten)
  firstFailure (stageFailures m (← rd.schedule m))

/-- The image ranges of the coefficient stream, in its order (R908). -/
def coefficientRanges (m : Problem) : List (Nat × Nat) :=
  m.blocks.flatMap (fun b => [(b.matOff, b.plane.elemLen), (b.plane.expOff, b.plane.expLen)]) ++
  m.links.flatMap (fun l =>
    let p := m.linkPlane l
    [(l.dataOff, if l.kind = 1 then 0 else 4 * l.count), (p.off, p.elemLen), (p.expOff, p.expLen)]) ++
  [(m.h.biasOff, 8 * m.h.nvars), (0x30, 16)]

/-- The coefficient stream of R908. -/
def coefficientStream (rd : Fetch) (m : Problem) : Except Halt (List Byte) := do
  return (← (coefficientRanges m).mapM (fun r => rd r.1 r.2)).flatten

/-! ## What the steps read, as image ranges -/

/-- The header and the directories. -/
def Problem.heads (m : Problem) : List (Nat × Nat) :=
  [(0, 256), (m.h.blockDir, 64 * m.h.blocks), (m.h.linkDir, 32 * m.h.links), (m.h.groupDir, 16 * m.h.groups)]

/-- The index planes of the sparse lists. -/
def Problem.indexes (m : Problem) : List (Nat × Nat) := m.links.map (fun l => (l.dataOff, if l.kind = 1 then 0 else 4 * l.count))

/-- The selected source sections. -/
def Problem.sources (m : Problem) (sel : Nat) : List (Nat × Nat) :=
  (if bit sel 0 then m.blocks.map (fun b => (b.srcOff, 4 * b.pad * b.pad)) else []) ++
  (if bit sel 1 then m.links.map (fun l => (l.srcOff, 4 * l.sourceCount m)) else []) ++
  (if bit sel 2 then [(m.h.biasSrc, 4 * m.h.nvars)] else [])

/-- Group members, replica table, schedule and initial rows. -/
def Problem.tables (m : Problem) : List (Nat × Nat) :=
  m.groups.map (fun g => (g.memberOff, 2 * g.members)) ++
  [(m.h.replicaOff, 16 * m.h.replicas), (m.h.scheduleOff, 32 * m.h.stages), (m.h.initOff, m.h.initRows * rowBytes m.h.nvars)]

/-- The parts of ranges that lie from lo to hi - 1. -/
def clipRanges (lo hi : Nat) (rs : List (Nat × Nat)) : List (Nat × Nat) :=
  rs.filterMap (fun r => if max r.1 lo < min (r.1 + r.2) hi then some (max r.1 lo, min (r.1 + r.2) hi - max r.1 lo) else none)

/-- The structure hash of R910. -/
def structureHash (rd : Fetch) (m : Problem) : Except Halt (List Byte) := do
  let gs ← m.groups.mapM (fun g => rd g.memberOff (2 * g.members))
  return sha384 ((← rd 0 0x40) ++ (← rd m.h.blockDir (64 * m.h.blocks)) ++ (← rd m.h.linkDir (32 * m.h.links)) ++
    (← rd m.h.groupDir (16 * m.h.groups)) ++ gs.flatten ++ (← rd m.h.replicaOff (16 * m.h.replicas)) ++
    (← rd m.h.scheduleOff (32 * m.h.stages)) ++ (← rd m.h.initOff (m.h.initRows * rowBytes m.h.nvars)))

end Sys2Proof.Machine
end

