-- ==== Sys2Proof/Machine/Anneal.lean ====
section
/-! DEFINITION. The arithmetic of an anneal (files 03 and 04): local fields, energies, the visits of a phase, initial
states, schedules, swaps and statistics. States are numbers whose bit i is u[i] (R222). -/

namespace Sys2Proof.Machine

/-! ## The couplings that a unit has read -/

/-- The part of a problem that the blocks of a run need. -/
structure Couplings where
  convention : Nat
  constant : Int
  bias : List Int
  /-- (first variable, size) of each block, in block order -/
  blocks : List (Nat × Nat)
  /-- by variable of the blocks read: the variables it is coupled to and J (R227) -/
  rows : Map (List (Nat × Int))
  /-- one-of-N groups as logical indices -/
  groups : List (List Nat)
  deriving DecidableEq, Repr

/-- A coupling in quanta (R227). -/
def quanta (v : Int × Nat) : Int := coefficient v / 2 ^ 127

/-- The coupling rows of one block: its matrix and the link records whose BLOCK_A it is. -/
def Fetch.blockRows (rd : Fetch) (m : Problem) (k : Nat) : Except Halt (Map (List (Nat × Int))) := do
  let b := m.block k
  let d ← rd.planes b.plane
  let ls ← (m.links.filter (fun l => l.a = k)).mapM (rd.linkData m)
  let cells := (matrixCells b d).map (fun c => (c.i, b.first + c.j, quanta c.v)) ++
    ls.flatMap (fun x => x.cells.map (fun c => (c.i, (m.block x.l.b).first + c.j, quanta c.v)))
  return (List.range b.size).map (fun i =>
    (b.first + i, ((cells.filter (fun c => c.1 = i && c.2.2 != 0)).map (fun c => c.2))))

/-- The couplings of some blocks; rd reads their planes, image the rest. -/
def readCouplings (image rd : Fetch) (m : Problem) (blocks : List Nat) : Except Halt Couplings := do
  let rows ← blocks.mapM (rd.blockRows m)
  let groups ← m.groups.mapM (image.members m)
  return { convention := m.h.convention, constant := m.h.offset, bias := ← image.biases m
           blocks := m.blocks.map (fun b => (b.first, b.size)), rows := rows.flatten, groups := groups }

def Couplings.row (c : Couplings) (i : Nat) : List (Nat × Int) := mapGet [] c.rows i
def Couplings.b (c : Couplings) (i : Nat) : Int := (c.bias[i]?).getD 0

/-- val of R223. -/
def Couplings.val (c : Couplings) (u : Bool) : Int :=
  if c.convention = 0 then (if u then 1 else -1) else if u then 1 else 0

/-- J[i][j]. -/
def Couplings.coupling (c : Couplings) (i j : Nat) : Int := (((c.row i).find? (fun e => e.1 = j)).map (·.2)).getD 0

/-- The group that a variable belongs to (R257). -/
def Couplings.groupOf (c : Couplings) (i : Nat) : Option (List Nat) := c.groups.find? (·.contains i)

/-! ## Energies -/

/-- The terms of R230 and R398 that belong to the variables of the rows read: the biases, and the pairs with i < j. -/
def Couplings.partial (c : Couplings) (u : Nat) : Int :=
  (c.rows.map (fun r =>
    c.b r.1 * c.val (bit u r.1) +
      ((r.2.filter (fun e => r.1 < e.1)).map (fun e => e.2 * c.val (bit u r.1) * c.val (bit u e.1))).sum)).sum

/-- The energy of R230, where every block's rows have been read. -/
def Couplings.energy (c : Couplings) (u : Nat) : Int := c.constant + c.partial u

/-- What the energy changes by from u to v, which differ only in variables of the rows read. -/
def Couplings.change (c : Couplings) (u v : Nat) : Int :=
  (c.rows.map (fun r =>
    let d := c.val (bit v r.1) - c.val (bit u r.1)
    c.b r.1 * d + (r.2.map (fun e =>
      if (mapFind c.rows e.1).isNone then e.2 * d * c.val (bit u e.1)
      else if r.1 < e.1 then e.2 * (c.val (bit v r.1) * c.val (bit v e.1) - c.val (bit u r.1) * c.val (bit u e.1))
      else 0)).sum)).sum

/-! ## Visits (R308, R309, R317) -/

/-- The local field of a visit: terms of its own block take the current state, others that of the phase start (R309). -/
def Couplings.field (c : Couplings) (blk : Nat × Nat) (u start i : Nat) : Int :=
  c.b i + ((c.row i).map (fun e =>
    e.2 * c.val (bit (if blk.1 ≤ e.1 && e.1 < blk.1 + blk.2 then u else start) e.1))).sum

/-- What the decisions of one replica in one phase depend on. -/
structure Decider where
  seed : Nat
  sweep : Nat
  replica : Nat
  rule : Nat
  betaM : Nat
  betaX : Int
  deriving DecidableEq, Repr

/-- A move with energy change e is accepted (R323 to R325). -/
def Decider.accepts (d : Decider) (e : Int) (var tag : Nat) : Bool :=
  let r := drawAt d.seed d.sweep d.replica var tag
  if d.rule = 0 then metropolis d.betaM d.betaX e r else heatBath d.betaM d.betaX e r

/-- State, attempts and acceptances as a phase goes on. -/
structure Visited where
  u : Nat
  attempts : Nat := 0
  accepts : Nat := 0
  deriving DecidableEq, Repr

/-- The energy change of a single-variable move (R232). -/
def Couplings.flipChange (c : Couplings) (h : Int) (u : Bool) : Int :=
  if c.convention = 0 then -2 * c.val u * h else (1 - 2 * c.val u) * h

/-- The visit to variable i of a block (R308). -/
def visit (c : Couplings) (d : Decider) (blk : Nat × Nat) (start : Nat) (s : Visited) (i : Nat) : Visited :=
  match c.groupOf i with
  | none =>
    let ok := d.accepts (c.flipChange (c.field blk s.u start i) (bit s.u i)) i 0x00
    { u := if ok then setBit s.u i (!bit s.u i) else s.u, attempts := s.attempts + 1, accepts := s.accepts + natOfBool ok }
  | some g =>
    if bit s.u i then s else
    match g.find? (bit s.u) with
    | none => s
    | some k =>
      let hj := c.field blk s.u start i
      let hk := c.field blk s.u start k
      let e := if c.convention = 0 then 2 * hj - 2 * hk - 4 * c.coupling i k else hj - hk - c.coupling i k
      let ok := d.accepts e i 0x01
      { u := if ok then setBit (setBit s.u k false) i true else s.u
        attempts := s.attempts + 1, accepts := s.accepts + natOfBool ok }

/-- The phase of some blocks for one replica (R308 to R310). -/
def phaseVisits (c : Couplings) (d : Decider) (blocks : List Nat) (start : Nat) : Visited :=
  blocks.foldl (fun s k =>
    let blk := (c.blocks[k]?).getD (0, 0)
    (List.range blk.2).foldl (fun s i => visit c d blk start s (blk.1 + i)) s) { u := start }

/-- The block of a variable. -/
def Couplings.blockOf (c : Couplings) (i : Nat) : Nat :=
  (findIdx (fun b => decide (b.1 ≤ i) && decide (i < b.1 + b.2)) c.blocks 0).getD 0

/-- The collisions of R313 whose lower variable has its row read, from the states at the start and the end. -/
def collisions (c : Couplings) (start fin : Nat) : Nat :=
  (c.rows.map (fun r =>
    if bit start r.1 = bit fin r.1 then 0
    else (r.2.filter (fun e =>
      r.1 < e.1 && c.blockOf r.1 != c.blockOf e.1 && bit start e.1 != bit fin e.1)).length)).sum

/-! ## Initial states (R262, R341) -/

/-- The initial state of replica n; rows are the initial-state rows as numbers. -/
def initialState (c : Couplings) (nvars seed n : Nat) (e : RepEntry) (rows : List Nat) : Nat :=
  if e.init = 1 then (rows[e.initRow]?).getD 0
  else
    let ups := c.groups.map (fun g =>
      if e.init = 0 then g.headD 0
      else (g[drawAt seed 0 n (g.headD 0) 0x03 * g.length / 2 ^ 32]?).getD 0)
    let singles := if e.init = 0 then [] else
      (List.range nvars).filter (fun v => (c.groupOf v).isNone && drawAt seed 0 n v 0x02 / 2 ^ 31 = 1)
    (ups ++ singles).foldl (fun u v => setBit u v true) 0

/-! ## Counts, windows and best states (R335 to R339) -/

/-- β as the schedule gives it at the start of a stage (R328). -/
def Replica.stageBeta (st : Stage) (ladder : List (Nat × Int)) (r : Replica) : Replica :=
  if st.policy = 3 then
    let b := (ladder[r.rank]?).getD (0, 0)
    { r with betaM := b.1, betaX := b.2, winAttempts := 0, winAccepts := 0 }
  else { r with betaM := st.betaM, betaX := st.betaX, winAttempts := 0, winAccepts := 0 }

/-- The energy at a phase end: counts, the window of R337, and the best state (R314, R316, R338). own masks the
variables that the replica's best state takes (R403). -/
def Replica.phaseEnd (sweep fin own attempts accepts coll : Nat) (energy : Int) (r : Replica) : Replica :=
  let r := { r with
    energy := energy
    attempts := r.attempts.add attempts, accepts := r.accepts.add accepts, collisions := r.collisions.add coll
    winAttempts := r.winAttempts + attempts, winAccepts := r.winAccepts + accepts
    winRange := match r.winRange with
      | none => some (energy, energy)
      | some w => some (max w.1 energy, min w.2 energy) }
  if energy < r.bestEnergy then
    { r with bestEnergy := energy, bestSweep := sweep, best := (fin &&& own) ||| (r.best ^^^ (r.best &&& own)) }
  else r

/-- SPREAD and IMPROVE at the end of a window (R337); the next window begins. -/
def Replica.windowEnd (r : Replica) : Replica :=
  { r with
    spread := match r.winRange with
      | some w => w.1 - w.2
      | none => 0
    improve := r.winBest0 - r.bestEnergy
    winRange := none, winBest0 := r.bestEnergy }

/-- A new window begins (R337, at the start of a stage). -/
def Replica.windowStart (r : Replica) : Replica :=
  { r with winRange := none, winBest0 := r.bestEnergy, winAttempts := 0, winAccepts := 0 }

/-! ## Actions at interval (R327, R329) -/

/-- POLICY 1 and 2 at an interval; the window of R329 restarts. -/
def Replica.adjust (st : Stage) (r : Replica) : Replica :=
  if st.policy = 1 then
    let b := scaleBeta r.betaM r.betaX st.paramB (-16)
    { r with betaM := b.1, betaX := b.2 }
  else if st.policy = 2 then
    let c := r.winAccepts * 2 ^ 32
    let t := st.paramB * r.winAttempts
    let b := if r.winAttempts = 0 then (r.betaM, r.betaX)
      else if t < c then scaleBeta r.betaM r.betaX 17 (-4)
      else if c < t then scaleBeta r.betaM r.betaX 15 (-4)
      else (r.betaM, r.betaX)
    { r with betaM := b.1, betaX := b.2, winAttempts := 0, winAccepts := 0 }
  else r

/-- The replica at a rank. -/
def atRank (rs : List Replica) (rank : Nat) : Option (Nat × Replica) := (rs.zipIdx.find? (fun e => e.1.rank = rank)).map (fun e => (e.2, e.1))

/-- The swap of ranks r and r + 1 in exchange e is formed and accepted (R331, R332). -/
def swapDecision (seed sweep : Nat) (rs : List Replica) (r : Nat) : Bool :=
  match atRank rs r, atRank rs (r + 1) with
  | some (n, a), some (_, b) =>
    swapAccepted a.betaM a.betaX a.energy b.betaM b.betaX b.energy (drawAt seed sweep n r 0xFE)
  | _, _ => false

/-- One replica exchange (R331 to R334): pairs of ranks r, r + 1 with r of the parity of e. -/
def exchangeReplicas (seed sweep e : Nat) (rs : List Replica) : List Replica :=
  let ranks := (List.range (rs.length - 1)).filter (fun r => r % 2 = e % 2)
  rs.map (fun x =>
    match ranks.find? (fun r => x.rank = r || x.rank = r + 1) with
    | none => x
    | some r =>
      let x := { x with swapTries := x.swapTries.add 1 }
      if swapDecision seed sweep rs r then
        let other := if x.rank = r then r + 1 else r
        match atRank rs other with
        | some (_, y) => { x with swaps := x.swaps.add 1, rank := other, betaM := y.betaM, betaX := y.betaX }
        | none => x
      else x)

/-! ## Records -/

/-- The 128 bytes of a statistics record (R335). -/
def Replica.stats (r : Replica) : List Byte :=
  pack 128 [(0x0, 8, r.attempts.reg), (0x8, 8, r.accepts.reg), (0x10, 8, r.collisions.reg), (0x18, 8, r.swapTries.reg),
    (0x20, 8, r.swaps.reg), (0x28, 8, r.bestSweep), (0x30, 16, wrap 128 r.bestEnergy), (0x40, 16, wrap 128 r.spread),
    (0x50, 16, wrap 128 r.improve), (0x60, 16, wrap 128 r.energy), (0x70, 4, r.betaM), (0x74, 1, wrap 8 r.betaX),
    (0x75, 1, r.rank)]

def counterOf (v : Nat) : Counter := { count := v % 2 ^ 48, ovf := bit v 63 }

/-- The 192 bytes of a replica checkpoint record (R413). -/
def Replica.checkpoint (r : Replica) : List Byte :=
  let w := r.winRange.getD (-(2 ^ 95), 2 ^ 95 - 1)
  r.stats ++ pack 64 [(0x0, 8, r.winAttempts), (0x8, 8, r.winAccepts), (0x10, 16, wrap 128 w.1), (0x20, 16, wrap 128 w.2),
    (0x30, 16, wrap 128 r.winBest0)]

/-- A replica from its checkpoint record and its state rows (R413). -/
def replicaOf (b : List Byte) (u best : Nat) : Replica :=
  let hi := fieldInt b 0x90 16
  let lo := fieldInt b 0xA0 16
  { u := u, best := best, start := u
    attempts := counterOf (fieldAt b 0x0 8), accepts := counterOf (fieldAt b 0x8 8), collisions := counterOf (fieldAt b 0x10 8)
    swapTries := counterOf (fieldAt b 0x18 8), swaps := counterOf (fieldAt b 0x20 8), bestSweep := fieldAt b 0x28 8
    bestEnergy := fieldInt b 0x30 16, spread := fieldInt b 0x40 16, improve := fieldInt b 0x50 16
    energy := fieldInt b 0x60 16, betaM := fieldAt b 0x70 4, betaX := fieldInt b 0x74 1, rank := fieldAt b 0x75 1
    winAttempts := fieldAt b 0x80 8, winAccepts := fieldAt b 0x88 8
    winRange := if hi = -(2 ^ 95) && lo = 2 ^ 95 - 1 then none else some (hi, lo)
    winBest0 := fieldInt b 0xB0 16 }

/-- A trace record (R343). -/
def traceRecord (typ flags replica stage sweeps : Nat) (r : Replica) : List Byte :=
  pack 64 [(0x0, 1, typ), (0x1, 1, flags), (0x2, 2, replica), (0x4, 2, stage), (0x6, 1, r.rank), (0x7, 1, wrap 8 r.betaX),
    (0x8, 8, sweeps), (0x10, 16, wrap 128 r.energy), (0x20, 16, wrap 128 r.bestEnergy), (0x30, 6, r.accepts.count),
    (0x36, 6, r.collisions.count), (0x3C, 4, r.betaM)]

/-- A gap marker (R344). -/
def gapRecord (replica : Nat) (g : Gap) : List Byte :=
  pack 64 [(0x0, 1, 1), (0x2, 2, replica), (0x8, 8, g.first), (0x10, 8, g.last), (0x18, 8, g.lost)]

/-- A state row of V variables (R362). -/
def stateRow (v u : Nat) : List Byte := leBytes (rowBytes v) u

end Sys2Proof.Machine
end

