-- ==== Sys2Proof/Machine/RunArea.lean ====
section
/-! DEFINITION. The run-state area, the rotation plan with its staging area, the exchange descriptor, and checkpoints (file
05, R361 to R369, R385 to R388, R412 to R415, R419). -/

namespace Sys2Proof.Machine

/-- A reader of an address space from an address on. -/
def fetchAt (s : State) (asid va : Nat) : Fetch := fun off n => readVa s asid (va + off) n

/-- A condition that a launch's descriptors must meet. -/
def demand (ok : Bool) (st : Nat) : Except Halt Unit := if ok then .ok () else .error (.status st)

/-! ## The header (R361) -/

def areaOf (va : Nat) (b : List Byte) : RunArea :=
  { va := va, size := fieldAt b 0x8 8, stats := fieldAt b 0x10 8, state := fieldAt b 0x18 8, best := fieldAt b 0x20 8
    rot := fieldAt b 0x28 8, exch := fieldAt b 0x30 8, stageVa := fieldAt b 0x38 8, stageBytes := fieldAt b 0x40 8
    ckpt0 := fieldAt b 0x48 8, ckpt1 := fieldAt b 0x50 8, ckptBytes := fieldAt b 0x58 8, every := fieldAt b 0x60 4 }

/-- An item of an area: its offset and its length. -/
abbrev Item := Nat × Nat

/-- Every item lies within the area. -/
def RunArea.holds (a : RunArea) (items : List Item) : Bool := items.all (fun x => x.1 + x.2 ≤ a.size)

/-- The items that the header locates, for an image of R replicas and V variables. -/
def RunArea.items (a : RunArea) (R V : Nat) : List Item :=
  [(0, 256), (a.stats, 128 * R), (a.state, R * rowBytes V), (a.best, R * rowBytes V), (a.ckpt0, a.ckptBytes), (a.ckpt1, a.ckptBytes)]

/-- R361 for an image of R replicas and V variables, but for the end of the last item. -/
def areaGood (a : RunArea) (b : List Byte) (R V : Nat) : Bool :=
  fieldAt b 0 4 = 0x52535441 && fieldAt b 0x4 2 = 1 && a.va % 4096 = 0 && a.stageVa % 4096 = 0 && a.stageBytes % 8192 = 0 &&
  a.ckptBytes % 4096 = 0 && [a.stats, a.state, a.best, a.rot, a.exch, a.ckpt0, a.ckpt1].all (fun off => off % 64 = 0) &&
  (a.rot != 0 || a.stageVa = 0) && (a.rot = 0 || a.exch = 0) && a.holds (a.items R V)

/-- AREA_SIZE reaches to the end of the last item (R361). -/
def RunArea.exact (a : RunArea) (items : List Item) : Bool := items.any (fun x => x.1 + x.2 = a.size)

/-! ## Checkpoint layout (R412, R415) -/

structure CkptLayout where
  kind : Nat
  fields : Nat
  stateOff : Nat
  bestOff : Nat
  fieldOff : Nat
  size : Nat
  deriving DecidableEq, Repr

/-- The checkpoint of a run of R replicas and V variables that stores some fields per replica: the items follow the header
in the order of their offsets (DEDUCED, log entry 27). -/
def ckptLayout (kind R V fields : Nat) : CkptLayout :=
  let st := 0x180 + 192 * R
  let best := st + R * rowBytes V
  let fld := best + R * rowBytes V
  { kind := kind, fields := fields, stateOff := st, bestOff := best, fieldOff := if fields = 0 then 0 else fld
    size := fld + 8 * fields * R }

/-! ## The rotation plan (R366 to R369) -/

/-- The image ranges of the planes that an entry stages, in the order of R368.
DEDUCED, log entry 53: order of items within the staging area. -/
def stagedItems (m : Problem) (blocks : List Nat) : List (Nat × Nat) :=
  blocks.map (fun k => ((m.block k).matOff, (m.block k).plane.fin - (m.block k).matOff)) ++
    (m.links.filter (fun l => blocks.contains l.a)).map (fun l => (l.dataOff, (m.linkPlane l).fin - l.dataOff))

/-- The image ranges of the biases that an entry stages. -/
def stagedBiases (m : Problem) (blocks : List Nat) : List (Nat × Nat) :=
  blocks.map (fun k => (m.h.biasOff + 8 * (m.block k).first, 8 * (m.block k).size))

/-- The staged bytes of an entry (R368). -/
def stagedBytes (m : Problem) (blocks : List Nat) : Nat :=
  ((stagedItems m blocks).map (fun e => up64 e.2)).sum + up64 ((stagedBiases m blocks).map (·.2)).sum

def rising : List Nat → Bool
  | a :: b :: l => a < b && rising (b :: l)
  | _ => true

/-- The plan of an area, checked (R366, R367, R369), with its items. -/
def readPlan (rd : Fetch) (a : RunArea) (m : Problem) : Except Halt (List (Nat × List Nat) × List Item) := do
  demand (a.holds [(a.rot, 64)]) 0x202
  let h ← rd a.rot 64
  let n := fieldAt h 0 4
  let off := fieldAt h 0x8 8
  demand (1 ≤ n && n ≤ 2 ^ 24 && a.holds [(off, 16 * n)]) 0x202
  let es ← rd.table off 16 n (fun b => (fieldAt b 0 4, fieldAt b 0x4 4, fieldAt b 0x8 8))
  let plan ← es.mapM (fun e => do
    demand (1 ≤ e.1 && 1 ≤ e.2.1 && a.holds [(e.2.2, 4 * e.1)]) 0x202
    return (e.2.1, ← rd.table e.2.2 4 e.1 leNat))
  let all := plan.flatMap (·.2)
  demand (plan.all (fun e => rising e.2 && stagedBytes m e.2 ≤ a.stageBytes / 2)) 0x202
  demand (all.length = m.h.blocks && (List.range m.h.blocks).all all.contains) 0x202
  return (plan, (a.rot, 64) :: (off, 16 * n) :: es.map (fun e => (e.2.2, 4 * e.1)))

/-- The rotation whose staging brings in the bytes of rotation rho: with one entry, the first (R378). -/
def Run.staging (r : Run) (rho : Nat) : Nat := if r.plan.length = 1 then r.firstRotation else rho

/-- The half of the staging area of a rotation (R378). -/
def Run.half (r : Run) (rho : Nat) : Nat := r.area.stageVa + r.staging rho % 2 * (r.area.stageBytes / 2)

/-- Each staged item with its place from the start of the half. -/
def stagePlaces : Nat → List (Nat × Nat) → List (Nat × Nat × Nat)
  | _, [] => []
  | p, e :: es => (p, e) :: stagePlaces (p + up64 e.2) es

/-- A reader that finds the planes of an entry in its half of the staging area, everything else in the image. -/
def stagedFetch (image stage : Fetch) (m : Problem) (blocks : List Nat) : Fetch := fun off n =>
  match (stagePlaces 0 (stagedItems m blocks)).find? (fun e => e.2.1 ≤ off && off + n ≤ e.2.1 + e.2.2) with
  | some e => stage (e.1 + (off - e.2.1)) n
  | none => image off n

/-- Bytes rounded up to a multiple of 64 (R368), with zeros (DESIGN CHOICE, log entry 53). -/
def padded64 (bs : List Byte) : List Byte := bs ++ List.replicate (up64 bs.length - bs.length) 0#8

/-- The writes that bring an entry into its half (R368, R376, R379). -/
def stageWrites (image : Fetch) (m : Problem) (blocks : List Nat) : Except Halt (List (Nat × List Byte)) := do
  let items := stagePlaces 0 (stagedItems m blocks)
  let planes ← items.mapM (fun e => do return (e.1, padded64 (← image e.2.1 e.2.2)))
  let bs ← (stagedBiases m blocks).mapM (fun e => image e.1 e.2)
  let fin := ((stagedItems m blocks).map (fun e => up64 e.2)).sum
  return planes ++ [(fin, padded64 bs.flatten)]

/-! ## The exchange descriptor (R385, R386) -/

def memberOf (b : List Byte) : Member :=
  { device := fieldAt b 0 2 % 4096, firstBlock := fieldAt b 0x4 4, blockCount := fieldAt b 0x8 4
    inboxGva := fieldAt b 0x10 8, ackGva := fieldAt b 0x18 8 }

/-- The ranges of the members follow one another over all blocks (R386). -/
def membersCover : Nat → Nat → List Member → Bool
  | next, blocks, [] => next = blocks
  | next, blocks, m :: ms => m.firstBlock = next && 1 ≤ m.blockCount && membersCover (next + m.blockCount) blocks ms

/-- The exchange of an area, checked (R385, R386), with its items. -/
def readExch (rd : Fetch) (a : RunArea) (m : Problem) : Except Halt (Exch × List Item) := do
  demand (a.holds [(a.exch, 64)]) 0x202
  let h ← rd a.exch 64
  let n := fieldAt h 0x2 2
  let self := fieldAt h 0x4 2
  let inbox := fieldAt h 0x28 8
  let sub := inbox / n
  let items := [(a.exch, 64), (fieldAt h 0x18 8, 32 * n), (fieldAt h 0x20 8, inbox), (fieldAt h 0x30 8, 8 * n)]
  demand (fieldAt h 0 1 ≤ 1 && 2 ≤ n && n ≤ 256 && self < n && 1 ≤ fieldAt h 0x8 4 && inbox = n * sub && sub % 4096 = 0 &&
    8192 ≤ sub && a.holds items) 0x202
  let ms ← rd.table (fieldAt h 0x18 8) 32 n memberOf
  demand (membersCover 0 m.h.blocks ms) 0x202
  return ({ loose := fieldAt h 0 1 = 0, members := ms, self := self, timeoutUs := fieldAt h 0x8 4
            epoch := fieldAt h 0x10 8, inboxOff := fieldAt h 0x20 8, sub := sub, ackOff := fieldAt h 0x30 8 }, items)

def Exch.member (x : Exch) (d : Nat) : Member := (x.members[d]?).getD ⟨0, 0, 0, 0, 0⟩
def Exch.me (x : Exch) : Member := x.member x.self
def Member.owns (m : Member) (block : Nat) : Bool := m.firstBlock ≤ block && block < m.firstBlock + m.blockCount
def Member.blocks (m : Member) : List Nat := (List.range m.blockCount).map (fun i => m.firstBlock + i)

/-- The members other than this one. -/
def Exch.others (x : Exch) : List Nat := (List.range x.members.length).filter (· != x.self)

/-- Member d receives the variables of a block that another owns: the block is linked to one of d's (R388). -/
def Exch.receives (x : Exch) (m : Problem) (d block : Nat) : Bool :=
  !(x.member d).owns block && m.links.any (fun l => l.b = block && (x.member d).owns l.a)

/-- Member d receives some variable of member e. -/
def Exch.receivesFrom (x : Exch) (m : Problem) (d e : Nat) : Bool := (x.member e).blocks.any (x.receives m d)

/-! ## What a run anneals -/

/-- The blocks that a run anneals in its present rotation on this device (R371, R385). -/
def Run.blocks (r : Run) (m : Problem) : List Nat :=
  match r.exch with
  | some x => x.me.blocks
  | none =>
    if r.plan.isEmpty then List.range m.h.blocks
    else ((r.plan[r.rotation % r.plan.length]?).getD (0, [])).2

/-- The reader of coefficient planes: the staging area in a rotated run, else the image. -/
def Run.planes (r : Run) (s : State) (image : Fetch) (m : Problem) : Fetch :=
  if r.plan.isEmpty then image
  else stagedFetch image (fetchAt s r.asid (r.half r.rotation)) m (r.blocks m)

/-- The colours that some blocks hold, ascending (R307, R371). -/
def coloursOf (m : Problem) (blocks : List Nat) : List Nat := (blocks.map (fun k => (m.block k).colour)).foldl setInsert []

/-- The blocks of each phase of a sweep (R307, R371). A multi-device run takes the phases of the whole image (R409). -/
def Run.phases (r : Run) (m : Problem) (st : Stage) : List (List Nat) :=
  let bs := r.blocks m
  if st.mode = 1 then [bs]
  else
    let cs := coloursOf m (if r.exch.isSome then List.range m.h.blocks else bs)
    cs.map (fun c => bs.filter (fun k => (m.block k).colour = c))

/-- The fields that a checkpoint of the run stores per replica (R415). -/
def Run.fieldCount (r : Run) (m : Problem) : Nat :=
  if !r.plan.isEmpty then 0 else ((r.blocks m).map (fun k => (m.block k).size)).sum

def Run.layout (r : Run) (m : Problem) : CkptLayout :=
  ckptLayout ((if r.plan.isEmpty then 0 else 1) + (if r.exch.isSome then 2 else 0)) m.h.replicas m.h.nvars (r.fieldCount m)

/-- The variables that the run's best states take (R403): all, or the owned ones. -/
def Run.ownMask (r : Run) (m : Problem) : Nat :=
  match r.exch with
  | none => 2 ^ m.h.nvars - 1
  | some x => (x.me.blocks.flatMap (fun k => (List.range (m.block k).size).map (fun i => (m.block k).first + i))).foldl
      (fun u v => setBit u v true) 0

/-- The ranges of image and staging area that a step reads for the planes of some blocks, as virtual addresses. -/
def Run.planeRanges (r : Run) (imageVa : Nat) (m : Problem) (blocks : List Nat) : List Item :=
  let shift := fun (base : Nat) (rs : List Item) => rs.map (fun e => (base + e.1, e.2))
  if r.plan.isEmpty then shift imageVa (stagedItems m blocks ++ stagedBiases m blocks)
  else shift (r.half r.rotation) ((stagePlaces 0 (stagedItems m (r.blocks m))).filterMap (fun e =>
      if (stagedItems m blocks).contains e.2 then some (e.1, e.2.2) else none)) ++
    shift imageVa (stagedBiases m blocks)

/-- What a step of a run reads of its image: header, directories, some tables, and the planes of some blocks. -/
def Run.readRanges (r : Run) (imageVa : Nat) (m : Problem) (tables : List Item) (blocks : List Nat) : List Item :=
  (m.heads ++ tables).map (fun e => (imageVa + e.1, e.2)) ++ r.planeRanges imageVa m blocks

/-! ## Rows and records in the area -/

/-- The writes of the current-state rows, the best-state rows and the statistics records (R335, R362 to R364). -/
def areaRows (a : RunArea) (V : Nat) (rs : List Replica) : List (Nat × List Byte) :=
  [(a.state, rs.flatMap (fun r => stateRow V r.u)), (a.best, rs.flatMap (fun r => stateRow V r.best)),
    (a.stats, rs.flatMap Replica.stats)]

/-! ## Checkpoints -/

/-- A slot is valid (R419): the slot's SEQ, none where it is not. -/
def slotSeq (b : List Byte) : Option Nat :=
  let commit := fieldAt b 0 8
  if commit != 0 && commit = fieldAt b 0x8 8 && fieldAt b 0x80 4 = 0x54504B43 && fieldAt b 0x84 2 = 1 then some commit else none

/-- The 384 bytes of a checkpoint header from its MAGIC on, offsets from 0x80 (R412). -/
def ckptBody (r : Run) (c : Ctx) (l : CkptLayout) : List Byte :=
  putAt (pack 0x100 [(0x0, 4, 0x54504B43), (0x4, 2, 1), (0x6, 1, l.kind), (0x7, 1, r.seedSrc), (0x8, 8, l.size),
    (0x10, 8, r.seed), (0x18, 8, r.sweep), (0x20, 8, r.exchanges), (0x28, 8, r.rotation), (0x30, 4, r.dwellDone),
    (0x34, 4, r.stageSweep), (0x38, 2, r.stage), (0x3A, 2, c.replicas),
    (0x3C, 2, match r.exch with
      | some x => x.self
      | none => 0),
    (0x70, 8, c.nvars), (0x78, 8, l.fields), (0x80, 8, 0x180), (0x88, 8, l.stateOff), (0x90, 8, l.bestOff),
    (0x98, 8, l.fieldOff)]) 0x40 c.coeffRoot

/-- The local fields of a replica that a checkpoint stores (R415), i48 sign-extended to 8 bytes. -/
def fieldBytes (cp : Couplings) (r : Replica) : List Byte :=
  cp.rows.flatMap (fun row =>
    leBytes 8 (wrap 64 (cp.b row.1 + ((row.2.map (fun e => e.2 * cp.val (bit r.u e.1))).sum))))

/-- The bytes of a checkpoint from 0x80 to SIZE - 1. -/
def ckptContent (r : Run) (c : Ctx) (m : Problem) (cp : Couplings) : List Byte :=
  let l := r.layout m
  ckptBody r c l ++ r.reps.flatMap Replica.checkpoint ++ r.reps.flatMap (fun x => stateRow m.h.nvars x.u) ++
    r.reps.flatMap (fun x => stateRow m.h.nvars x.best) ++ (if l.fields = 0 then [] else r.reps.flatMap (fieldBytes cp))

/-- The bytes of a checkpoint from SEQ on, offsets from 0x8. -/
def ckptBytes (seq cricket traceN : Nat) (pause : Bool) (content : List Byte) : List Byte :=
  putAt (pack 0x78 [(0x0, 8, seq), (0x8, 8, cricket), (0x10, 8, traceN), (0x18, 1, natOfBool pause)]) 0x38 (sha384 content) ++
    content

/-- The slot that the next checkpoint takes (step 1 of Writing a checkpoint). -/
def nextSlot (a : RunArea) (ckptVa : Nat) : Nat := if ckptVa = a.va + a.ckpt0 then a.ckpt1 else a.ckpt0

end Sys2Proof.Machine
end

