-- ==== Sys2Proof/Machine/Program.lean ====
section
/-! DEFINITION. The program image and its checks (file 06, R436 to R442, R456, R458, R489, R1090, R1092; file 09, R766). -/

namespace Sys2Proof.Machine

/-! ## The header (R437) -/

def headerOf (b : List Byte) : ProgHeader :=
  { lcores := fieldAt b 0x6 1, marks := fieldAt b 0x7 1, clusters := fieldAt b 0x8 32, steps := fieldAt b 0x28 4
    argBytes := fieldAt b 0x2C 4, stepTableOff := fieldAt b 0x30 8, cprogDirOff := fieldAt b 0x38 8
    imageSize := fieldAt b 0x40 8, placeOff := fieldAt b 0x48 8, placeCount := fieldAt b 0x50 4 }

/-- An item of the image lies where R436 allows. -/
def ProgHeader.holds (h : ProgHeader) (off n : Nat) : Bool := off % 64 = 0 && off + n ≤ h.imageSize

/-- What the 256 bytes of a header show of R436 and R437 (check 6 of R828). -/
def headerGood (va : Nat) (b : List Byte) : Bool :=
  let h := headerOf b
  va % 4096 = 0 && fieldAt b 0 4 = 0x4D504752 && fieldAt b 0x4 2 = 1 && 1 ≤ h.lcores && h.lcores ≤ 64 && h.marks < 16 &&
  1 ≤ h.steps && h.steps ≤ 2 ^ 20 && h.argBytes ≤ 65536 && h.argBytes % 8 = 0 &&
  256 ≤ h.imageSize && h.holds h.stepTableOff (32 * h.steps) && h.holds h.cprogDirOff (32 * popCount 256 h.clusters) &&
  h.holds h.placeOff (4 * h.placeCount)

/-! ## Reading -/

def stepEntryOf (b : List Byte) : StepEntry :=
  { nhp := fieldAt b 0 4, txEnt := fieldAt b 0x4 4, repeatMax := fieldAt b 0x8 8, txGddr := fieldAt b 0x10 4
    txCxl := fieldAt b 0x14 4, txSilk := fieldAt b 0x18 4, txMesh := fieldAt b 0x1C 4 }

/-- The step table (R438). -/
def Fetch.steps (rd : Fetch) (h : ProgHeader) : Except Halt (List StepEntry) := rd.table h.stepTableOff 32 h.steps stepEntryOf

/-- A cluster program, and the image ranges that hold its operations and descriptors. -/
structure CProg where
  cluster : Nat
  ops : List OpWord
  descs : List Desc
  items : List (Nat × Nat) := []
  deriving DecidableEq, Repr

/-- What a program image holds. -/
structure Program where
  h : ProgHeader
  steps : List StepEntry
  progs : List CProg
  place : List Nat
  deriving DecidableEq, Repr

def clustersOf (h : ProgHeader) : List Nat := (List.range Config.clusters).filter (bit h.clusters)

/-- The cluster program of a directory entry (R439). -/
def Fetch.cprog (rd : Fetch) (h : ProgHeader) (c : Nat) (b : List Byte) : Except Halt CProg := do
  let nd := fieldAt b 0x2 2
  let no := fieldAt b 0x4 4
  demand (fieldAt b 0 2 = c && 1 ≤ no && no ≤ 2 ^ 28) 0x200
  demand (h.holds (fieldAt b 0x8 8) (64 * no) && h.holds (fieldAt b 0x10 8) (32 * nd)) 0x200
  let ops ← rd.table (fieldAt b 0x8 8) 64 no opOf
  let descs ← rd.table (fieldAt b 0x10 8) 32 nd descOf
  return { cluster := c, ops := ops, descs := descs, items := [(fieldAt b 0x8 8, 64 * no), (fieldAt b 0x10 8, 32 * nd)] }

/-- The whole image; a break of R439 makes it invalid. -/
def Fetch.program (rd : Fetch) (h : ProgHeader) : Except Halt Program := do
  let steps ← rd.steps h
  let dir ← rd.table h.cprogDirOff 32 (popCount 256 h.clusters) id
  let progs ← ((clustersOf h).zip dir).mapM (fun e => rd.cprog h e.1 e.2)
  let place ← if h.placeOff = 0 then pure [] else rd.table h.placeOff 4 h.placeCount leNat
  return { h := h, steps := steps, progs := progs, place := place }

/-- The image ranges of the items that every cluster shares. -/
def Program.items (m : Program) : List (Nat × Nat) :=
  [(0, 256), (m.h.stepTableOff, 32 * m.h.steps), (m.h.cprogDirOff, 32 * popCount 256 m.h.clusters),
    (m.h.placeOff, 4 * m.place.length)]

/-- The end of the last item of the image (R437). -/
def Program.fin (m : Program) : Nat := ((m.items ++ m.progs.flatMap (·.items)).map (fun e => e.1 + e.2)).foldl max 0

/-- What the controller of a cluster reads of the image. -/
def Program.readsOf (m : Program) (c : Nat) : List (Nat × Nat) :=
  m.items ++ (m.progs.filter (fun p => p.cluster = c)).flatMap (·.items)

/-! ## Steps of a cluster program -/

/-- The bodies of the steps of a program, each without its STEP_END. -/
def bodiesFrom : List OpWord → List OpWord → List (List OpWord)
  | acc, [] => if acc.isEmpty then [] else [acc.reverse]
  | acc, o :: os => if o.opcode = 1 then acc.reverse :: bodiesFrom [] os else bodiesFrom (o :: acc) os

def CProg.bodies (p : CProg) : List (List OpWord) := bodiesFrom [] p.ops

/-- R440. -/
def CProg.stepsGood (p : CProg) (n : Nat) : Bool :=
  (p.ops.filter (fun o => o.opcode = 1)).length = n && (p.ops.getLast?.map (·.opcode)) == some 1

def OpWord.isLong (o : OpWord) : Bool := o.opcode = 0x40 || o.opcode = 0x42

/-! ## Operation words (R456) -/

def opcodes : List Nat :=
  [0, 1, 2, 3, 4, 0x08, 0x09, 0x10, 0x11, 0x12] ++ [0x20, 0x21, 0x22, 0x23, 0x24, 0x25, 0x26] ++
  [0x30, 0x31, 0x32, 0x33, 0x34, 0x35] ++ [0x40, 0x41, 0x42, 0x43, 0x44]

/-- The operands that an operation names: its descriptor indices A, B, C and D. -/
def OpWord.uses (o : OpWord) : List Nat :=
  let a := [o.a]
  let d := [o.d]
  match o.opcode with
  | 0x03 | 0x04 | 0x09 | 0x12 | 0x35 => d
  | 0x11 => a ++ [o.b]
  | 0x22 => a ++ [o.b] ++ d
  | 0x23 => a ++ [o.b, o.c] ++ d
  | 0x20 | 0x21 | 0x24 | 0x25 | 0x26 | 0x30 | 0x31 | 0x32 | 0x33 | 0x41 => a ++ d
  | 0x34 => a
  | _ => []

/-- A format code is none of the reserved ones, nor FP64, which no descriptor may name (R150). -/
def knownFormat (f : Nat) : Bool := f ≤ 8 || f = 10

/-- The formats that R150 and the operation list allow in the places of an operation. A STORE may name INT32 and WIDE, whose
tensors are drain outputs, and a LOAD, SEND or MCAST may name INT32, whose tensors are Vector-engine operands and results
(DEDUCED, log entry 25). -/
def formatsAllowed (o : OpWord) (fmt : Nat → Nat) : Bool :=
  match o.opcode with
  | 0x11 => fmt o.a ≤ 7 && fmt o.b ≤ 7
  | 0x09 | 0x12 => fmt o.d != 7
  | 0x20 | 0x21 | 0x24 | 0x26 => fmt o.a ≤ 8 && fmt o.d ≤ 8
  | 0x22 => fmt o.a ≤ 8 && fmt o.b ≤ 8 && fmt o.d ≤ 8
  | 0x23 => fmt o.a ≤ 8 && fmt o.b ≤ 8 && fmt o.c ≤ 8 && fmt o.d ≤ 8
  | 0x25 => fmt o.a ≤ 8
  | 0x34 => fmt o.a = 10
  | 0x41 => fmt o.a = 10 && fmt o.d ≤ 6
  | 0x03 | 0x04 | 0x35 => fmt o.d ≤ 7
  | 0x30 | 0x32 | 0x33 => fmt o.a ≤ 8 && fmt o.d ≤ 8
  | _ => true

/-- The word of immediate n, where it stands in the operation word and not in the argument block. -/
def OpWord.word (o : OpWord) (n : Nat) : Option Nat := if o.arg n then none else some ((o.imm[n]?).getD 0)

/-- A condition on an immediate that stands in the operation word. -/
def OpWord.check (o : OpWord) (n : Nat) (p : Nat → Bool) : Bool :=
  match o.word n with
  | some v => p v
  | none => true

/-- The conditions of R480 on a VRED, so far as its word shows them. -/
def vredWord (o : OpWord) (df : Nat) : Bool :=
  o.check 0 (fun v => bits v 0 8 ≤ 2 && goodPoint (immI8 v 8) && (bits v 0 8 = 0 || bits v 8 8 = 0)) &&
  o.check 1 (fun v => (drainWordOf v).valid 1 && (drainWordOf v).format = df && !(drainWordOf v).clear) &&
  (match o.word 0, o.word 1 with
    | some k, some v => bits k 0 8 = 0 || ((drainWordOf v).shift = 0 && (drainWordOf v).format != 10)
    | _, _ => true)

/-- A cluster that takes part (R1096). -/
def ProgHeader.has (h : ProgHeader) (c : Nat) : Bool := bit h.clusters c

/-- The invalid operands of R458, and R1090, in an operation word. -/
def wordGood (h : ProgHeader) (p : CProg) (o : OpWord) : Bool :=
  let d := (p.descs[o.d]?).getD ⟨15, false, false, false, 0, 0, 0, 0, 0, 0⟩
  match o.opcode with
  | 0x08 | 0x10 => o.check 0 (fun v => goodPoint (immI8 v 0))
  | 0x09 => o.check 0 (fun v => (drainWordOf v).valid 16 && (drainWordOf v).tile = o.aux % 16) &&
      (d.isVirtual == (o.cores = 0))
  | 0x12 => o.check 0 (fun v => (drainWordOf v).valid 4 && (drainWordOf v).tile = o.aux % 4)
  | 0x25 => vredWord o d.format
  | 0x32 => o.check 0 (fun v => h.has (bits v 0 8) && bits v 8 6 < h.lcores)
  | 0x33 => o.check 0 (fun v => v < 2 ^ h.lcores) && o.check 1 (fun v => bits v 0 8 ≤ bits v 8 8 &&
      (List.range Config.clusters).all (fun c => c < bits v 0 8 || bits v 8 8 < c || h.has c))
  | 0x34 => o.check 0 (fun v => h.has (bits v 0 8))
  | 0x40 => o.check 1 (fun v => v % 8 = 0 && v + 64 ≤ h.argBytes)
  | 0x42 => o.check 0 (fun v => v % 8 = 0 && v + 32 ≤ h.argBytes)
  | _ => true

/-- The variability marks of an operation (R463, R464): N 1, L 2, T 4, H 8. -/
def OpWord.marks (o : OpWord) : Nat :=
  match o.opcode with
  | 0x03 | 0x35 => 4
  | 0x04 => 8
  | 0x34 => if bit o.oflags 1 then 1 else 0
  | 0x40 => (if bit o.aux 1 then 0 else 2) + (if bit o.aux 0 then 0 else 8)
  | _ => 0

/-- Checks of R456 on one operation word. -/
def opGood (h : ProgHeader) (p : CProg) (o : OpWord) : Bool :=
  opcodes.contains o.opcode && o.uses.all (fun i => i < p.descs.length) && o.cores < 2 ^ h.lcores &&
  formatsAllowed o (fun i => ((p.descs[i]?).map (·.format)).getD 15) && wordGood h p o

/-! ## The whole image -/

/-- One more than the highest logical index that a word names; none where the argument block gives the index. -/
def OpWord.top (o : OpWord) : Option Nat :=
  let above := fun (w : Nat) => if w = 0 then 0 else Nat.log2 w + 1
  match o.opcode with
  | 0x32 => (o.word 0).map (fun v => max (above o.cores) (bits v 8 6 + 1))
  | 0x33 => (o.word 0).map (fun v => max (above o.cores) (above v))
  | _ => some (above o.cores)

/-- LCORES is one more than the highest logical index named (R437), where the image shows all of them and names any.
DEDUCED, log entry 49: R437 LCORES exact; CLUSTERS zero, other AUX bits of ANNEAL and a core named twice in a rotated placement are accepted. -/
def lcoresGood (m : Program) : Bool :=
  let tops := (m.progs.flatMap (·.ops)).map OpWord.top ++ m.place.map (fun v => some (bits v 0 8 + 1))
  let hi := tops.foldl (fun b t => max b (t.getD 0)) 0
  hi ≤ m.h.lcores && (hi = m.h.lcores || hi = 0 || tops.any (·.isNone))

/-- R489 and R1092 for step k. -/
def longGood (m : Program) (k : Nat) : Bool :=
  let bodies := m.progs.map (fun p => (p.cluster, (p.bodies[k]?).getD []))
  match (bodies.flatMap (·.2)).find? OpWord.isLong with
  | none => true
  | some o => bodies.all (fun b => b.2.isEmpty || b.2 == [o]) &&
      (o.opcode != 0x40 || m.place.all (fun v => bodies.any (fun b => b.1 = bits v 8 8 && !b.2.isEmpty)))

/-- The checks of R456 on an image that has been read whole. -/
def Program.good (m : Program) : Bool :=
  let ops := m.progs.flatMap (·.ops)
  m.steps.all (fun e => 1 ≤ e.repeatMax) && m.progs.all (fun p => p.stepsGood m.h.steps &&
    p.descs.all (fun d => knownFormat d.format) && p.ops.all (opGood m.h p)) &&
  ops.foldl (fun w o => w ||| o.marks) 0 = m.h.marks && ((ops.any (fun o => o.opcode = 0x40)) == (m.h.placeOff != 0)) &&
  m.place.all (fun v => v < 65536 && bits v 0 8 < m.h.lcores && m.h.has (bits v 8 8)) && lcoresGood m &&
  (List.range m.h.steps).all (longGood m) && m.fin = m.h.imageSize

/-- A pair launch holds no TIME, ENTROPY or COUNTERS (R766). -/
def Program.pairGood (m : Program) : Bool :=
  m.progs.all (fun p => p.ops.all (fun o => o.opcode != 0x03 && o.opcode != 0x04 && o.opcode != 0x35))

/-! ## Argument values (R452, R460) -/

/-- Argument-block offsets of the u64 values that the image names. -/
def Program.argOffsets (m : Program) : List Nat :=
  (m.progs.flatMap (fun p =>
    p.ops.flatMap (fun o => (List.range 4).filterMap (fun n => if o.arg n then o.imm[n]? else none)) ++
    p.descs.flatMap (fun d => if d.argrel then (if d.plane then [d.addr, d.expAddr] else [d.addr]) else []))).foldl setInsert []

/-- The values as they stand now. -/
def readArgs (rd : Fetch) (offs : List Nat) : Except Halt (Map Nat) := offs.mapM (fun o => do return (o, leNat (← rd o 8)))

/-- The contexts that the operations of a launch name (R497); a load record out of its place is left to R457. -/
def Program.contexts (m : Program) (ln : Launch) : List Nat :=
  (m.progs.flatMap (·.ops)).filterMap (fun o =>
    if o.opcode = 0x40 || o.opcode = 0x43 || o.opcode = 0x44 then some (immOf ln o 0)
    else if o.opcode = 0x42 then
      let off := immOf ln o 0
      if off % 8 = 0 && off + 32 ≤ ln.header.argBytes then some (fieldAt (ln.args.drop off) 0x8 4) else none
    else none)

end Sys2Proof.Machine
end

