-- ==== Sys2Proof/Machine/Admission.lean ====
section
/-! DEFINITION. Deadline admission and Paced slots (file 10, R843 to R851; file 11, R896, R902, R917): the computations of
the admission timing record with the step table. -/

namespace Sys2Proof.Machine

/-- Figure n of the admission timing record, in ps (R895, R953). -/
def figure (f : List Nat) (n : Nat) : Nat := (f[n]?).getD 0

/-- The t of a step in R847, with the pacing charge of R848 and R902. -/
def stepTime (f : List Nat) (retired paced : Bool) (e : StepEntry) : Nat :=
  e.nhp * figure f 0 + e.txGddr * figure f 1 + e.txCxl * figure f 2 + e.txSilk * figure f 3 + e.txMesh * figure f 4 +
  e.txEnt * figure f 12 + (if retired then e.nhp / 82 * figure f 1 else 0) + (if paced then 2000 else 0)

/-- W of R847, a u128. -/
def worstCase (f : List Nat) (steps : List StepEntry) (retired paced : Bool) : Nat :=
  let ts := steps.map (fun e => (e.repeatMax, stepTime f retired paced e))
  (ts.foldl (fun w t => w + t.1 * (t.2 + figure f 6)) (figure f 5 + figure f 7) + ts.foldl (fun b t => max b t.2) 0) % 2 ^ 128

/-- The hashing charge of R917 in ps. -/
def hashTime (f : List Nat) (imageSize argBytes : Nat) (rs : List Region) : Nat :=
  figure f 11 * (ceilDiv imageSize (2 ^ 20) + ceilDiv argBytes (2 ^ 20) + (rs.map (fun r => ceilDiv r.bytes (2 ^ 20))).sum)

/-- The test of R849 at count c. -/
def admits (c start deadline w : Nat) (hasStart : Bool) : Bool :=
  (if hasStart then max c start else c) + ceilDiv w 1000 ≤ deadline

/-- The bound of a step in ticks (R851). -/
def stepBound (f : List Nat) (t : Nat) : Nat := ceilDiv (2 * t + figure f 7) 1000

/-- slot_ticks of R896. -/
def slotTicks (f : List Nat) (e : StepEntry) : Nat :=
  ceilDiv (e.nhp * figure f 0 + e.txGddr * figure f 8 + e.txCxl * figure f 9 + e.txSilk * figure f 10 + e.txMesh * figure f 4 +
    e.txEnt * figure f 12 + figure f 6) 1000 % 2 ^ 64

/-- A taking-part cluster has a retired slice. -/
def anyRetired (s : State) (h : ProgHeader) : Bool := (clustersOf h).any (fun c => (s.cluster c).live != 0xFFFF#16)

/-- The evaluation of R843 for a launch, on its header and its step table. -/
def admitted (s : State) (ln : Launch) (steps : List StepEntry) : Bool :=
  let f := s.mgmt.record.figures
  let w := worstCase f steps (anyRetired s ln.header) (ln.lflags.testBit 1)
  let w := if ln.lflags.testBit 5 then w + hashTime f ln.header.imageSize ln.header.argBytes ln.digest.regions else w
  admits s.now ln.start ln.deadline w (ln.lflags.testBit 3)

end Sys2Proof.Machine
end

