-- ==== Sys2Proof/Machine/Sync.lean ====
section
/-! DEFINITION. Sync objects and wait edges (file 10, R830 to R840), the queue pairs' indices and states (R801 to R820), and
the launch summary (file 01, R80). -/

namespace Sys2Proof.Machine

/-! ## Sync objects -/

def State.sync (s : State) (n : Nat) : Sync := mapGet {} s.disp.syncs n

/-- Object n belongs to a group that an address space owns (R830, R831). -/
def ownsSync (s : State) (asid n : Nat) : Bool :=
  let w := mapGet 0#32 s.disp.owner (n / 256)
  w.msb && bits w.toNat 0 12 = asid

/-- What an edge is after an update of its object, and at its fetch: satisfied only while ERROR is clear, though R834 gives
satisfaction precedence (DEDUCED, log entry 91). -/
def Wait.resolve (w : Wait) (x : Sync) : Wait :=
  if w.state != .unresolved then w
  else if w.target ≤ x.value.toNat && !x.error then { w with state := .satisfied }
  else if x.error then { w with state := .failed }
  else w

/-- An update of object n resolves the edges that wait on it; a launch with a failed edge does not start (R834, R835). -/
def Launch.update (n : Nat) (x : Sync) (l : Launch) : Launch :=
  if l.phase != .waiting then l else
  let ws := l.waits.map (fun w => if w.obj = n then w.resolve x else w)
  if ws.any (fun w => w.state == .failed) then Launch.stop 0x105 { l with waits := ws } else { l with waits := ws }

/-- One update of a sync object (R833). -/
def setSync (n : Nat) (x : Sync) (s : State) : State :=
  { s with disp := { s.disp with
      syncs := if x = {} then mapErase s.disp.syncs n else mapSet s.disp.syncs n x
      launches := s.disp.launches.map (Launch.update n x) } }

/-- WAITERS of an object (R886). -/
def waiters (s : State) (n : Nat) : Nat :=
  min 65535 ((s.disp.launches.map (fun l => if l.phase == .waiting then
    (l.waits.filter (fun w => w.obj = n && w.state == .unresolved)).length else 0)).sum)

/-! ## Queue pairs -/

def State.queue (s : State) (q : Nat) : Queue := mapGet {} s.disp.queues q
def State.setQueue (s : State) (q : Nat) (x : Queue) : State := { s with disp := { s.disp with queues := mapSet s.disp.queues q x } }

/-- The queue takes doorbell writes and fetches (R803, R812).
DEDUCED, log entry 78: a disabling or faulted queue ignores doorbell writes; unsafe. -/
def Queue.enabled (x : Queue) : Bool := x.state == .idle || x.state == .active

/-- Launches of a queue that are fetched and not completed. -/
def outstanding (s : State) (q : Nat) : Nat := (s.disp.launches.filter (fun l => l.queue = q)).length

/-- Fetch is held for want of completion slots (R809). -/
def cqFull (s : State) (q : Nat) : Bool :=
  let x := s.queue q
  x.cqEntries ≤ (x.c - x.h).toNat + outstanding s q

/-- A queue becomes active again when entries wait (R812, R814). -/
def Queue.wake (x : Queue) : Queue := if x.state == .idle && x.t != x.f then { x with state := .active } else x

/-- A queue enters state 4 (R820). -/
def faultQueue (q : Nat) (s : State) : State := dispEvent 3 (s.setQueue q { s.queue q with state := .faulted, ringFault := true })

/-- A completion vector goes out. -/
def sendMsix (v : Nat) (s : State) : State := { s with out := s.out ++ [.msix v] }

/-! ## The launch summary -/

/-- What the dispatcher reports at each start and completion (R80). -/
def launchSummary (s : State) : Summary :=
  let ls := s.disp.launches
  { outstanding := ls.length, paced := (ls.filter (fun l => l.lflags.testBit 1)).length
    deadline := (ls.filter (fun l => l.lflags.testBit 2)).length, start := (ls.filter (fun l => l.lflags.testBit 3)).length }

def sendSummary (s : State) : State := { s with mgmt := { s.mgmt with summary := launchSummary s } }

end Sys2Proof.Machine
end

