-- ==== Sys2Proof/Machine/Fetch.lean ====
section
/-! DEFINITION. LAUNCH_FETCH and PRELOAD (file 10, R808 to R813, R821 to R828, R844; file 11, R911, R912). -/

namespace Sys2Proof.Machine

/-! ## The order of visits (R809 to R811) -/

/-- Entries that a queue may have fetched in one round. -/
def roundShare (priority : Nat) : Nat := if priority = 0 then 8 else if priority = 1 then 4 else if priority = 2 then 2 else 1

/-- A queue has an entry that may be fetched. -/
def canFetch (s : State) (q : Nat) : Bool :=
  let x := s.queue q
  x.state == .active && x.t != x.f && !cqFull s q

/-- The queue that the dispatcher fetches from next. -/
def nextQueue (s : State) : Option Nat :=
  let qs := (s.disp.queues.map (·.1)).filter (canFetch s)
  match s.disp.visit with
  | some (v, n) =>
    if qs.contains v && n < roundShare (s.queue v).priority then some v
    else (qs.find? (fun q => v < q)).or qs.head?
  | none => qs.head?

/-- An entry of queue q has been fetched. -/
def visited (q : Nat) (s : State) : State :=
  let n := match s.disp.visit with
    | some (v, n) => if v = q && n < roundShare (s.queue q).priority then n + 1 else 1
    | none => 1
  { s with disp := { s.disp with visit := some (q, n) } }

/-! ## The parts of a launch -/

/-- The dispatcher's reads: bytes with their tags. -/
abbrev Part := Except AccErr (List Tagged)

/-- What the dispatcher reads of a launch (R828): record, extension, program header, group record, region list. -/
structure Parts where
  record : List Byte
  ext : Option Part
  header : Option Part
  group : Option Part

/-- LFLAGS bits 2 to 5. -/
def wantsExt (rec : List Byte) : Bool := bits (fieldAt rec 1 1) 2 4 != 0

def partBytes : Option Part → List Byte
  | some (.ok ts) => plain ts
  | _ => []

/-- A part read as poison, with the address of its first poisoned word. -/
def partPoison (s : State) (asid va : Nat) : Option Part → Option Halt
  | some (.ok ts) => (findIdx (·.2) ts 0).map (fun i => .poison (physOfVa s asid (va + i)))
  | _ => none

def partFault : Option Part → Option AccErr
  | some (.error e) => some e
  | _ => none

def readParts (s : State) (asid : Nat) (rec : List Byte) : Parts :=
  let ext := if wantsExt rec then some (vaRead s asid (fieldAt rec 0x18 8) 64) else none
  { record := rec, ext := ext
    header := if fieldAt rec 0 1 = 0 then some (vaRead s asid (fieldAt rec 0x8 8) 256) else none
    group := if bit (fieldAt rec 1 1) 4 && (partFault ext).isNone then
        some (vaRead s asid (fieldAt (partBytes ext) 0x10 8) 64) else none }

def waitCount (rec : List Byte) : Nat := fieldAt rec 2 1 % 16
def signalCount (rec : List Byte) : Nat := bits (fieldAt rec 2 1) 4 3
def waitObj (rec : List Byte) (w : Nat) : Nat := fieldAt rec (0x24 + 2 * w) 2
def waitVal (rec : List Byte) (w : Nat) : Nat := fieldAt rec (0x40 + 8 * w) 8
def signalObj (rec : List Byte) (k : Nat) : Nat := fieldAt rec (0x34 + 2 * k) 2

/-- R821 to R823 for a record; argBytes is ARG_BYTES of its program. -/
def recordGood (rec : List Byte) (argBytes : Nat) : Bool :=
  let kind := fieldAt rec 0 1
  let fl := fieldAt rec 1 1
  let ctx := fieldAt rec 4 4
  kind ≤ 1 && fl < 64 && waitCount rec ≤ 8 && signalCount rec ≤ 4 && fieldAt rec 2 1 < 128 &&
  (ctx = 0xFFFFFFFF || ctx ≤ 262143) &&
  (List.range 8).all (fun w => w < waitCount rec || (waitObj rec w = 0 && waitVal rec w = 0)) &&
  (List.range 4).all (fun k => k < signalCount rec || signalObj rec k = 0) &&
  fieldAt rec 0x18 8 % 64 = 0 && (wantsExt rec || fieldAt rec 0x18 8 = 0) &&
  (if kind = 1 then fl = 0 && fieldAt rec 0x8 8 = 0 && fieldAt rec 0x10 8 = 0 && ctx = 0xFFFFFFFF
    else fieldAt rec 0x10 8 % 64 = 0 && (argBytes != 0 || fieldAt rec 0x10 8 = 0))

/-- R824 for an extension. -/
def extGood (fl : Nat) (e : List Byte) : Bool :=
  (bit fl 2 || fieldAt e 0 8 = 0) && (bit fl 3 || fieldAt e 0x8 8 = 0) && (bit fl 4 || fieldAt e 0x10 8 = 0) &&
  (bit fl 5 || fieldAt e 0x18 8 = 0) && fieldAt e 0x18 8 % 64 = 0

/-- The first 64 bytes of a group record (R757). -/
def groupOf (va : Nat) (b : List Byte) : Group :=
  { tag := BitVec.ofNat 64 (fieldAt b 0 8), members := fieldAt b 0x8 2, self := fieldAt b 0xA 2, timeoutUs := fieldAt b 0xC 4
    pair := bit (fieldAt b 0x10 1) 0, barrierGva := fieldAt b 0x18 8
    good := va % 64 = 0 && 2 ≤ fieldAt b 0x8 2 && fieldAt b 0x8 2 ≤ 256 && fieldAt b 0xA 2 < fieldAt b 0x8 2 &&
      1 ≤ fieldAt b 0xC 4 && fieldAt b 0x10 1 < 2 && fieldAt b 0x18 8 % 64 = 0 }

/-! ## Region lists (R911, R912) -/

def regionOf (b : List Byte) : Region := { va := fieldAt b 0 8, bytes := fieldAt b 0x8 8, role := fieldAt b 0x10 1 }

def regionGood (b : List Byte) : Bool :=
  fieldAt b 0 8 % 64 = 0 && 1 ≤ fieldAt b 0x8 8 && fieldAt b 0x8 8 ≤ 2 ^ 40 && fieldAt b 0x10 1 ≤ 2

def readRegions (rd : Fetch) : Except Halt (List Region) := do
  let h ← rd 0x240 64
  let n := fieldAt h 0 4
  demand (n ≤ 1024 && (h.drop 4).all (· == 0)) 0x202
  let es ← rd.table 0x280 32 n id
  demand (es.all regionGood) 0x202
  return es.map regionOf

/-! ## The checks of R828 -/

/-- Checks 7 and 8: the grade, and the clusters and cores that the header names. -/
def unitsGood (s : State) (h : ProgHeader) : Except Halt Unit := do
  demand (h.lcores ≤ s.lcores) 0x101
  demand ((clustersOf h).all (fun c => (s.cluster c).state != .out &&
    (List.range h.lcores).all (fun l => ((s.cluster c).phys l).isSome))) 0x102

/-- The launch that a record and its parts describe. -/
def launchOf (s : State) (q : Nat) (p : Parts) : Launch :=
  let x := s.queue q
  let r := p.record
  let fl := fieldAt r 1 1
  let e := partBytes p.ext
  let ctx := fieldAt r 4 4
  { id := s.disp.nextLaunch, queue := q, sqIndex := x.f, asid := x.asid, barrier := fieldAt r 0 1 = 1, lflags := fl
    context := if ctx = 0xFFFFFFFF then none else some ctx
    programVa := fieldAt r 0x8 8, argVa := fieldAt r 0x10 8, extVa := fieldAt r 0x18 8
    waits := (List.range (min 8 (waitCount r))).map (fun w =>
      ({ obj := waitObj r w, target := waitVal r w } : Wait).resolve (s.sync (waitObj r w)))
    signals := (List.range (min 4 (signalCount r))).map (signalObj r)
    deadline := fieldAt e 0 8, start := fieldAt e 0x8 8, groupVa := fieldAt e 0x10 8, digestVa := fieldAt e 0x18 8
    header := if fieldAt r 0 1 = 0 then headerOf (partBytes p.header) else {}
    group := if bit fl 4 then some (groupOf (fieldAt e 0x10 8) (partBytes p.group)) else none }

/-- Checks 1 to 9 (R828) and the region list (R912); the launch as it stands after them.
DEDUCED, log entry 50: order of the group check, R456 and R826, and STARTED of a launch refused by R456. -/
def fetchChecks (s : State) (ln : Launch) (p : Parts) : Except Halt Launch := do
  match (partPoison s ln.asid ln.extVa p.ext).or ((partPoison s ln.asid ln.programVa p.header).or
    (partPoison s ln.asid ln.groupVa p.group)) with
  | some h => throw h
  | none => pure ()
  match (partFault p.ext).or ((partFault p.header).or (partFault p.group)) with
  | some e => throw (.access false e)
  | none => pure ()
  demand (recordGood p.record ln.header.argBytes && (p.ext.isNone || extGood ln.lflags (partBytes p.ext))) 0x100
  demand (ln.waits.all (fun w => ownsSync s ln.asid w.obj) && ln.signals.all (ownsSync s ln.asid)) 0x300
  match ln.context with
  | some n => do
    let x ← readCtx s n
    demand (!foreign x ln.asid) 0x300
  | none => pure ()
  if ln.barrier then return ln
  demand (headerGood ln.programVa (partBytes p.header)) 0x200
  unitsGood s ln.header
  demand (!((ln.group.map (·.pair)).getD false && !ln.lflags.testBit 0)) 0x202
  if ln.lflags.testBit 5 then
    let rs ← readRegions (fetchAt s ln.asid ln.digestVa)
    return { ln with digest := { ln.digest with regions := rs } }
  return ln

/-- Check 10 (R843, R850). -/
def admission (s : State) (ln : Launch) : Except Halt Unit := do
  if ln.lflags.testBit 2 then
    let steps ← (fetchAt s ln.asid ln.programVa).steps ln.header
    demand (admitted s ln steps) 0x103

/-- All of the checks of R828. -/
def checkLaunch (s : State) (ln : Launch) (p : Parts) : Except Halt Launch := do
  let ln ← fetchChecks s ln p
  admission s ln
  return ln

/-- A launch that stops before it starts: what its halt leaves. -/
def refuseLaunch (ln : Launch) (h : Halt) (s : State) : State :=
  let s := haltLaunch ln.id ln.asid 256 h s
  match h with
  | .status 0x103 => dispEvent 1 s
  | _ => s

/-- Signal edges to objects that the address space does not own are dropped; a record read as poison has no edges (DEDUCED, log
entry 33). -/
def Launch.ownSignals (s : State) (ln : Launch) : Launch := { ln with signals := ln.signals.filter (ownsSync s ln.asid) }

/-- A fetched launch joins the dispatcher's launches, and F moves on (R806). -/
def addLaunch (q : Nat) (ln : Launch) (s : State) : State :=
  let x := s.queue q
  let s := visited q (s.setQueue q { x with f := x.f + 1 })
  { s with disp := { s.disp with launches := s.disp.launches ++ [ln], nextLaunch := s.disp.nextLaunch + 1 } }

/-- A launch that has passed its checks waits; one with a failed edge ends (R835). -/
def admitFetched (ln : Launch) (s : State) : State :=
  if ln.waits.any (fun w => w.state == .failed) then stopLaunch ln.id 0x105 s else s

/-- What the dispatcher reads of a launch besides its record, as virtual ranges (R828). -/
def fetchReads (p : Parts) (ln : Launch) : List (Nat × Nat) :=
  (if p.ext.isSome then [(ln.extVa, 64)] else []) ++ (if p.header.isSome then [(ln.programVa, 256)] else []) ++
    (if p.group.isSome then [(ln.groupVa, 64)] else []) ++
    (if ln.lflags.testBit 5 then [(ln.digestVa + 0x240, 64 + 32 * ln.digest.regions.length)] else []) ++
    (if ln.lflags.testBit 2 then [(ln.programVa + ln.header.stepTableOff, 32 * ln.header.steps)] else [])

/-- The record at slot F is fetched. -/
def fetchRecord (q : Nat) (s : State) : State :=
  let x := s.queue q
  match vaRead s x.asid (x.sqVa + 128 * (x.f.toNat % x.sqEntries)) 128 with
  | .error .held => s
  | .error e => faultQueue q (noteFault x.asid 256 false e s)
  | .ok ts =>
    let s0 := touch dispUnit x.asid (x.sqVa + 128 * (x.f.toNat % x.sqEntries)) 128 false s
    if anyPoison ts then
      let blank : Launch := { id := s.disp.nextLaunch, queue := q, sqIndex := x.f, asid := x.asid, barrier := false }
      controlPoison blank.id (physOfVa s x.asid (x.sqVa + 128 * (x.f.toNat % x.sqEntries))) (addLaunch q blank s0)
    else
      let p := readParts s x.asid (plain ts)
      let ln := launchOf s q p
      match checkLaunch s ln p with
      | .error h => if h.waits then s else refuseLaunch ln h (addLaunch q (ln.ownSignals s) (touchAll dispUnit ln.asid 0 (fetchReads p ln) s0))
      | .ok ln => admitFetched ln (addLaunch q ln (touchAll dispUnit ln.asid 0 (fetchReads p ln) s0))

/-- LAUNCH_FETCH: the dispatcher visits queue q. An active queue with F = T becomes idle (R813); with 16,384 launches
held nothing is fetched (R810). -/
def execLaunchFetch (q : Nat) (s : State) : Host.Outcome State Fault Refusal :=
  let x := s.queue q
  if !s.on || x.state != .active then .next s
  else if x.t = x.f then .next (s.setQueue q { x with state := .idle })
  else if 16384 ≤ s.disp.launches.length then .next (dispEvent 4 s)
  else needs (nextQueue s == some q) (fetchRecord q s) s

/-! ## PRELOAD (R844, R845) -/

/-- The 4 KiB physical units and the 64 KiB pages behind a virtual range. -/
def unitsOf (s : State) (asid va n : Nat) : List Nat :=
  if n = 0 then [] else
  ((List.range ((va + n - 1) / 4096 - va / 4096 + 1)).filterMap (fun i =>
    match walk s asid ((va / 4096 + i) * 4096) false with
    | .ok l => if l.target = 0 then some (l.at ((va / 4096 + i) * 4096) / 4096) else none
    | .error _ => none)).foldl setInsert []

def pagesOf (va n : Nat) : List Nat := if n = 0 then [] else (List.range ((va + n - 1) / 65536 - va / 65536 + 1)).map (fun i => va / 65536 + i)

/-- The next two launches that would start on a cluster. -/
def nextOn (s : State) (c : Nat) : List Launch :=
  (s.disp.launches.filter (fun l => !l.barrier && !l.started && l.phase != .ended && l.header.has c)).take 2

/-- PRELOAD: the cluster controller holds the headers and argument blocks of its next two launches. What they hold is
read again at the start (R452), so only the watch is state. -/
def execPreload (c : Nat) (s : State) : Host.Outcome State Fault Refusal :=
  let new := (nextOn s c).map (fun l =>
    ({ cluster := c, launch := l.id, asid := l.asid
       units := (unitsOf s l.asid l.argVa l.header.argBytes).foldl setInsert (unitsOf s l.asid l.programVa 256)
       pages := pagesOf l.programVa 256 ++ pagesOf l.argVa l.header.argBytes } : Preload))
  needs (s.on && s.disp.launches.any (fun l => l.started))
    { s with disp := { s.disp with preloads := s.disp.preloads.filter (fun p => p.cluster != c) ++ new } } s

end Sys2Proof.Machine
end

