-- ==== Sys2Proof/Machine/Pair.lean ====
section
/-! DEFINITION. Digests of a pair launch (file 09, R766 to R770): what is sent, and what waits to be compared. -/

namespace Sys2Proof.Machine

/-- A control packet with the length word of R681 in front of its items: the spec gives no codes of its KIND (DESIGN CHOICE, log entry 32). -/
def controlPacket (me dest kind tag seq : Nat) (items : List Byte) : SilkPkt :=
  let payload := pack 8 [(0, 2, items.length), (2, 2, seq)] ++ items
  { typ := 6, vc := 0, src := me, dest := dest, kind := kind, addr := tag, length := payload.length, payload := payload }

/-- A control packet leaves through the lowest-numbered up port of a device's route (R749, R767), if it has one. -/
def sendControl (dest kind tag : Nat) (items : List Byte) (s : State) : State :=
  match routePorts s dest with
  | [] => s
  | p :: _ =>
    let x := s.portOf p
    emitSilk p (controlPacket (s.silk.device.getD 0) dest kind tag x.controlSeq.toNat items)
      (s.setPort p { x with controlSeq := x.controlSeq + 1 })

/-- The SEQ of a result digest (R767). -/
def lastSeq : Nat := 2 ^ 64 - 1

/-- A device sends its digest to its partner (R767). -/
def sendDigest (id seq sweep : Nat) (digest : List Byte) (s : State) : State :=
  match (s.launch id).bind (·.group) with
  | none => s
  | some g =>
    let s := sendControl s.silk.pairPartner 3 g.tag.toNat (leBytes 8 seq ++ leBytes 8 sweep ++ digest) s
    s.modLaunch id (fun l => { l with group := some { g with sent := g.sent ++ [(seq, digest)], sentAt := s.now } })

/-- A launch of a pair. -/
def Launch.pair (l : Launch) : Bool := (l.group.map (·.pair)).getD false

/-- A digest sent and not yet compared holds the launch (R768). -/
def Launch.awaitsDigest (l : Launch) : Bool := (l.group.map (fun g => !g.sent.isEmpty)).getD false

/-- Digests of one SEQ are compared (R768, R769). -/
def comparePair (id : Nat) (s : State) : State :=
  match (s.launch id).bind (·.group) with
  | none => s
  | some g =>
    match g.sent.find? (fun e => g.received.any (fun r => r.1 = e.1)) with
    | none => s
    | some e =>
      let other := ((g.received.find? (fun r => r.1 = e.1)).map (·.2)).getD []
      let g := { g with sent := g.sent.filter (fun x => x.1 != e.1), received := g.received.filter (fun x => x.1 != e.1) }
      let s := s.modLaunch id (fun l => { l with group := some g })
      let s := { s with silk := { s.silk with pairCompared := s.silk.pairCompared + 1 } }
      if other = e.2 then s
      else
        let s := silkEvent 6 { s with silk := { s.silk with pairMismatch := true } }
        stopLaunch id 0x403 (logEvent 12 (hubSource 0) 0 s.silk.pairPartner s)

end Sys2Proof.Machine
end

