-- ==== Sys2Proof/Machine/Launch.lean ====
section
/-! DEFINITION. LAUNCH_START, BARRIER_COMPLETE, DEPENDENCY_CYCLE, PACED_STEP_START and STEP_BOUND_EXPIRY (file 10, R829,
R841, R842, R850 to R858; file 06, R443, R452 to R456; file 09, R756 to R766; file 11, R895 to R898, R903, R907 to R921). -/

namespace Sys2Proof.Machine

/-! ## When a launch may start (R841, R842) -/

/-- The wait edges are satisfied, and no earlier-fetched launch that names the same context is left (R290). -/
def edgesMet (earlier : List Launch) (ln : Launch) : Bool :=
  ln.waits.all (fun w => w.state == .satisfied) &&
    (ln.context.isNone || earlier.all (fun m => m.context != ln.context))

/-- A migration of the address space is in progress (R611). -/
def migrating (s : State) (asid : Nat) : Bool := s.memc.moves.any (fun m => m.asid = asid)

/-- Paced, or with a deadline. -/
def Launch.timed (ln : Launch) : Bool := ln.lflags.testBit 1 || ln.lflags.testBit 2

/-- Every condition of R841 but the clusters and the admission. -/
def launchReady (s : State) (earlier : List Launch) (ln : Launch) : Bool :=
  ln.phase == .waiting && edgesMet earlier ln && !(ln.timed && migrating s ln.asid)

/-- A cluster that runs a launch, is held, or is promised to a launch that waits for its start count.
DEDUCED, log entry 75: only a launch that a busy cluster holds back reserves clusters. -/
def busyCluster (s : State) (c : Nat) : Bool :=
  (s.cluster c).state == .running || (s.cluster c).state == .held ||
    s.disp.launches.any (fun l => l.phase == .armed && l.header.has c)

/-- The clusters that earlier-fetched launches reserve: the idle ones of a ready launch that a busy one holds up. -/
def reservedBy (s : State) : List Launch → List Launch → List Nat
  | _, [] => []
  | before, m :: ms =>
    (if !m.barrier && launchReady s before m && (clustersOf m.header).any (busyCluster s) then
      (clustersOf m.header).filter (fun c => !busyCluster s c) else []) ++ reservedBy s (before ++ [m]) ms

/-- The launches fetched before a launch. -/
def earlierThan (s : State) (id : Nat) : List Launch := s.disp.launches.takeWhile (fun l => l.id != id)

/-- The clusters of a launch are idle, reserved for no earlier-fetched launch, and have applied their orders (R78). -/
def clustersFree (s : State) (ln : Launch) : Bool :=
  let taken := reservedBy s [] (earlierThan s ln.id)
  (clustersOf ln.header).all (fun c => !busyCluster s c && !taken.contains c && (s.cluster c).orders.isEmpty)

/-! ## Roots (R907, R913, R916, R920) -/

/-- The bytes of a region; a region of no bytes is read nowhere. -/
def regionBytes (s : State) (asid va n : Nat) : Except Halt (List Byte) := if n = 0 then .ok [] else readVa s asid va n

/-- The root kept of a program image or a weight region (R916). -/
def keptRoot (s : State) (program : Bool) (asid va n : Nat) : Option KeptRoot :=
  s.disp.kept.find? (fun k => k.program == program && k.asid = asid && k.va = va && k.bytes = n)

/-- The root of a program image or a weight region: the kept one in place of hashing again. -/
def rootOf (s : State) (program : Bool) (asid va n : Nat) : Except Halt (List Byte) :=
  match keptRoot s program asid va n with
  | some k => .ok k.root
  | none => do return regionRoot (← regionBytes s asid va n)

/-- VA, length and root of the regions of a role, in list order. -/
def roleRegions (s : State) (asid role : Nat) (rs : List Region) : Except Halt (List (Nat × Nat × List Byte)) :=
  (rs.filter (fun r => r.role = role)).mapM (fun r => do
    return (r.va, r.bytes, ← if role = 0 then rootOf s false asid r.va r.bytes
      else (do return regionRoot (← readVa s asid r.va r.bytes))))

/-- A root is kept, newest first (R916). -/
def keepRoot (k : KeptRoot) (s : State) : State :=
  let same := fun (x : KeptRoot) => x.program == k.program && x.asid = k.asid && x.va = k.va && x.bytes = k.bytes
  let old := s.disp.kept.filter (fun x => !same x)
  let mine := (old.filter (fun x => x.program == k.program)).take (if k.program then 255 else 1023)
  { s with disp := { s.disp with kept := k :: mine ++ old.filter (fun x => x.program != k.program) } }

/-- The parts of the digest record that the start decision fixes (R913, R918, R921, R923). -/
def digestPart (s : State) (ln : Launch) : Except Halt DigestPart := do
  let program ← rootOf s true ln.asid ln.programVa ln.header.imageSize
  let args ← regionBytes s ln.asid ln.argVa ln.header.argBytes
  let ws ← roleRegions s ln.asid 0 ln.digest.regions
  let is ← roleRegions s ln.asid 1 ln.digest.regions
  return { ln.digest with
    fwVersion := s.mgmt.fwVersion, programRoot := program, argHash := sha384 args
    weightRoot := roleRoot 0 ws, inputRoot := roleRoot 1 is, unitMapHash := sha384 (mapImage s) }

/-- The root of a program image or a weight region is kept, with the units that hold it.
DESIGN CHOICE, log entry 80: the newest roots are the ones kept. -/
def keepOne (s : State) (program : Bool) (asid va n : Nat) : State :=
  match keptRoot s program asid va n with
  | some k => keepRoot k s
  | none =>
    match rootOf s program asid va n with
    | .ok root => keepRoot { program := program, asid := asid, va := va, bytes := n, root := root, units := unitsOf s asid va n } s
    | .error _ => s

/-- The roots of the program image and of the weight regions are kept. -/
def keepRoots (ln : Launch) (d : DigestPart) (s : State) : State :=
  (d.regions.filter (fun r => r.role = 0)).foldl (fun s r => keepOne s false ln.asid r.va r.bytes)
    (keepOne s true ln.asid ln.programVa ln.header.imageSize)

/-- The launch takes a digest. -/
def Launch.digests (ln : Launch) : Bool := ln.lflags.testBit 5 || ln.pair

/-! ## The start decision -/

/-- The member table of a group, and R757, R759 and R764. -/
def checkGroup (s : State) (ln : Launch) (g : Group) : Except Halt Group := do
  demand g.good 0x202
  let b ← readVa s ln.asid (ln.groupVa + 64) (2 * g.members)
  let devs := (chunks 2 b).map (fun x => leNat x % 4096)
  demand (s.silk.device == devs[g.self]?) 0x202
  demand (!g.pair || (g.members = 2 && s.silk.pairEnable && devs[1 - g.self]? == some s.silk.pairPartner)) 0x202
  return { g with devices := devs }

/-- What the dispatcher fixes at a start decision (R829, R850, R851, R896). -/
def startDecision (s : State) (ln : Launch) : Except Halt Launch := do
  let hb ← readVa s ln.asid ln.programVa 256
  demand (headerGood ln.programVa hb) 0x200
  let ln := { ln with header := headerOf hb }
  unitsGood s ln.header
  let f := s.mgmt.record.figures
  let ln ← if ln.timed then do
      let steps ← (fetchAt s ln.asid ln.programVa).steps ln.header
      demand (!ln.lflags.testBit 2 || admitted s ln steps) 0x103
      let retired := anyRetired s ln.header
      pure { ln with
        slots := if ln.lflags.testBit 1 then steps.map (slotTicks f) else []
        bounds := if ln.lflags.testBit 2 then steps.map (fun e => stepBound f (stepTime f retired (ln.lflags.testBit 1) e)) else [] }
    else pure ln
  let ln ← match ln.group with
    | some g => do pure { ln with group := some (← checkGroup s ln g) }
    | none => pure ln
  if ln.digests then do
    let d ← digestPart s ln
    return { ln with digest := d }
  else return ln

def setLaunch (ln : Launch) (s : State) : State := s.modLaunch ln.id (fun _ => ln)

/-! ## Step 0 (R443, R452, R456, R515, R756) -/

/-- What the cluster controllers read at launch start, and their checks (R452, R456, R458, R766, R826). -/
def loadProgram (s : State) (ln : Launch) : Except Halt (Launch × Program) := do
  let rd := fetchAt s ln.asid ln.programVa
  let m ← rd.program ln.header
  demand m.good 0x200
  demand (!ln.pair || m.pairGood) 0x200
  let args ← regionBytes s ln.asid ln.argVa ln.header.argBytes
  let words ← readArgs (fetchAt s ln.asid ln.argVa) m.argOffsets
  let ln := { ln with args := args, argWords := words, steps := m.steps, place := m.place }
  demand ((m.contexts ln).all (fun n => ln.context = some n)) 0x202
  return (ln, m)

/-- CONV_SAT is cleared at the start of a launch (R515). -/
def Core.startLaunch (k : Core) : Core := { k with events := k.events &&& ~~~1#32, drainSat := 0, stepSat := false }

/-- A cluster begins step 0 of a launch with its program. -/
def Cluster.startLaunch (k : Cluster) (id : Nat) (paced : Bool) (p : CProg) : Cluster :=
  let k : Cluster := { k with
    state := .running, step := 0, launch := some id, ops := p.ops, descs := p.descs, pos := 0, ended := false, begun := !paced
    abandon := none, reruns := 0, consumed := [], sat := 0, nodeSat := 0, reduced := [], rerun := []
    entropyWait := false, cores := k.cores.map (fun e => (e.1, e.2.startLaunch)) }
  { k with snap := k.snapshot 0 0 }

/-- Every taking-part cluster is bound to the launch. -/
def bindClusters (ln : Launch) (progs : List CProg) (s : State) : State :=
  (clustersOf ln.header).foldl (fun s c =>
    let p := (progs.find? (fun p => p.cluster = c)).getD { cluster := c, ops := [], descs := [] }
    s.modCluster c (fun k => k.startLaunch ln.id (ln.lflags.testBit 1) p)) s

/-- The controllers of the clusters have read their programs and the argument block (R452). -/
def touchProgram (ln : Launch) (m : Program) (s : State) : State :=
  (clustersOf ln.header).foldl (fun s c =>
    touch c ln.asid ln.argVa ln.header.argBytes false (touchAll c ln.asid ln.programVa (m.readsOf c) s)) s

/-- S is now: the launch has started (R756); SANITISED is cleared (R969), the summary sent (R80). -/
def startNow (ln : Launch) (s : State) : State :=
  let ln := { ln with phase := .running, started := true, startAt := s.now, stepStart := s.now, sigma := s.now
                      mapGens := if ln.digests then mapMarks s (clustersOf ln.header) else [] }
  let s := setLaunch ln s
  let s := sendSummary { s with mgmt := { s.mgmt with sanitised := false } }
  match loadProgram s ln with
  | .error h => haltLaunch ln.id ln.asid ((clustersOf ln.header).headD 0) h (bindClusters ln [] s)
  | .ok (l, m) => bindClusters l m.progs (setLaunch l (touchProgram l m s))

/-- A page that the start would read is held. -/
def startWaits (s : State) (ln : Launch) : Bool :=
  match loadProgram s ln with
  | .error h => h.waits
  | .ok _ => false

/-- What the dispatcher reads at a start decision, as virtual ranges. -/
def decisionReads (ln : Launch) : List (Nat × Nat) :=
  (ln.programVa, 256) :: (if ln.timed then [(ln.programVa + ln.header.stepTableOff, 32 * ln.header.steps)] else []) ++
    (match ln.group with
      | some g => [(ln.groupVa + 64, 2 * g.members)]
      | none => []) ++
    (if ln.digests then (ln.programVa, ln.header.imageSize) :: (ln.argVa, ln.header.argBytes) ::
      (ln.digest.regions.filter (fun r => r.role != 2)).map (fun r => (r.va, r.bytes)) else [])

/-- The decided launch waits for its start count, or starts. -/
def armOrStart (ln : Launch) (s : State) : State :=
  let s := if ln.digests then keepRoots ln ln.digest s else s
  if ln.lflags.testBit 3 && s.now < ln.start then setLaunch { ln with phase := .armed } s else startNow ln s

/-- The start decision of a launch whose conditions hold. -/
def decideStart (s : State) (ln : Launch) : State :=
  match startDecision s ln with
  | .error h => refuseLaunch ln h s
  | .ok l => if startWaits s l then s else armOrStart l (touchAll dispUnit l.asid 0 (decisionReads l) s)

/-- LAUNCH_START (R841, R756): the start decision, and the start once its start count is reached. -/
def execLaunchStart (id : Nat) (s : State) : Host.Outcome State Fault Refusal :=
  match s.launch id with
  | none => .next s
  | some ln =>
    if !s.on || ln.barrier then .next s
    else match ln.phase with
      | .armed => needs (ln.start ≤ s.now && !startWaits s ln) (startNow ln s) s
      | .waiting => needs (launchReady s (earlierThan s id) ln && clustersFree s ln) (decideStart s ln) s
      | _ => .next s

/-- BARRIER_COMPLETE (R841): a barrier launch ends when its edges and its context order allow. -/
def execBarrierComplete (id : Nat) (s : State) : Host.Outcome State Fault Refusal :=
  match s.launch id with
  | none => .next s
  | some ln =>
    needs (s.on && ln.barrier && ln.phase == .waiting && edgesMet (earlierThan s id) ln) (stopLaunch id 0 s) s

/-! ## Dependency cycles (R854 to R858) -/

/-- Launch l waits for launch m. -/
def waitsFor (s : State) (l m : Launch) : Bool :=
  l.phase == .waiting &&
    (l.waits.any (fun w => w.state == .unresolved && m.signals.contains w.obj) ||
      (l.context.isSome && l.context = m.context && (earlierThan s l.id).any (fun x => x.id = m.id)))

/-- A cycle: each launch waits for the next, the last for the first. -/
def isCycle (s : State) (first : Launch) : List Launch → Bool
  | [] => false
  | [l] => waitsFor s l first
  | l :: m :: ls => waitsFor s l m && isCycle s first (m :: ls)

/-- DEPENDENCY_CYCLE: the relations of the named cycle are confirmed, and its launches end (R856, R857). -/
def execDependencyCycle (launches : List Nat) (s : State) : Host.Outcome State Fault Refusal :=
  let ls := launches.filterMap s.launch
  needs (s.on && ls.length = launches.length && (match ls with
      | [] => false
      | l :: _ => isCycle s l ls))
    (launches.foldl (fun s id => stopLaunch id 0x104 s)
      (dispEvent 0 (dispCount Disp.cycleCount (fun d k => { d with cycleCount := k }) 0x30 s))) s

/-! ## Steps of a running launch -/

/-- The start barrier of a grouped launch holds its step 1 (R760). -/
def Launch.barred (ln : Launch) : Bool :=
  match ln.group with
  | some g => !g.barrierDone && ln.step != 0
  | none => false

/-- PACED_STEP_START (R898): the follower reads the scheduled start or more. -/
def execPacedStepStart (c : Nat) (s : State) : Host.Outcome State Fault Refusal :=
  match s.runningOn c with
  | none => .next s
  | some ln =>
    let k := s.cluster c
    if !s.on || ln.phase != .running || k.begun || k.ended || !ln.lflags.testBit 1 || ln.barred then .next s
    else if s.follower c < ln.sigma then .next (readFollower c s)
    else .next ((readFollower c s).modCluster c (fun k => { k with begun := true }))

/-- STEP_BOUND_EXPIRY (R454): the bound of the present step has passed. -/
def execStepBoundExpiry (id : Nat) (s : State) : Host.Outcome State Fault Refusal :=
  match s.launch id with
  | none => .next s
  | some ln =>
    match ln.bounds[ln.step]? with
    | none => .next s
    | some b => needs (s.on && ln.phase == .running && ln.stepStart + b < s.now) (stopLaunch id 0x203 s) s

end Sys2Proof.Machine
end

