-- ==== Sys2Proof/Machine/Reply.lean ====
section
/-! DEFINITION. Answers of the management processor to mailbox requests (file 12, R938 to R941, R948). -/

namespace Sys2Proof.Machine

def State.box (s : State) (m : Nat) : Box := mapGet {} s.mgmt.boxes m
def State.setBox (s : State) (m : Nat) (b : Box) : State := { s with mgmt := { s.mgmt with boxes := mapSet s.mgmt.boxes m b } }

/-- A response message (R938): header, then the body from offset 0x10, a multiple of 8 bytes. -/
def message (command tag result : Nat) (body : List Byte) : List Byte :=
  pack 16 [(0x0, 2, command), (0x2, 2, tag), (0x4, 1, 1), (0x6, 2, result)] ++ body ++
    List.replicate ((8 - body.length % 8) % 8) 0#8

/-- An answer waits to be written to the response FIFO of its pair (R940); the next request of the pair may then follow. -/
def answer (m : Nat) (bytes : List Byte) (s : State) : State :=
  s.setBox m { s.box m with waiting := some bytes, busy := false }

/-- A cluster controller has applied an order: it reports the outcome, if a request awaits it (R75, R948). -/
def orderDone (c result : Nat) (r : Option Reply) (s : State) : State :=
  match r with
  | none => s
  | some r => sendResult c (.order c result (some r)) s

end Sys2Proof.Machine
end

