-- ==== Sys2Proof/Machine/Registers.lean ====
section
/-! DEFINITION. Every register as it reads, by local physical address: the slots of eight bytes of each block of R48 (file 01,
R138 to R149; 04, R352; 06, R510; 07, R613 to R629; 08, R693; 09, R771 to R784; 10, R864 to R886; 11, R925; 12, R932, R971 to
R977; 13, R1025 to R1033). -/

namespace Sys2Proof.Machine

/-- Two 32-bit registers of one slot. -/
def pairSlot (lo hi : Nat) : Nat := lo % 2 ^ 32 + 2 ^ 32 * (hi % 2 ^ 32)

/-- A slot of an array of 32-bit registers, by its offset from the array's base. -/
def arraySlot (f : Nat → Nat) (off : Nat) : Nat := pairSlot (f (off / 4)) (f (off / 4 + 1))

/-! ## CLU, CORE and TRACE -/

/-- CLU_NET_LEVEL_n (R694, R697). -/
def netLevel (s : State) (c n : Nat) : Nat :=
  if 996 ≤ n then 0 else fifoFlits (s.fifo (996 * c + n)) + 128 * (s.fifo (996 * c + n)).length

def cluSlot (s : State) (c off : Nat) : Nat :=
  if off = 0x200 then (s.cluster c).netPoison.reg
  else if off = 0x208 then (s.cluster c).netDrops.reg
  else if off = 0x210 then (s.cluster c).netMerges.reg
  else if 0x100 ≤ off && off < 0x200 then arraySlot (cluMap s.lcores (s.cluster c)) (off - 0x100)
  else if 0x1000 ≤ off && off < 0x1F90 then arraySlot (netLevel s c) (off - 0x1000)
  else cluReg s c off

/-- CORE_STATUS (R513); held is whether its Field, Flip and Stream engines hold an ANNEAL. Any other operation completes as it is
issued, but for what it leaves to a Stream engine (DESIGN CHOICE, log entry 7). -/
def coreStatus (held : Bool) (k : Core) : Nat :=
  3 * natOfBool held + 8 * natOfBool (held || !k.streamIdle) + 16 * k.tileSat.toNat

/-- A CORE block (R510, R511). -/
def coreSlot (s : State) (c l off : Nat) : Nat :=
  let k := s.core c l
  if s.lcores ≤ l || ((s.cluster c).phys l).isNone then 0 else
  match off with
  | 0x00 => coreStatus (annealHeld s c l) k
  | 0x08 => k.events.toNat
  | 0x10 => k.ops.reg
  | 0x18 => k.fieldHs.reg
  | 0x20 => k.flipHs.reg
  | 0x28 => k.vectorHs.reg
  | 0x30 => k.streamHs.reg
  | 0x38 => k.recompute.reg
  | 0x40 => k.sent.length
  | _ => 0

/-- TRACE_LEVEL_c (R357): records of 64 bytes. -/
def traceLevel (s : State) (c : Nat) : Nat := if 256 ≤ c then 0 else 8 * (s.cluster c).trace.length

def traceSlot (s : State) (off : Nat) : Nat :=
  match off with
  | 0x0 => s.trace.records.reg
  | 0x8 => s.trace.gaps.reg
  | 0x10 => s.trace.lost.reg
  | 0x18 => s.trace.events.toNat
  | _ => if 0x400 ≤ off && off < 0x800 then arraySlot (traceLevel s) (off - 0x400) else 0

/-! ## PACE and ENT -/

/-- PACE_STATUS (R928). -/
def paceStatus (s : State) : Nat := s.paced + 512 * natOfBool s.silk.sync.deferred.isSome

def paceSlot (s : State) (off : Nat) : Nat :=
  match off with
  | 0x00 => s.pace.cricket
  | 0x08 => paceStatus s
  | 0x10 => s.pace.executions.reg
  | 0x18 => s.pace.slips.reg
  | 0x20 => s.pace.slipTicks.reg
  | 0x28 => s.pace.events.toNat
  | _ => 0

def EntState.code : EntState → Nat
  | .notReady => 0
  | .ready => 1
  | .fault => 2

/-- ENT_STATUS (R1027). -/
def entStatus (e : Ent) : Nat :=
  e.state.code + 4 * e.test + 16 * e.unit + 2 ^ 10 * natOfBool e.startup + 2 ^ 11 * e.pool.length

def entSlot (s : State) (off : Nat) : Nat :=
  match off with
  | 0x00 => entStatus s.ent
  | 0x08 => s.ent.requests.reg
  | 0x10 => s.ent.reseeds.reg
  | 0x18 => s.ent.windows.reg
  | 0x20 => s.ent.since
  | 0x28 => s.ent.events.toNat
  | _ =>
    if 0x100 ≤ off && off < 0x200 then arraySlot (fun i => min 262143 ((s.ent.osc[i]?).getD 0)) (off - 0x100)
    else if 0x200 ≤ off && off < 0x280 then arraySlot (fun j => min (2 ^ 32 - 1) ((s.ent.pair[j]?).getD 0)) (off - 0x200)
    else 0

/-! ## MEMC, GDC and CXLP -/

/-- MEMC_INVAL_STATUS (R617). -/
def invalStatus (m : Memc) : Nat := natOfBool m.busy.isSome + 2 * natOfBool m.ignored

/-- MEMC_MIG_HOLD (R618): HELD beside the fields that software writes. -/
def migHoldReg (m : Memc) : Nat := m.migHold.toNat + 2 ^ 14 * natOfBool m.held

/-- MEMC_REDIRECT (R621). -/
def redirectReg (m : Memc) : Nat := (List.range 64).foldl (fun w k => setBit w k (mapFind m.redirect k).isSome) 0

def memcSlot (s : State) (off : Nat) : Nat :=
  match off with
  | 0x00 => s.memc.astabBase.toNat
  | 0x08 => s.memc.invalVa.toNat
  | 0x10 => s.memc.inval.toNat
  | 0x18 => invalStatus s.memc
  | 0x20 => migHoldReg s.memc
  | 0x28 => s.memc.fault.toNat
  | 0x30 => s.memc.faultVa.toNat
  | 0x38 => s.memc.poison.reg
  | 0x40 => s.memc.recompute.reg
  | 0x48 => s.memc.migrations.reg
  | 0x50 => s.memc.events.toNat
  | 0x58 => redirectReg s.memc
  | _ => 0

/-- GDC_STATUS (R623). -/
def gdcStatus (g : Gdc) : Nat :=
  g.rate + 2 ^ 4 * g.live.toNat + 2 ^ 8 * g.retired.toNat + 2 ^ 12 * g.draining.toNat + 2 ^ 16 * natOfBool g.hot

def gdcSlot (g : Gdc) (off : Nat) : Nat :=
  match off with
  | 0x00 => gdcStatus g
  | 0x08 => g.crc.reg
  | 0x10 => g.ecc.reg
  | 0x18 => g.poison.reg
  | 0x20 => g.events.toNat
  | _ => 0

def CxlState.code : CxlState → Nat
  | .noLink => 0
  | .active => 1
  | .draining => 2
  | .lost => 3

/-- CXLP_STATUS (R626). -/
def cxlStatus (x : Cxlp) : Nat :=
  x.state.code + 4 * natOfBool x.switched + 8 * x.ranges.length + 2 ^ 7 * x.lanes + 2 ^ 12 * x.speed

/-- CXLP_CAPACITY (R627). -/
def cxlCapacity (x : Cxlp) : Nat := (x.ranges.map (fun r => r.2.1)).sum

def cxlSlot (x : Cxlp) (off : Nat) : Nat :=
  match off with
  | 0x00 => cxlStatus x
  | 0x08 => cxlCapacity x
  | 0x10 => x.poison.reg
  | 0x18 => x.events.toNat
  | _ => 0

/-! ## SILK -/

/-- SILK_SELF (R772). -/
def silkSelf (k : Silk) : Nat :=
  match k.device with
  | some d => d + 2 ^ 12
  | none => 0

/-- SILK_SYNC (R774). -/
def silkSync (k : Silk) : Nat :=
  k.role + 4 * natOfBool k.locked + 16 * (if k.role = 2 then k.master else 0) + 2 ^ 32 * k.offset.toNat + 2 ^ 48 * k.delay.toNat

/-- SILK_PAIR (R775). -/
def silkPair (k : Silk) : Nat :=
  natOfBool k.pairEnable + 2 * k.pairRole + 4 * natOfBool k.pairMismatch + 16 * k.pairPartner + 2 ^ 32 * k.pairCompared.toNat

def PortState.code : PortState → Nat
  | .down => 0
  | .training => 1
  | .up8 => 2
  | .upLow => 3
  | .upHigh => 4

/-- SILK_PORT_STATUS_p (R780). -/
def portStatus (x : Port) : Nat :=
  x.state.code + 8 * x.engine + 2 ^ 8 * x.partner + 2 ^ 20 * natOfBool x.partnerDev

def portSlot (x : Port) (off : Nat) : Nat :=
  match off with
  | 0x00 => portStatus x
  | 0x08 => x.retries.reg
  | 0x10 => x.crc.reg
  | 0x18 => x.events.toNat
  | _ => 0

/-- SILK_ROUTE_n as last written (R782), in effect or not yet (R721). -/
def silkRoute (s : State) (n : Nat) : Nat := ((mapFind s.silk.routeNext n).getD (mapGet 0#12 s.silk.routes n)).toNat

def silkSlot (s : State) (off : Nat) : Nat :=
  let k := s.silk
  match off with
  | 0x00 => silkSelf k
  | 0x08 => k.timeout.toNat
  | 0x10 => silkSync k
  | 0x18 => silkPair k
  | 0x20 => k.events.toNat
  | 0x28 => k.lostDevice.toNat
  | 0x30 => k.late.reg
  | 0x38 => k.rejects.reg
  | _ =>
    if 0x100 ≤ off && off < 0x200 then
      (if off % 16 = 0 then mapGet 0#64 k.winBase ((off - 0x100) / 16) else mapGet 0#64 k.winLimit ((off - 0x100) / 16)).toNat
    else if 0x800 ≤ off && off < 0xB00 then portSlot (s.portOf ((off - 0x800) / 0x40)) (off % 0x40)
    else if 0x2000 ≤ off && off < 0x6000 then arraySlot (silkRoute s) (off - 0x2000)
    else 0

/-! ## HOSTP, DISP, MGMT and the pages of BAR0 -/

/-- HOSTP_ID (R866). -/
def hostId (f : Fuses) : Nat := f.vendor.toNat + 2 ^ 16 * 0x9600 + 2 ^ 32 * f.revision.toNat + 2 ^ 40 * f.grade

/-- HOSTP_STATUS (R867). -/
def hostStatus (h : Hostp) : Nat := natOfBool h.linkUp + 2 * h.width + 2 ^ 5 * h.speed + 2 ^ 7 * h.engine

def hostSlot (s : State) (off : Nat) : Nat :=
  match off with
  | 0x00 => hostId s.fuses
  | 0x08 => hostStatus s.hostp
  | 0x10 => s.hostp.aperture.toNat
  | 0x18 => s.hostp.regwin.toNat
  | 0x20 => s.hostp.events.toNat
  | _ => 0

/-- Launches started and not completed (R875). -/
def startedLaunches (s : State) : Nat := (s.disp.launches.filter (·.started)).length

/-- DISP_SYNC_OWNER_g. -/
def syncOwner (s : State) (g : Nat) : Nat := (mapGet 0#32 s.disp.owner g).toNat

def dispSlot (s : State) (off : Nat) : Nat :=
  let d := s.disp
  match off with
  | 0x00 => d.qtabBase.toNat
  | 0x08 => pairSlot d.qctl.toNat (natOfBool d.qctlBusy + 2 * natOfBool d.qctlRefused)
  | 0x10 => d.launches.length + 2 ^ 16 * startedLaunches s
  | 0x18 => d.events.toNat
  | 0x20 => d.launchCount.reg
  | 0x28 => d.refusalCount.reg
  | 0x30 => d.cycleCount.reg
  | _ => if 0x800 ≤ off && off < 0xC00 then arraySlot (syncOwner s) (off - 0x800) else 0

def QState.code : QState → Nat
  | .disabled => 0
  | .idle => 1
  | .active => 2
  | .disabling => 3
  | .faulted => 4

/-- DISP_QSTATE_q (R883). -/
def queueState (s : State) (q : Nat) : Nat :=
  let x := s.queue q
  x.state.code + 8 * natOfBool x.doorbellIgnored + 16 * natOfBool (x.enabled && cqFull s q) + 2 ^ 16 * outstanding s q

/-- A doorbell page (R879). -/
def doorbellSlot (s : State) (q off : Nat) : Nat :=
  let x := s.queue q
  match off with
  | 0x00 => x.t.toNat
  | 0x08 => x.h.toNat
  | 0x10 => natOfBool x.armed
  | 0x18 => x.f.toNat
  | 0x20 => queueState s q
  | _ => 0

/-- A sync page (R884 to R886). -/
def syncSlot (s : State) (off : Nat) : Nat :=
  let n := off / 16
  if off % 16 = 0 then (s.sync n).value.toNat else natOfBool (s.sync n).error + 2 ^ 16 * waiters s n

/-- Words of a request FIFO: committed packets and the open one, each with its length word (R680). -/
def Box.openWords (b : Box) : Nat :=
  match b.openPkt with
  | some ws => if ws.isEmpty then 0 else ws.length + 1
  | none => 0

def Box.reqWords (b : Box) : Nat := (b.requests.map (fun p => p.words.length + 1)).sum + b.openWords

/-- Words of a response FIFO. -/
def Box.rspWords (b : Box) : Nat := (b.responses.map (·.length)).sum

/-- MGMT_MB_COUNT_m (R973). -/
def mbCount (b : Box) : Nat :=
  b.reqWords + 2 ^ 16 * b.requests.length + 2 ^ 32 * b.rspWords + 2 ^ 48 * b.responses.length

/-- The word at the read end of a response FIFO, zero where it holds none (R937). -/
def Box.front (b : Box) : Word := (b.responses.headD []).headD 0

/-- MGMT_STATUS (R974). -/
def mgmtStatus (m : Mgmt) : Nat :=
  m.state + 2 ^ 3 * m.point + 2 ^ 5 * (m.nextTarget.getD m.target) + 2 ^ 7 * natOfBool m.rampPending + 2 ^ 8 * natOfBool m.updating +
    2 ^ 9 * natOfBool m.sanitising + 2 ^ 10 * natOfBool m.sanitised + 2 ^ 12 * m.log.length

/-- A mailbox pair (R932); REQ and CTL are WO. -/
def boxSlot (b : Box) (off : Nat) : Nat :=
  match off with
  | 0x10 => b.front.toNat
  | 0x18 => mbCount b
  | _ => 0

def mgmtSlot (s : State) (off : Nat) : Nat :=
  match off with
  | 0x1000 => mgmtStatus s.mgmt
  | 0x1008 => s.mgmt.fwVersion.toNat
  | 0x1010 => s.mgmt.events.toNat
  | 0x1018 => s.mgmt.eventLost.reg
  | _ => if off < 0x800 then boxSlot (s.box (off / 0x100)) (off % 0x100) else 0

/-- The first 32 MiB of BAR0 (R798, R800): what offset o reads. A program reads zero in the MGMT block (R933). -/
def barSlot (s : State) (src : Source) (o : Nat) : Nat :=
  if o < 0x10000 then hostSlot s o
  else if o < 0x20000 then dispSlot s (o - 0x10000)
  else if o < 0x29000 then leNat ((List.range 8).map (fun i => mapGet 0#8 s.hostp.msix (o + i)))
  else if 0x30000 ≤ o && o < 0x40000 then (if src = .host then mgmtSlot s (o - 0x30000) else 0)
  else if 0x100000 ≤ o && o < 0x200000 then syncSlot s (o - 0x100000)
  else if 0x1000000 ≤ o && o < 0x2000000 then doorbellSlot s ((o - 0x1000000) / 0x1000) (o % 0x1000)
  else 0

/-! ## The register region -/

/-- The local physical address of the first byte of BAR0 (R798). -/
def barBase : Nat := 0x00F006000000

/-- The eight bytes at an aligned address of the register region (R520), as a source reads them. -/
def regSlot (s : State) (src : Source) (a : Nat) : Nat :=
  let o := a - Config.regBase
  if o < 0x1000000 then 0
  else if o < 0x2000000 then cluSlot s ((o - 0x1000000) / 0x10000) (o % 0x10000)
  else if o < 0x2800000 then paceSlot s (o - 0x2000000)
  else if o < 0x3000000 then traceSlot s (o - 0x2800000)
  else if o < 0x3400000 then coreSlot s ((o - 0x3000000) / 0x4000) (o % 0x4000 / 0x100) (o % 0x100)
  else if o < 0x4000000 then 0
  else if o < 0x4800000 then memcSlot s (o - 0x4000000)
  else if o < 0x4801000 then gdcSlot (s.gdcOf ((o - 0x4800000) / 0x100)) (o % 0x100)
  else if 0x5000000 ≤ o && o < 0x5000400 then cxlSlot (s.cxlOf ((o - 0x5000000) / 0x100)) (o % 0x100)
  else if 0x5800000 ≤ o && o < 0x6000000 then silkSlot s (o - 0x5800000)
  else if 0x6000000 ≤ o && o < 0x8000000 then barSlot s src (o - 0x6000000)
  else if 0x8000000 ≤ o && o < 0x8001000 then entSlot s (o - 0x8000000)
  else 0

/-- The address behind a BAR0 offset (R798, R799). -/
def barAddr (s : State) (off : Nat) : Nat :=
  if off < 0x2000000 then barBase + off else Config.regBase + s.hostp.regwin.toNat % 8 * 0x2000000 + (off - 0x2000000)

/-- What an aligned access of 4 or 8 bytes reads at an address of the register region. -/
def readReg (s : State) (src : Source) (a size : Nat) : Nat :=
  let v := regSlot s src (a / 8 * 8)
  if size = 8 then v else if a % 8 = 0 then v % 2 ^ 32 else v / 2 ^ 32

end Sys2Proof.Machine
end

