-- ==== Sys2Proof/Machine/Txn.lean ====
section
/-! DEFINITION. Transactions of the Stream engines (R70, R381, R382, R651) and of the start barrier: how they set out over the
on-chip network and through the Silk egress, and what a failed one does (R719 to R721, R726, R727, R738 to R744). -/

namespace Sys2Proof.Machine

/-! ## Issue -/

/-- The first 64 B line that a transaction covers, and the bytes of the lines it covers (R726). -/
def Txn.base (t : Txn) : Nat := t.addr / 64 * 64
def Txn.cover (t : Txn) : Nat := ceilDiv (t.addr + t.bytes) 64 * 64 - t.base

/-- The packets of a transaction (R725, R726). A write carries exactly the bytes stored (DEDUCED, log entry 28). -/
def Txn.packets (t : Txn) (me : Nat) : List SilkPkt :=
  match t.kind with
  | .read => [{ typ := 0, vc := 1, src := me, dest := t.device, tag := t.tag, length := t.cover, addr := t.base }]
  | .write => writePackets me t.device t.tag t.addr (untagged t.data)
  | .atomic => [{ typ := 4, vc := 1, src := me, dest := t.device, tag := t.tag, length := 8, kind := t.atomic
                  addr := t.addr, a := BitVec.ofNat 64 t.operand }]

/-- The device has transactions outstanding to a device. -/
def txnsTo (s : State) (n : Nat) : Bool := s.silk.txns.any (fun t => t.device = n)

/-- New transactions to a device wait while the ports that its outstanding ones use are to change, by a route change or because
a port has come up or gone down (R721); without a port up, and to a lost peer, they fail at once (R719, R742).
DEDUCED, log entry 79; unsafe. -/
def routeWaits (s : State) (dev : Nat) : Bool :=
  let up := routePorts s dev
  !s.silk.lost.contains dev &&
    ((mapFind s.silk.routeNext dev).isSome || (!up.isEmpty && s.silk.txns.any (fun t => t.device = dev && t.via != up)))

/-- A transaction to a device enters the list of those outstanding to other devices, with its TAG and its port; none where it
fails at once as lost (R719, R742). -/
def openTxn (t : Txn) (s : State) : Option (Txn × State) :=
  if unreachable s t.device t.addr then none else
  match egressPort s t.device t.addr with
  | some p =>
    let t := { t with tag := s.silk.nextTag, port := p, issued := s.now, via := routePorts s t.device, unit := .hub, unitNo := 6 + p }
    some (t, { s with silk := { s.silk with txns := s.silk.txns ++ [t], nextTag := (s.silk.nextTag + 1) % 2 ^ 32 } })
  | none => none

/-- A transaction of a hub unit leaves through its port and is outstanding; none where it fails at once as lost. -/
def issueTxn (t : Txn) (s : State) : Option State :=
  match openTxn t s with
  | some (t, s) => some ((t.packets (s.silk.device.getD 0)).foldl (fun s k => emitSilk t.port k s) s)
  | none => none

/-- A Stream engine that would wait on a lost read or write ends its launch (R740). -/
def lostTxn (t : Txn) (s : State) : State :=
  match t.issuer, t.kind with
  | .stream c l, .read =>
    if (s.cluster c).launch != some t.launch then s else
    let s := coreEvent c l 1 (memcPoison s)
    logEvent 1 c t.addr l (s.modCluster c (fun k => k.abandonWith { core := l, places := [], lost := true }))
  | .unit, _ => s
  | _, _ => stopLaunch t.launch 0x400 s

/-! ## Stream engines: transactions over the on-chip network (R70, R381, R382, R635, R640) -/

/-- The unit of the network that performs an access of cluster c at a local physical address; none where the crossbar of the
cluster reaches it (R69, R70). -/
def accessUnit (s : State) (c a : Nat) : Option (UnitKind × Nat) :=
  match placeOf s a with
  | .stacked d _ _ => if d = c then none else some (.crossbar, d)
  | .core d _ _ => if d = c then none else some (.crossbar, d)
  | .gddr q _ => some (.attached, q)
  | .cxl d _ => some (.hub, 2 + d)
  | _ => none

/-- A transaction to another device. -/
def Txn.remote (t : Txn) : Bool := t.unit == .hub && 6 ≤ t.unitNo

/-- DEST_CLUSTER and DEST_INDEX of the packets of a transaction (R641, R642). -/
def Txn.destCluster (t : Txn) : Nat := if t.unit == .attached then gddrAttach t.unitNo else if t.unit == .hub then 0 else t.unitNo
def Txn.destIndex (t : Txn) : Nat := if t.unit == .hub then t.unitNo else 0

/-- The request packets of a transaction (R640, R641): a read asks for the whole 64 B lines that hold its bytes (R381), a write
carries its bytes. -/
def Txn.requests (c l : Nat) (t : Txn) : List Pkt :=
  let k : Pkt := { typ := 0, vc := 1, flits := 1, last := true, destUnit := t.unit, destCluster := t.destCluster
                   destIndex := t.destIndex, srcUnit := .core, srcCluster := c, srcIndex := l, txn := t.num
                   launch := t.launch % 65536, addr := t.base, length := t.cover }
  match t.kind with
  | .write =>
    let ps := chunks 1024 t.data
    ps.zipIdx.map (fun e => { k with
      typ := 1, flits := 1 + ceilDiv e.1.length 64, last := e.2 + 1 == ps.length, addr := t.addr + 1024 * e.2
      length := e.1.length, payload := .bytes (untagged e.1) })
  | _ => [k]

/-- A transaction sets out: the Stream engine of a core hands its packets to its router and holds it outstanding. -/
def sendTxn (c l : Nat) (t : Txn) (s : State) : State :=
  let port := corePort c (physOf s c l) 1
  let s := s.setFifo port (s.fifo port ++ t.requests c l)
  s.modCore c l (fun k => { k with sent := k.sent ++ [t], nextTxn := (k.nextTxn + 1) % 65536 })

/-- A Stream engine of a core sends the transactions that wait, up to eight outstanding (R382, R727); a transaction to a
device whose route is about to change waits (R721). -/
def sendWaiting (c l : Nat) : Nat → State → State
  | 0, s => s
  | fuel + 1, s =>
    let k := s.core c l
    match k.waiting with
    | [] => s
    | t :: ts =>
      if 8 ≤ k.sent.length || (t.remote && routeWaits s t.device) then s else
      let s := s.modCore c l (fun k => { k with waiting := ts })
      let t := { t with issuer := .stream c l, num := k.nextTxn }
      if t.remote then
        match openTxn t s with
        | some x => sendWaiting c l fuel (sendTxn c l x.1 x.2)
        | none => sendWaiting c l fuel (lostTxn t s)
      else sendWaiting c l fuel (sendTxn c l t s)

/-- New transactions of a Stream engine. -/
def startTxns (c l : Nat) (ts : List Txn) (s : State) : State :=
  let s := s.modCore c l (fun k => { k with waiting := k.waiting ++ ts })
  sendWaiting c l (s.core c l).waiting.length s

/-- Cores whose Stream engine has transactions waiting. -/
def waitingCores (s : State) : List (Nat × Nat) :=
  s.clusters.flatMap (fun e => (e.2.cores.filter (fun k => !k.2.waiting.isEmpty)).map (fun k => (e.1, k.1)))

/-- The Stream engines that wait send what they may. -/
def resumeWaiting (s : State) : State :=
  (waitingCores s).foldl (fun s e => sendWaiting e.1 e.2 (s.core e.1 e.2).waiting.length s) s

/-- A route change of a device takes effect once none of its transactions is outstanding (R721). -/
def settleRoute (dev : Nat) (s : State) : State :=
  match mapFind s.silk.routeNext dev with
  | none => s
  | some r =>
    if txnsTo s dev then s else
    { s with silk := { s.silk with routes := mapSet s.silk.routes dev r, routeNext := mapErase s.silk.routeNext dev } }

end Sys2Proof.Machine
end

