-- ==== Sys2Proof/Machine/HostOps.lean ====
section
/-! DEFINITION. What a write of each register with an effect of its own does: doorbells and queues (file 10, R803 to R819,
R872 to R883, R960), sync objects (R831 to R833), invalidation and the migration hold (file 07, R575, R576, R614 to R618),
routes (file 09, R721, R743), mailboxes (file 12, R934 to R937, R940; file 08, R680 to R684). -/

namespace Sys2Proof.Machine

/-- Host accesses reach the device. -/
def State.host (s : State) : Bool := s.on && s.hostp.linkUp

/-- DESIGN CHOICE, log entry 10: the list of what left the device is the model's own. -/
def State.emit (s : State) (o : Output) : State := { s with out := s.out ++ [o] }

/-! ## Doorbells -/

/-- DISP_SQ_TAIL (R807, R812, R880). -/
def Queue.tail (x : Queue) (v : Word32) : Queue :=
  if !x.enabled then x
  else if x.sqEntries < (v - x.f).toNat || (v - x.f).toNat < (x.t - x.f).toNat then { x with doorbellIgnored := true }
  else { x with t := v, state := .active }

/-- DISP_CQ_HEAD (R814, R817, R880). -/
def Queue.head (x : Queue) (v : Word32) : Queue := if !x.enabled then x else { x with h := v }.wake

def ringTail (q : Nat) (v : Word32) (s : State) : State := s.setQueue q ((s.queue q).tail v)
def ringHead (q : Nat) (v : Word32) (s : State) : State := s.setQueue q ((s.queue q).head v)

/-- DISP_CQ_ARM (R819, R880): with completions pending the vector goes out at once, if the pair has one. -/
def ringArm (q : Nat) (arm : Bool) (s : State) : State :=
  let x := s.queue q
  if !x.enabled then s
  else if arm && x.c != x.h then
    let s := s.setQueue q { x with armed := false }
    if x.vecEn then sendMsix x.vector s else s
  else s.setQueue q { x with armed := arm }

/-- W1C of DISP_QSTATE (R880, R883). -/
def clearIgnored (q : Nat) (s : State) : State :=
  let x := s.queue q
  if x.enabled then s.setQueue q { x with doorbellIgnored := false } else s

/-! ## Enabling and disabling queues -/

def powerOfTwo (n : Nat) : Bool := (List.range 17).any (fun k => n = 2 ^ k)

def zeroAt (b : List Byte) (off n : Nat) : Bool := ((b.drop off).take n).all (· == 0)

/-- A queue-table entry keeps R802. -/
def entryGood (b : List Byte) : Bool :=
  fieldAt b 2 1 ≤ 3 && fieldAt b 4 2 % 2 ^ 15 < 2 ^ 11 &&
  fieldAt b 0x8 8 % 4096 = 0 && fieldAt b 0x10 8 % 4096 = 0 &&
  powerOfTwo (fieldAt b 0x18 4) && 2 ≤ fieldAt b 0x18 4 && powerOfTwo (fieldAt b 0x1C 4) && 2 ≤ fieldAt b 0x1C 4

/-- The queue that an entry describes, with indices zero (R803). -/
def entryQueue (b : List Byte) : Queue :=
  { state := .idle, asid := fieldAt b 0 2 % 4096, priority := fieldAt b 2 1, vector := fieldAt b 4 2 % 2 ^ 11, vecEn := bit (fieldAt b 4 2) 15
    sqVa := fieldAt b 0x8 8, cqVa := fieldAt b 0x10 8, sqEntries := fieldAt b 0x18 4, cqEntries := fieldAt b 0x1C 4 }

/-- REFUSED of DISP_QCTL_STATUS. -/
def refuseQueue (s : State) : State := { s with disp := { s.disp with qctlRefused := true } }

/-- The address of queue-table entry q. -/
def entryAddr (s : State) (q : Nat) : Nat := bits s.disp.qtabBase.toNat 12 40 * 4096 + 64 * q

/-- A poisoned entry is consumed by the dispatcher (R594), no launch being concerned. -/
def poisonedEntry (s : State) (q : Nat) : State := refuseQueue (logEvent 1 (hubSource 0) (entryAddr s q) 0 (memcPoison s))

/-- OP 1 of DISP_QCTL (R803, R804, R874).
DEDUCED, log entry 48: a poisoned queue-table entry is refused and counts as consumed poison. -/
def enableQueue (q : Nat) (s : State) : State :=
  if (s.queue q).state != .disabled || !s.disp.qtabBase.getLsbD 0 || s.mgmt.sanitising || !tablePlace s (entryAddr s q) then
    refuseQueue s
  else match physRead s (entryAddr s q) 64 with
    | none => refuseQueue s
    | some ts =>
      if anyPoison ts then poisonedEntry s q
      else if entryGood (plain ts) then s.setQueue q (entryQueue (plain ts))
      else refuseQueue s

/-- OP 2 of DISP_QCTL (R805). -/
def disableQueue (q : Nat) (s : State) : State :=
  let x := s.queue q
  if x.state == .disabled then s
  else s.setQueue q { x with state := if outstanding s q = 0 then .disabled else .disabling }

/-- A write of DISP_QCTL (R873, R960); the operation takes effect at once. -/
def queueControl (v : Word32) (s : State) : State :=
  let s := { s with disp := { s.disp with qctl := v &&& 0x3FFF#32 } }
  let q := bits v.toNat 0 12
  if !v.getLsbD 31 then s
  else if s.mgmt.state != 2 then refuseQueue s
  else if bits v.toNat 12 2 = 1 then enableQueue q s
  else if bits v.toNat 12 2 = 2 then disableQueue q s
  else s

/-! ## Sync objects -/

/-- DISP_SYNC_VALUE (R832). -/
def syncRaise (n : Nat) (v : Word) (s : State) : State :=
  let x := s.sync n
  setSync n { x with value := if x.value < v then v else x.value } s

/-- W1C of DISP_SYNC_STATUS (R886). -/
def syncClear (n : Nat) (s : State) : State := setSync n { s.sync n with error := false } s

/-- DISP_SYNC_OWNER (R831): the owner, and every object of the group at zero. -/
def setOwner (g : Nat) (v : Word32) (s : State) : State :=
  let s := { s with disp := { s.disp with owner := mapSet s.disp.owner g (v &&& 0x80000FFF#32) } }
  (List.range 256).foldl (fun s i => setSync (256 * g + i) {} s) s

/-! ## Invalidation and the migration hold -/

/-- A write of MEMC_INVAL_VA (R615, R617). -/
def writeInvalVa (v : Word) (s : State) : State :=
  { s with memc := if s.memc.busy.isSome then { s.memc with ignored := true }
                   else { s.memc with invalVa := v &&& 0x01FFFFFFFFFF0000#64 } }

/-- The scope that a GO names; none for SCOPE 3. -/
def scopeOf (m : Memc) (v : Word32) : Option Scope :=
  match bits v.toNat 12 2 with
  | 0 => some (.page (bits v.toNat 0 12) m.invalVa.toNat)
  | 1 => some (.space (bits v.toNat 0 12))
  | 2 => some .all
  | _ => none

/-- A write of MEMC_INVAL (R616, R617). -/
def writeInval (v : Word32) (s : State) : State :=
  let m := s.memc
  if m.busy.isSome then { s with memc := { m with ignored := true } } else
  let m := { m with inval := v &&& 0x3FFF#32 }
  { s with memc := if !v.getLsbD 31 then m else match scopeOf m v with
    | some x => { m with busy := some x }
    | none => { m with ignored := true } }

/-- A page of an address space lies in the scope. -/
def Scope.covers (x : Scope) (asid va bytes : Nat) : Bool :=
  match x with
  | .page a v => a = asid && va < v + 0x10000 && v < va + bytes
  | .space a => a = asid
  | .all => true

/-- Every transaction translated by a translation in scope has completed, whether a Stream engine waits for its answer or has yet
to issue it. -/
def scopeQuiet (s : State) (x : Scope) : Bool :=
  s.clusters.all (fun e => e.2.cores.all (fun k => (k.2.sent ++ k.2.waiting).all (fun t => !x.covers t.asid t.page t.pageBytes)))

/-- Translations in scope are dropped, with the preloads of R845 and the kept roots of R916 that a covered page concerns. -/
def dropScope (x : Scope) (s : State) : State :=
  { s with
    memc := { s.memc with tlb := s.memc.tlb.map (fun u => (u.1, u.2.filter (fun e => !x.covers e.asid e.va e.bytes))) }
    disp := { s.disp with
      preloads := s.disp.preloads.filter (fun p => !p.pages.any (fun v => x.covers p.asid (65536 * v) 65536))
      kept := s.disp.kept.filter (fun k => !x.covers k.asid k.va (max k.bytes 1)) } }

/-- The end of an invalidation (R576). -/
def endInval (s : State) : State :=
  match s.memc.busy with
  | some x => if scopeQuiet s x then dropScope x { s with memc := { s.memc with busy := none } } else s
  | none => s

/-- A write of MEMC_MIG_HOLD (R618): HELD is found anew. -/
def writeMigHold (v : Word32) (s : State) : State :=
  { s with memc := { s.memc with migHold := v &&& 0x3FFF#32, held := false } }

/-- The hold covers an address space. -/
def Memc.holds (m : Memc) (asid : Nat) : Bool :=
  m.migHold.getLsbD 13 && (m.migHold.getLsbD 12 || bits m.migHold.toNat 0 12 = asid)

/-! ## Silk routes -/

/-- The lost state of a peer ends (R743), and with it the count of its timeouts in succession (DEDUCED, log entry 60). -/
def peerBack (n : Nat) (s : State) : State :=
  { s with silk := { s.silk with
      lost := setErase s.silk.lost n
      strikes := if s.silk.lost.contains n then mapErase s.silk.strikes n else s.silk.strikes } }

/-- A write of SILK_ROUTE_n: the egress changes its ports once no transaction to the device is outstanding (R721). -/
def writeRoute (n : Nat) (ports : BitVec 12) (s : State) : State :=
  let s := peerBack n s
  { s with silk := if txnsTo s n then { s.silk with routeNext := mapSet s.silk.routeNext n ports }
                   else { s.silk with routes := mapSet s.silk.routes n ports, routeNext := mapErase s.silk.routeNext n } }

/-! ## Mailboxes -/

/-- MGMT_MB_REQ (R935, R936). -/
def Box.append (b : Box) (w : Word) : Box :=
  let ws := b.openPkt.getD []
  if b.reqWords + (if ws.isEmpty then 2 else 1) ≤ 513 then { b with openPkt := some (ws ++ [w]) }
  else { b with openPkt := some ws, overrun := true }

/-- The open packet is rewound. -/
def Box.rewind (b : Box) : Box := { b with openPkt := none, overrun := false, flushReq := false }

/-- COMMIT (R935, R936): the packet takes its SEQ; one that a flush waits for is then discarded (R684). -/
def Box.commit (b : Box) (poison : Bool) : Box :=
  match b.openPkt with
  | none => b
  | some ws =>
    if b.overrun then b.rewind
    else { b.rewind with
      reqSeq := b.reqSeq + 1
      requests := if b.flushReq then [] else b.requests ++ [{ words := ws, seq := b.reqSeq, poison := poison }] }

/-- FLUSH of both FIFOs (R684): a flush waits for the open request packet and for the response being read. -/
def Box.flush (b : Box) : Box :=
  { b with requests := [], flushReq := b.openPkt.isSome
           responses := if b.begun then b.responses.take 1 else [], flushRsp := b.begun }

/-- The host reads a response word (R937). -/
def Box.read (b : Box) : Box :=
  match b.responses with
  | [] => b
  | ws :: rest =>
    if ws.length ≤ 1 then { b with begun := false, flushRsp := false, responses := if b.flushRsp then [] else rest }
    else { b with begun := true, responses := ws.drop 1 :: rest }

/-- A waiting response enters the FIFO if it has room (R940); one committed while a flush waits is discarded. -/
def Box.respond (b : Box) : Box :=
  match b.waiting with
  | none => b
  | some bs =>
    if 513 < b.rspWords + 1 + ceilDiv bs.length 8 then b
    else { b with waiting := none, rspSeq := b.rspSeq + 1
                  responses := if b.flushRsp then b.responses
                    else b.responses ++ [lengthWord bs.length b.rspSeq :: wordsLe bs] }

/-- A write of MGMT_MB_CTL (R971): the bits act in ascending order. -/
def mailCommit (m : Nat) (poison : Bool) (s : State) : State :=
  let b := s.box m
  let s := if b.openPkt.isSome && b.overrun then mgmtEvent 5 s else s
  s.setBox m (b.commit poison)

def mailControl (m : Nat) (v : Word32) (s : State) : State :=
  let s := if v.getLsbD 0 then mailCommit m false s else s
  let s := if v.getLsbD 1 then s.setBox m (s.box m).rewind else s
  if v.getLsbD 2 then s.setBox m (s.box m).flush else s

/-! ## Accesses that are not performed -/

def logAer (e : Aer) (s : State) : State := { s with hostp := { s.hostp with aer := s.hostp.aer ++ [e] } }

/-- A BAR0 access of a wrong size or alignment (R792). -/
def badAccess (write : Bool) (off size : Nat) (s : State) : State :=
  let s := logAer (.badSize write off size) s
  if write then s else s.emit .unsupportedRequest

end Sys2Proof.Machine
end

