-- ==== Sys2Proof/Machine/MgmtOps.lean ====
section
/-! DEFINITION. Operations of the management processor that commands, events and orders share (file 12): the event log, long
operations, operating points and the admission timing record, clusters out of service (file 01, R119), the topology table
(R129 to R132) and telemetry. -/

namespace Sys2Proof.Machine

/-! ## Event log (R951, R952) -/

/-- MGMT_EVENT_LOST counts a dropped record (R977). -/
def countLost (s : State) : State :=
  let m := s.mgmt
  { s with mgmt := { m with eventLost := m.eventLost.add 1, events := raiseIf (m.eventLost.hits 1) (raise m.events 1) 4 } }

/-- A record arrives at the management processor. -/
def logRecord (e : EvRec) (s : State) : State :=
  if 4096 ≤ s.mgmt.log.length then countLost s
  else
    let e := { e with cricket := BitVec.ofNat 64 s.now }
    { s with mgmt := { s.mgmt with log := s.mgmt.log ++ [e], events := raise s.mgmt.events 0 } }

/-- A record that the management processor makes itself. -/
def logOwn (kind detail : Nat) (s : State) : State :=
  logRecord { kind := kind, source := hubSource 1, detail := BitVec.ofNat 64 detail } s

/-- The 32 bytes of a record. -/
def EvRec.bytes (e : EvRec) : List Byte :=
  pack 32 [(0x0, 8, e.cricket.toNat), (0x8, 2, e.kind), (0xA, 2, e.source), (0x10, 8, e.wher.toNat), (0x18, 8, e.detail.toNat)]

/-! ## Long operations (R943, R944, R976) -/

def State.op (s : State) (kind : Nat) : LongOp := mapGet {} s.mgmt.ops kind
def State.setOp (s : State) (kind : Nat) (o : LongOp) : State := { s with mgmt := { s.mgmt with ops := mapSet s.mgmt.ops kind o } }

def startOp (kind step : Nat) (s : State) : State := s.setOp kind { state := 1, step := step }
def stepOp (kind step detail : Nat) (s : State) : State :=
  if (s.op kind).state = 1 then s.setOp kind { s.op kind with step := step, detail := detail } else s

/-- A long operation ends. -/
def endOp (kind : Nat) (ok : Bool) (detail : Nat) (s : State) : State :=
  let o := s.op kind
  mgmtEvent (if ok then 2 else 3)
    (s.setOp kind { o with state := if ok then 2 else 3, result := if ok then 0 else 0x300, detail := detail })

/-- The link operation in progress ends. -/
def endLink (ok : Bool) (detail : Nat) (s : State) : State := endOp 4 ok detail { s with mgmt := { s.mgmt with link := none } }

/-! ## Operating points (R953 to R959) -/

/-- The admission timing record takes the figures of a point (R953). -/
def replaceRecord (point : Nat) (pending : Bool) (s : State) : State :=
  let r := s.mgmt.record
  if r.point = point && r.pending = pending then s
  else { s with mgmt := { s.mgmt with
    record := { point := point, pending := pending, gen := r.gen + 1, figures := Config.figures point } } }

/-- The 128 bytes of the record (R953). -/
def TimingRecord.bytes (r : TimingRecord) : List Byte :=
  pack 128 ([(0x0, 1, r.point), (0x1, 1, natOfBool r.pending), (0x4, 4, r.gen.toNat)] ++
    r.figures.zipIdx.map (fun e => (0x8 + 8 * e.2, 8, e.1)))

/-- A change to another point is pending (R95, R956, R957). -/
def pendPoint (pt : Nat) (s : State) : State :=
  let s := { s with mgmt := { s.mgmt with target := pt, rampPending := true } }
  let s := if pt < s.mgmt.point then replaceRecord pt true s else replaceRecord s.mgmt.point false s
  startOp 1 1 s

/-- The pending change is cancelled (R957). -/
def cancelPoint (s : State) : State :=
  endOp 1 true 0 (replaceRecord s.mgmt.point false { s with mgmt := { s.mgmt with target := s.mgmt.point, rampPending := false } })

/-- OPPOINT_SET (R956, R957): the state, and whether it is answered with STARTED. -/
def setPoint (pt : Nat) (s : State) : State × Bool :=
  let m := s.mgmt
  if m.ramping then ({ s with mgmt := { m with nextTarget := some pt } }, true)
  else if pt != m.point then (pendPoint pt s, true)
  else if m.rampPending then (cancelPoint s, true)
  else (s, false)

/-- A ramp may begin (R96, R958). -/
def mayRamp (s : State) : Bool :=
  let m := s.mgmt
  m.rampPending && !m.ramping && (m.point < m.target || (m.summary.deadline = 0 && m.summary.paced = 0))

/-- The end of a ramp (R959); a request that arrived during it then takes effect (R957). -/
def endRamp (s : State) : State :=
  let pt := s.mgmt.target
  let next := s.mgmt.nextTarget
  let s := { s with mgmt := { s.mgmt with point := pt, ramping := false, rampPending := false, nextTarget := none } }
  let s := endOp 1 true 0 (logOwn 13 pt (replaceRecord pt false s))
  match next with
  | some p => (setPoint p s).1
  | none => s

/-! ## Clusters out of service (R119) -/

/-- Launches that name a cluster end (R119). -/
def stopNaming (c st : Nat) (s : State) : State :=
  (s.disp.launches.filter (fun l => !l.barrier && l.header.has c)).foldl (fun s l => stopLaunch l.id st s) s

/-- A cluster is taken out of service. -/
def outOfService (c : Nat) (s : State) : State :=
  let s := cluEvent c 4 (s.modCluster c (fun k => { k with state := .out }))
  logEvent 8 c 0 0 (stopNaming c 0x102 s)

/-! ## Firmware hand-over (Live update) -/

/-- A launch that runs while a processor hands over has FW_CHANGED (R922). -/
def markChanged (s : State) : State :=
  { s with disp := { s.disp with launches := s.disp.launches.map (fun l =>
      if l.started then { l with digest := { l.digest with fwChanged := true } } else l) } }

/-- The cluster whose controller has been sent its hand-over order. -/
def setHandover (c : Option Nat) (s : State) : State :=
  { s with mgmt := { s.mgmt with view := { s.mgmt.view with handover := c } } }

/-- The hand-over order of a cluster is sent (step 4). -/
def sendHandover (c : Nat) (s : State) : State :=
  if c < Config.clusters then sendOrder c .handover (setHandover (some c) s) else stepOp 2 5 0 (setHandover none s)

/-! ## What the management processor knows of the data plane (R74, R75) -/

/-- The view of a cluster as manufactured (R108). -/
def CluView.made (f : Fuses) (c : Nat) : CluView :=
  let m := manufactureMap f c
  { map := m.1, spares := BitVec.ofNat 64 m.2, fenced := BitVec.ofNat 64 (failedBits f c) }

def State.view (s : State) (c : Nat) : CluView := (mapFind s.mgmt.view.clusters c).getD (CluView.made s.fuses c)

def modView (f : View → View) (s : State) : State := { s with mgmt := { s.mgmt with view := f s.mgmt.view } }

def modCluView (c : Nat) (f : CluView → CluView) (s : State) : State :=
  modView (fun v => { v with clusters := mapSet v.clusters c (f (s.view c)) }) s

/-- A word with a bit set or cleared. -/
def putBit (w : Word) (n : Nat) (b : Bool) : Word := BitVec.ofNat 64 (setBit w.toNat n b)

/-- What a record of a cluster tells (R952): 3 fence, 4 spare in, 6 slice retired, 8 out of service. The map changes once with
each record of kind 3 or 6 (R142). -/
def CluView.learn (v : CluView) (kind detail : Nat) : CluView :=
  match kind with
  | 3 => { v with mapGen := v.mapGen + 1, fenced := putBit v.fenced detail true, spares := putBit v.spares detail false
                  unbound := findIdx (fun e => e == some detail) v.map 0
                  map := v.map.map (fun e => if e = some detail then none else e) }
  | 4 => { v with spares := putBit v.spares detail false, unbound := none
                  map := match v.unbound with
                    | some l => modifyAt v.map l (fun _ => some detail)
                    | none => v.map }
  | 6 => { v with mapGen := v.mapGen + 1, live := BitVec.ofNat 16 (setBit v.live.toNat detail false) }
  | 8 => { v with out := true }
  | _ => v

/-- The body of a CORE_MAP answer (R944). -/
def mapBody (s : State) (c : Nat) : List Byte :=
  pack 8 [(0, 4, (s.view c).mapGen.toNat), (4, 1, popCount 64 (s.view c).spares.toNat)]

/-- The request that an order came from is answered (R948). -/
def answerOrder (c result : Nat) (r : Option Reply) (s : State) : State :=
  match r with
  | none => s
  | some r => answer r.pair (message r.command r.tag result (mapBody s c)) s

/-- The disabled-unit map as the management processor knows it (R113, R921). -/
def viewImage (s : State) : List Byte :=
  mapImageOf s.lcores (fun c => { s.cluster c with map := (s.view c).map, live := (s.view c).live })
    (fun q => mapGet 0#4 s.mgmt.view.retired q)

/-! ## The topology table (R121 to R132) -/

/-- Nominal latency in ns (R127), in steps of 1/100 ns. -/
def latencyNs (p : Nat × Nat × Nat) (q : Nat) : Nat :=
  ceilDiv (2 * (250 * p.1 + 625 * p.2.1 + 375 * p.2.2)) 100 + (if q < 16 then 52 else if q < 20 then 60 else 20)

/-- A port is retired or absent (R131, R132), as records have told: a GDDR7 controller whose device has not trained or whose
channels are all retired, a CXL port without a device. The spec does not say when a port counts as absent; a Silk port always
stands (DESIGN CHOICE, log entry 84). -/
def portAbsent (s : State) (q : Nat) : Bool :=
  let v := s.mgmt.view
  if q < 16 then v.untrained.contains q || mapGet 0#4 v.retired q == 0xF
  else q < 20 && (mapGet [] v.devices (q - 16)).isEmpty

/-- An entry of the table (R131). -/
def topologyEntry (s : State) (c q : Nat) : List Byte :=
  let p := pathOf c q
  let hops := p.1 + p.2.1 + p.2.2
  pack 8 [(0, 1, hops), (1, 1, distanceClass hops), (2, 1, p.2.1),
    (3, 1, natOfBool (s.view c).out + 2 * natOfBool (portAbsent s q)), (4, 2, latencyNs p q),
    (6, 2, 4 * p.1 + 10 * p.2.1 + 6 * p.2.2)]

/-- MAP_GEN of the table. -/
def mapGenSum (s : State) : Nat := ((List.range Config.clusters).map (fun c => (s.view c).mapGen.toNat)).sum % 2 ^ 32

/-- The 64 bytes in front of the entries (R129). -/
def topologyHead (s : State) : List Byte :=
  pack 64 [(0x0, 4, 0x544F504F), (0x4, 2, 1), (0x6, 2, 8), (0x8, 2, 256), (0xA, 2, 32), (0xC, 4, mapGenSum s),
    (0x10, 4, 0x01020304), (0x14, 4, ((List.range Config.clusters).filter (fun c => (s.view c).out)).length)]

/-- Bytes off to off + n - 1 of the table, off and n multiples of 8. -/
def topologyBytes (s : State) (off n : Nat) : List Byte :=
  (List.range (n / 8)).flatMap (fun i =>
    let o := off + 8 * i
    if o < 64 then ((topologyHead s).drop o).take 8 else topologyEntry s ((o - 64) / 8 / 32) ((o - 64) / 8 % 32))

/-! ## Telemetry (R949, R950) -/

def nthNat (l : List Nat) (i : Nat) : Nat := (l[i]?).getD 0
def nthInt (l : List Int) (i : Nat) : Int := (l[i]?).getD 0

/-- The body of TELEMETRY_READ from offset 0x10; none for an item that does not exist. -/
def telemetryBody (s : State) (item index : Nat) : Option (List Byte) :=
  let b := s.board
  if item = 0 && index ≤ 4 then
    some (pack 8 [(0, 2, wrap 16 (nthInt b.temps index)), (2, 2, nthNat b.supplies index), (4, 4, nthNat b.powers index)])
  else if item = 1 && index = 0 then
    some (pack 8 [(0, 4, b.powers.sum), (4, 2, wrap 16 (b.temps.foldl max (nthInt b.temps 0)))])
  else if item = 2 && index % 256 ≤ 4 then
    let u := index % 256
    let total := if u = 4 then 66 else 15
    let first := index / 256
    if total ≤ first then none else
    let n := min 56 (total - first)
    some (pack 16 [(0, 2, total), (2, 2, n)] ++
      (List.range n).flatMap (fun i => leBytes 4 (mapGet 0 s.mgmt.fifoCounts (256 * u + first + i))))
  else none

/-- The count word of a bridge's or the hub crossbar's FIFO (R697, R950). -/
def fifoCount (s : State) (u f : Nat) : Nat :=
  let n := if u = 4 then 255036 + f else 254976 + 15 * u + f
  fifoFlits (s.fifo n) + 128 * (s.fifo n).length

/-- A bridge, or the hub crossbar with 4, sends the count words of its FIFOs (R75, R949): the record waits at its output toward the
hub, or at the output to the management processor. -/
def snapshotFifos (s : State) (u : Nat) : State :=
  let n := if u = 4 then fifoNum .hub 1 0 else fifoNum (.bridge u) 0 0
  let counts := (List.range (if u = 4 then 66 else 15)).map (fifoCount s u)
  s.setFifo n (s.fifo n ++ [reportPkt (hubSource 1) (.result (.fifos u counts))])

/-- A cluster controller sends the network counters of its cluster. -/
def snapshotCluster (s : State) (c : Nat) : State :=
  let k := s.cluster c
  sendResult c (.counters c [k.netPoison.reg, k.netDrops.reg, k.netMerges.reg]) s

/-- A GDDR7 controller sends its counters. -/
def snapshotGdc (s : State) (q : Nat) : State :=
  let g := s.gdcOf q
  s.setFifo (attPort q 0) (s.fifo (attPort q 0) ++
    [reportPkt (hubSource 0) (.result (.counters (256 + q) [g.crc.reg, g.ecc.reg, g.poison.reg]))])

/-- The reporting units send their counter-snapshot records (R75). -/
def takeSnapshot (s : State) : State :=
  let t := (List.range 5).foldl snapshotFifos s
  let t := (List.range 16).foldl snapshotGdc ((List.range Config.clusters).foldl snapshotCluster t)
  { t with mgmt := { t.mgmt with snapshotAt := s.now } }

end Sys2Proof.Machine
end

