-- ==== Sys2Proof/Machine/Router.lean ====
section
/-! DEFINITION. What the units of the on-chip network do with packets: delivery and acknowledgement (R651), the crossbar mesh
ports, and the memory ports with their arbiters (file 01, R133 to R136). -/

namespace Sys2Proof.Machine

/-- Packets wait at a router port. -/
def pushPort (n : Nat) (ps : List Pkt) (s : State) : State := s.setFifo n (s.fifo n ++ ps)

/-! ## Acknowledgements and responses (R640, R644, R651) -/

/-- The acknowledgement of a packet's commit to a source core. -/
def ackPkt (k : Pkt) (dst : UnitKind) (dc di target : Nat) : Pkt :=
  { typ := 3, vc := 2, flits := 1, last := true, destUnit := .core, destCluster := target / 64, destIndex := target % 64
    srcUnit := dst, srcCluster := dc, srcIndex := di, txn := k.txn, launch := k.launch, targets := [target] }

/-- The read responses to a request, at most 1 KiB each. -/
def replyPkts (k : Pkt) (data : List Tagged) : List Pkt :=
  let ps := chunks 1024 data
  ps.zipIdx.map (fun e =>
    { typ := 2, vc := 2, flits := 1 + ceilDiv e.1.length 64, last := e.2 + 1 == ps.length, destUnit := .core
      destCluster := k.srcCluster, destIndex := k.srcIndex, srcUnit := k.destUnit, srcCluster := k.destCluster
      srcIndex := k.destIndex, txn := k.txn, launch := k.launch, addr := k.addr + 1024 * e.2, length := e.1.length
      payload := .bytes e.1, targets := [64 * k.srcCluster + k.srcIndex] })

/-- A request has been performed: its data, or the acknowledgement of its last packet, sets out from the unit's port. -/
def answerRequest (port : Nat) (k : Pkt) (data : List Tagged) (s : State) : State :=
  if k.typ = 0 then pushPort port (replyPkts k data) s
  else if k.last then pushPort port [ackPkt k k.destUnit k.destCluster k.destIndex (64 * k.srcCluster + k.srcIndex)] s
  else s

/-! ## The units that perform requests (R70, R635) -/

/-- The 64 B lines that a request covers, and the part of the line i that it concerns: first address and end. -/
def lineCount (k : Pkt) : Nat := ceilDiv (k.addr + k.length) 64 - k.addr / 64
def lineAt (k : Pkt) (i : Nat) : Nat := 64 * (k.addr / 64 + i)
def linePart (k : Pkt) (i : Nat) : Nat × Nat := (max k.addr (lineAt k i), min (k.addr + k.length) (lineAt k i + 64))

/-- The part of a request in line i is performed at local physical addresses; an address in a hole reads as poison. -/
def performLine (k : Pkt) (i : Nat) (s : State) : State × List Tagged :=
  let p := linePart k i
  if k.typ = 0 then (noteDelivered p.1 (p.2 - p.1) s, (physRead s p.1 (p.2 - p.1)).getD (List.replicate (p.2 - p.1) (0, true)))
  else (physWrite s p.1 ((k.payload.bytesOf.drop (p.1 - k.addr)).take (p.2 - p.1)), [])

def performLines (k : Pkt) (s : State) : State × List Tagged :=
  (List.range (lineCount k)).foldl (fun acc i => let x := performLine k i acc.1; (x.1, acc.2 ++ x.2)) (s, [])

/-- The crossbar mesh port of a cluster performs a request from another cluster. -/
def serveCrossbar (c : Nat) (k : Pkt) (s : State) : State :=
  let x := performLines k s
  answerRequest (xbarPort c 2) k x.2 x.1

/-! ## Arbitration of the memory ports (R133 to R136) -/

def State.arbiter (s : State) (q : Nat) : Arbiter := mapGet {} s.net.arbiters q
def State.setArbiter (s : State) (q : Nat) (a : Arbiter) : State := { s with net := { s.net with arbiters := mapSet s.net.arbiters q a } }

/-- The weight of a source, by its distance class to port q of R130 (R134). -/
def sourceWeight (c q : Nat) : Nat :=
  let p := pathOf c q
  4 - distanceClass (p.1 + p.2.1 + p.2.2)

/-- The sources with pending requests, in ascending cluster number. -/
def Arbiter.pending (a : Arbiter) : List Nat := (a.sources.filter (fun e => !e.2.isEmpty)).map (·.1)

/-- The source that is granted next: the one being visited while its weight lasts, else the next one in the round (R135). -/
def Arbiter.next (a : Arbiter) : Option Nat :=
  if 0 < a.left && a.pending.contains a.last then some a.last
  else (a.pending.find? (fun c => a.last < c)).or a.pending.head?

/-- The request that is granted its next transaction of 64 B. -/
def Arbiter.head (a : Arbiter) : Option (Nat × PortReq) :=
  match a.next with
  | none => none
  | some c => ((mapGet [] a.sources c).head?).map (fun r => (c, r))

/-- A request enters the queue of its source (R133). -/
def Arbiter.take (a : Arbiter) (k : Pkt) : Arbiter :=
  { a with sources := mapModify [] a.sources k.srcCluster (· ++ [{ pkt := k }]) }

/-- The arbiter after a grant to source c, whose request at the head becomes r, or leaves the queue. -/
def Arbiter.granted (a : Arbiter) (q c : Nat) (r : Option PortReq) : Arbiter :=
  { sources := mapModify [] a.sources c (fun rs => match r with
      | some r => r :: rs.drop 1
      | none => rs.drop 1)
    last := c
    left := (if c = a.last && 0 < a.left then a.left else sourceWeight c q) - 1 }

/-- A memory controller's next grant is performed (R135); port is where its answers set out. -/
def grantLine (q port : Nat) (s : State) : State :=
  let a := s.arbiter q
  match a.head with
  | none => s
  | some (c, r) =>
    let x := performLine r.pkt r.granted s
    let r' := { r with granted := r.granted + 1, data := r.data ++ x.2 }
    if lineCount r.pkt ≤ r'.granted then answerRequest port r.pkt r'.data (x.1.setArbiter q (a.granted q c none))
    else x.1.setArbiter q (a.granted q c (some r'))

/-- The line and direction of a port's next grant. -/
def nextLine (s : State) (q : Nat) : Option (Nat × Bool) :=
  ((s.arbiter q).head).map (fun e => (lineAt e.2.pkt e.2.granted, e.2.pkt.typ != 0))

/-- The grants that the requests at a port still need. -/
def Arbiter.work (a : Arbiter) : Nat := (a.sources.map (fun e => (e.2.map (fun r => lineCount r.pkt - r.granted)).sum)).sum

/-- A CXL root port performs the writes whose turn it is; reads wait for their response, but on a lost link, or where no device
is left, they are poison (R560). -/
def pumpCxl (d : Nat) : Nat → State → State
  | 0, s => s
  | fuel + 1, s =>
    match nextLine s (16 + d) with
    | none => s
    | some (a, write) =>
      if write || (s.cxlOf d).state == .lost || placeOf s a == .hole then pumpCxl d fuel (grantLine (16 + d) (hubPort (2 + d) 2) s)
      else s

def pumpCxlPort (d : Nat) (s : State) : State := pumpCxl d (s.arbiter (16 + d)).work s

/-- The transaction of a request at a Silk egress. -/
def egressTxn (s : State) (k : Pkt) : Option Txn :=
  s.silk.txns.find? (fun t => t.issuer == .stream k.srcCluster k.srcIndex && t.num = k.txn && t.launch % 65536 = k.launch)

/-- The poison map of tagged bytes: a bit for each 8-byte word (R725). -/
def poisonMapOf (ts : List Tagged) : BitVec 128 :=
  BitVec.ofNat 128 ((chunks 8 ts).zipIdx.foldl (fun n e => setBit n e.2 (anyPoison e.1)) 0)

/-- The Silk packet of a request packet (R725, R726). -/
def egressPkt (me : Nat) (t : Txn) (k : Pkt) : SilkPkt :=
  let p : SilkPkt := { typ := 0, vc := 1, src := me, dest := t.device, tag := t.tag, length := k.length, addr := k.addr }
  if k.typ = 0 then p
  else { p with typ := 1, last := k.last, payload := plain k.payload.bytesOf, poisonMap := poisonMapOf k.payload.bytesOf }

/-- A Silk egress grants its next transaction of 64 B; the packet leaves with its last one. The packet of a transaction that has
failed meanwhile goes nowhere. -/
def grantSilk (p : Nat) (s : State) : State :=
  let a := s.arbiter (20 + p)
  match a.head with
  | none => s
  | some (c, r) =>
    let r' := { r with granted := r.granted + 1 }
    if r'.granted < lineCount r.pkt then s.setArbiter (20 + p) (a.granted (20 + p) c (some r')) else
    let s := s.setArbiter (20 + p) (a.granted (20 + p) c none)
    match egressTxn s r.pkt with
    | some t => emitSilk p (egressPkt (s.silk.device.getD 0) t r.pkt) s
    | none => s

/-- A Silk egress grants while no packet waits at its port for credits or room in the replay buffer. -/
def pumpEgress (p : Nat) : Nat → State → State
  | 0, s => s
  | fuel + 1, s => if (s.portOf p).queue.isEmpty then pumpEgress p fuel (grantSilk p s) else s

def pumpSilkPort (p : Nat) (s : State) : State := pumpEgress p (s.arbiter (20 + p)).work s

/-! ## Delivery to a core (R651, R668) -/

/-- The logical index bound to a position, if one is. -/
def logicalOf (s : State) (c p : Nat) : Option Nat := findIdx (fun e => e == some p) (s.cluster c).map 0

/-- Tagged bytes reach the core memory at a physical position; a fenced core's memory stays writable (R668). -/
def deliverBytes (s : State) (c p : Nat) (ps : List (Nat × Nat)) (data : List Tagged) : State :=
  (ps.foldl (fun (acc : State × List Tagged) q =>
    let bs := acc.2.take q.2
    let s := match logicalOf acc.1 c p with
      | some l => coreWrite acc.1 c l q.1 bs
      | none =>
        let ws := wordsOf (Config.coreBase + (c * 64 + p) * Config.coreSize + q.1) bs
        { acc.1 with mem := ws.foldl (fun m w => writeChecked m w.1 w.2.1 w.2.2) acc.1.mem }
    (s, acc.2.drop q.2)) (s, data)).1

/-- A transaction of a Stream engine has completed; the next that waits sets out (R382). -/
def closeSent (c l num : Nat) (s : State) : State :=
  let s := s.modCore c l (fun k => { k with sent := k.sent.filter (fun t => t.num != num) })
  sendWaiting c l (s.core c l).waiting.length s

/-- The part of response data at address a that a transaction asked for: its first address and its bytes. -/
def Txn.wanted (t : Txn) (a : Nat) (data : List Tagged) : Nat × List Tagged :=
  let lo := max a t.addr
  let hi := min (a + data.length) (t.addr + t.bytes)
  (lo, (data.drop (lo - a)).take (hi - lo))

/-- Where poison that a transaction delivers lies. -/
def Txn.place (t : Txn) (s : State) (a : Nat) : Nat := if t.remote then peerPlace s a else a

/-- A read response reaches its Stream engine: poison is consumed, other data lands in core memory (R583). -/
def landResponse (c p : Nat) (k : Pkt) (s : State) : State :=
  let l := k.destIndex
  match (s.core c l).sent.find? (fun t => t.num = k.txn && t.launch % 65536 = k.launch) with
  | none => s
  | some t =>
    let w := t.wanted k.addr k.payload.bytesOf
    let s := if anyPoison w.2 then consumePoison c l (poisonPlaces (t.place s w.1) w.2) s
      else deliverBytes s c p [(t.dest + (w.1 - t.addr), w.2.length)] w.2
    if k.last then closeSent c l t.num s else s

/-- An acknowledgement reaches its Stream engine: of a SEND, MCAST or REDUCE, or of a write. -/
def landAck (c : Nat) (k : Pkt) (s : State) : State :=
  if k.srcUnit == .core || k.srcUnit == .node then s.modCore c k.destIndex (fun x => { x with acks := x.acks - 1 })
  else if (s.core c k.destIndex).sent.any (fun t => t.num = k.txn && t.launch % 65536 = k.launch) then closeSent c k.destIndex k.txn s
  else s

/-- A core takes a packet from its router port. -/
def deliverCore (s : State) (c p : Nat) (k : Pkt) : State :=
  if k.typ = 3 then landAck c k s
  else if k.typ = 2 then landResponse c p k s
  else
    let s := match k.payload with
      | .bytes data => deliverBytes s c p k.pieces data
      | _ => s
    if k.last then
      pushPort (corePort c p 2) [ackPkt k .core c ((logicalOf s c p).getD p) (64 * k.srcCluster + k.srcIndex)] s
    else s

end Sys2Proof.Machine
end

