-- ==== Sys2Proof/Machine/Ports.lean ====
section
/-! DEFINITION. The memory ports: GDDR7 bursts, refresh and failed channels (file 07, R538 to R546, R554), CXL links and their
read responses (R559, R560, R1079), completions of device reads of host memory (file 10, R794, R870), laser light (file 14,
R1060, R1061). -/

namespace Sys2Proof.Machine

/-- n link-layer retries: LINK_RETRIES of a launch counts those on ports that it used (DESIGN CHOICE, log entry 34). -/
def countRetries (n : Nat) (s : State) : State :=
  { s with disp := { s.disp with launches := s.disp.launches.map (fun l =>
      if l.phase == .running then { l with linkRetries := l.linkRetries + n } else l) } }

/-! ## GDDR7 (R538 to R541) -/

/-- The controller and the 64 B burst of a GDDR7 address. -/
def controllerOf (a : Nat) : Nat := (a - Config.gddrBase) / 2 ^ 32
def burstOf (a : Nat) : Nat := (a - Config.gddrBase) / 64

/-- An address of the GDDR7 region. -/
def inGddr (a : Nat) : Bool := Config.gddrBase ≤ a && a < Config.gddrBase + Config.gddrSize

/-- A channel in service that answers serves the address. -/
def gddrLive (s : State) (a : Nat) : Bool :=
  match placeOf s a with
  | .gddr q k => !(s.gdcOf q).failed.getLsbD k
  | _ => false

/-- The controller performs its next grant, where the burst is of its line and direction (R135). -/
def grantBurst (a : Nat) (write : Bool) (s : State) : State :=
  let q := controllerOf a
  if nextLine s q = some (a / 64 * 64, write) then grantLine q (attPort q 2) s else s

/-- A burst reads as poison, or no longer does; the context table's are kept apart from memory (R281). -/
def setBurst (a : Nat) (poison : Bool) (s : State) : State :=
  if inCtxTable a then
    let b := (a - Config.ctxTable) / 64
    { s with ctxPoison := if poison then setInsert s.ctxPoison b else setErase s.ctxPoison b }
  else { s with mem := { s.mem with
      gddrPoison := if poison then setInsert s.mem.gddrPoison (burstOf a) else setErase s.mem.gddrPoison (burstOf a) } }

/-- Retries of a burst, at most four (R538). -/
def crcRetries (fails : Nat) (a : Nat) (s : State) : State :=
  let n := min fails 4
  if n = 0 then s else countRetries n (gdcCount (controllerOf a) Gdc.crc (fun g c => { g with crc := c }) 0x08 n s)

/-- The fifth attempt has failed (R539). -/
def exhausted (a : Nat) (write : Bool) (s : State) : State :=
  let s := gdcEvent (controllerOf a) 0 s
  if write && inCtxTable a then
    { s with ctxPoison := (List.range 64).foldl (fun l i => setInsert l ((a - Config.ctxTable) / 4096 * 64 + i)) s.ctxPoison }
  else if write then { s with mem := { s.mem with inited := setErase s.mem.inited ((a - Config.gddrBase) / 4096) } }
  else setBurst a true s

/-- The data of a read burst with what on-die ECC reports: 0 nothing, 1 corrected, 2 uncorrectable (R540, R541). -/
def readBurst (a ecc : Nat) (s : State) : State :=
  let q := controllerOf a
  match ecc with
  | 0 => setBurst a false s
  | 1 => setBurst a false (gdcCount q Gdc.ecc (fun g c => { g with ecc := c }) 0x10 1 s)
  | _ => setBurst a true (gdcEvent q 1 (gdcCount q Gdc.poison (fun g c => { g with poison := c }) 0x18 1 s))

/-- The retries and the outcome of a burst. -/
def burst (addr : Nat) (write : Bool) (crcFails ecc : Nat) (s : State) : State :=
  let t := crcRetries crcFails addr s
  if write then
    let t := grantBurst addr true t
    if 5 ≤ crcFails then exhausted addr true t else t
  else grantBurst addr false (if 5 ≤ crcFails then exhausted addr false t else readBurst addr ecc t)

/-- GDDR7_BURST: crcFails attempts in a row fail their CRC. A channel that does not answer, or that is retired, delivers poison and
drops writes (R554). -/
def execGddr7Burst (addr : Nat) (write : Bool) (crcFails : Nat) (ecc : Nat) (s : State) : Host.Outcome State Fault Refusal :=
  if gddrLive s addr then needs s.on (burst addr write crcFails ecc s) s
  else needs (s.on && inGddr addr) (grantBurst addr write s) s

/-- GDDR7_REFRESH (R544): the channel's next bank, and the temperature that the device reports. -/
def execGddr7Refresh (q k : Nat) (tempC : Int) (s : State) : Host.Outcome State Fault Refusal :=
  let g := s.gdcOf q
  needs (s.on && q < 16 && k < 4 && !g.retired.getLsbD k)
    (s.setGdc q { g with refreshed := mapModify 0 g.refreshed k (· + 1), hot := 95 < tempC }) s

/-- CHANNEL_FAILED (R554). -/
def execChannelFailed (q k : Nat) (s : State) : Host.Outcome State Fault Refusal :=
  let g := s.gdcOf q
  needs (s.on && q < 16 && k < 4 && !g.retired.getLsbD k)
    (gdcEvent q 3 (s.setGdc q { g with failed := g.failed ||| BitVec.ofNat 4 (2 ^ k) })) s

/-! ## CXL -/

/-- The port's link is up. -/
def Cxlp.linked (x : Cxlp) : Bool := x.state == .active || x.state == .draining

/-- CXL_LINK_DOWN (R560): the removal of a device of the port ends with it. -/
def execCxlLinkDown (port : Nat) (s : State) : Host.Outcome State Fault Refusal :=
  needs (s.on && port < 4 && (s.cxlOf port).linked)
    (pumpCxlPort port (cxlEvent port 0 (s.setCxl port { s.cxlOf port with state := .lost }))) s

/-- Bytes that a memory outside the device has shown.
DESIGN CHOICE, log entry 9: host, peer and expander memory are views that commands show; the rest is free. -/
def showBytes (m : Map Byte) (a : Nat) (data : List Byte) : Map Byte := data.zipIdx.foldl (fun m e => mapSet m (a + e.2) e.1) m

/-- The 64 B lines of a range of bytes. -/
def linesOf (a n : Nat) : List Nat := (List.range (ceilDiv (a + n) 64 - a / 64)).map (fun i => a / 64 + i)

/-- The port performs its next grant, where the response is that of its line, and the writes that follow (R135). -/
def grantResponse (port a : Nat) (s : State) : State :=
  if nextLine s (16 + port) = some (a / 64 * 64, false) then pumpCxlPort port (grantLine (16 + port) (hubPort (2 + port) 2) s) else s

/-- CXL_READ_RESPONSE (R559): what the expander's memory holds at an address, or poison. -/
def execCxlReadResponse (port addr : Nat) (data : List Byte) (poison : Bool) (s : State) : Host.Outcome State Fault Refusal :=
  let a := Config.cxlBase + port * 2 ^ 42 + addr
  let shown := (linesOf a data.length).foldl (fun m x => mapSet m x poison) s.mem.cxlShown
  needs (s.on && port < 4 && !data.isEmpty && (s.cxlOf port).linked &&
      (s.cxlOf port).ranges.any (fun r => r.1 ≤ addr && addr + data.length ≤ r.1 + r.2.1))
    (grantResponse port a
      (if poison then cxlCountPoison port { s with mem := { s.mem with cxlShown := shown } }
       else { s with mem := { s.mem with cxl := showBytes s.mem.cxl a data, cxlShown := shown } })) s

/-! ## Host memory -/

/-- The 8-byte words of a range of bytes. -/
def wordsIn (a n : Nat) : List Nat := (List.range (ceilDiv (a + n) 8 - a / 8)).map (fun i => a / 8 + i)

/-- HOST_READ_COMPLETION (R794). -/
def execHostReadCompletion (addr : Nat) (data : List Byte) (outcome : HostRead) (s : State) : Host.Outcome State Fault Refusal :=
  let ws := wordsIn addr data.length
  needs s.host
    (if outcome = .ok then
      { s with mem := { s.mem with
          host := showBytes s.mem.host addr data, hostPoison := s.mem.hostPoison.filter (fun w => !ws.contains w) } }
     else hostEvent 4 { s with mem := { s.mem with hostPoison := ws.foldl setInsert s.mem.hostPoison } }) s

/-- The host link is down (R867, R870). -/
def linkDown (s : State) : State := hostEvent 0 { s with hostp := { s.hostp with linkUp := false, width := 0 } }

/-- HOST_LINK_DOWN (R870). -/
def execHostLinkDown (s : State) : Host.Outcome State Fault Refusal := needs s.host (linkDown s) s

/-! ## Laser light (R1060, R1061) -/

def setLaser (e : Nat) (ok : Bool) (s : State) : State :=
  { s with board := { s.board with laserOk := BitVec.ofNat 18 (setBit s.board.laserOk.toNat e ok) } }

/-- LASER_READY. -/
def execLaserReady (engine : Nat) (s : State) : Host.Outcome State Fault Refusal := needs (engine < 18) (setLaser engine true s) s

/-- The Silk port that an engine carries leaves the up state (R713). -/
def darkPort (e : Nat) (s : State) : State :=
  (List.range 12).foldl (fun s p =>
    let x := s.portOf p
    if x.engine = e && x.up then s.setPort p { x with state := .training, downSince := some s.now } else s) s

/-- LASER_LOSS: the management processor of a running device logs a link event. -/
def execLaserLoss (engine : Nat) (s : State) : Host.Outcome State Fault Refusal :=
  let t := setLaser engine false s
  needs (engine < 18) (if s.on then darkPort engine
    (logRecord { kind := 10, source := hubSource 1, detail := BitVec.ofNat 64 engine } t) else t) s

end Sys2Proof.Machine
end

