-- ==== Sys2Proof/Machine/SilkLink.lean ====
section
/-! DEFINITION. Silk ports (file 09): frames received, replay, training, ports that go down, lost peers, lane retraining and the
substitution of OE17 (R704 to R714, R739 to R747); the move of the host link (file 12, Moving the host link). -/

namespace Sys2Proof.Machine

/-! ## Transactions that end (R721, R739 to R743) -/

/-- A transaction is no longer outstanding at the Silk egress. -/
def dropTxn (t : Txn) (s : State) : State :=
  { s with silk := { s.silk with txns := s.silk.txns.filter (fun x => x.tag != t.tag) } }

/-- A transaction has failed: nobody waits for it. -/
def closeTxn (t : Txn) (s : State) : State :=
  match t.issuer with
  | .stream c l => (dropTxn t s).modCore c l (fun k => { k with sent := k.sent.filter (fun x => x.num != t.num) })
  | _ => dropTxn t s

/-- What follows the end of a transaction. -/
def afterTxn (t : Txn) (s : State) : State := resumeWaiting (settleRoute t.device s)

/-- A transaction fails as lost (R739, R740). -/
def failTxn (t : Txn) (s : State) : State := afterTxn t (lostTxn t (closeTxn t s))

/-- A transaction to a device ends otherwise than by a timeout: none has timed out in succession (R742). -/
def unstrike (n : Nat) (s : State) : State := { s with silk := { s.silk with strikes := mapErase s.silk.strikes n } }

/-- Every transaction outstanding on a port fails as lost (R712). -/
def failPort (p : Nat) (s : State) : State :=
  (s.silk.txns.filter (fun t => t.port = p)).foldl (fun s t => failTxn t (unstrike t.device s)) s

/-- A peer is declared lost (R742); SOURCE is the port over which the loss was found. -/
def declareLost (n p : Nat) (s : State) : State :=
  let s := silkEvent 3 { s with silk := { s.silk with
    lost := setInsert s.silk.lost n, lostDevice := BitVec.ofNat 32 (n + 2 ^ 31) } }
  logEvent 11 (hubSource (6 + p)) 0 n s

/-- A port that a route names enters an up state: the peer's lost state ends (R743).
DEDUCED, log entry 60: timeouts in succession start again with the end of the lost state. -/
def peersBack (p : Nat) (s : State) : State :=
  s.silk.lost.foldl (fun s n => if (mapGet 0#12 s.silk.routes n).getLsbD p then peerBack n s else s) s

/-! ## Frames (R704 to R709, R714) -/

/-- A counter of a port moves (R784, R785). -/
def portCount (p : Nat) (get : Port → Counter) (put : Port → Counter → Port) (off : Nat) (s : State) : State :=
  let hit := (get (s.portOf p)).hits 1
  let s := s.setPort p (put (s.portOf p) ((get (s.portOf p)).add 1))
  overflowEvent hit (hubSource (6 + p)) (0x00F005800800 + 0x40 * p + off)
    { s with silk := { s.silk with events := raiseIf hit s.silk.events 8 } }

/-- The port leaves the up state (R708, R713). -/
def leaveUp (p : Nat) (s : State) : State :=
  s.setPort p { s.portOf p with state := .training, downSince := some s.now, replays := 0 }

/-- Unacknowledged frames are sent again, in order. -/
def resend (p : Nat) (s : State) : State :=
  let x := s.portOf p
  x.replay.foldl (fun s e => emitFrame p e.2 s) (s.setPort p { x with replay := x.replay.map (fun e => (s.now, e.2)) })

/-- A replay (R706 to R709): the sixteenth without an advance of ACK makes the port retrain. -/
def replay (p : Nat) (s : State) : State :=
  if (s.portOf p).replay.isEmpty then s else
  let s := countRetries 1 (portCount p Port.retries (fun x c => { x with retries := c }) 0x08 s)
  let s := resend p (s.setPort p { s.portOf p with replays := (s.portOf p).replays + 1 })
  if 16 ≤ (s.portOf p).replays then portEvent p 2 (leaveUp p s) else s

/-- The frames that an ACK covers leave the replay buffer; an ACK outside it covers nothing. -/
def Port.acked (x : Port) (ack : BitVec 16) : Port :=
  match x.replay with
  | [] => x
  | e :: _ =>
    let n := (ack - e.2.seq).toNat
    if n = 0 || x.replay.length < n then x else { x with replay := x.replay.drop n, replays := 0 }

/-- Credits gained (R714). -/
def Port.credited (x : Port) (f : Frame) : Port :=
  { x with credits := modifyAt x.credits f.creditVc (fun n => min (n + f.creditN) 68) }

/-- One flit has been received and is freed: a header flit opens the packet whose payload follows. -/
def Port.flit (x : Port) (b : List Byte) : Port :=
  let k := if x.inPkt.2 = 0 then (fieldAt b 1 1, fieldAt b 2 1) else x.inPkt
  { x with inPkt := (k.1, k.2 - 1), owed := modifyAt x.owed k.1 (· + 1) }

/-- The flits of an accepted frame.
DEDUCED, log entry 64: IDLE answers, NAK in IDLE frames and replays on a Silk link. -/
def Port.flits (x : Port) (f : Frame) : Port := (chunks 64 (f.flits.take (64 * f.nflits))).foldl Port.flit x

/-- A frame is discarded; one that is not IDLE is answered with a NAK, once until a frame is accepted (R706). -/
def discardFrame (p : Nat) (f : Frame) (s : State) : State :=
  let x := s.portOf p
  if f.idle || x.nakSent then s else sendIdle p true false (s.setPort p { x with nakSent := true })

/-- ACK, credits and NAK of an accepted frame take effect. -/
def takeLinkFields (p : Nat) (f : Frame) (s : State) : State :=
  let s := s.setPort p (((s.portOf p).acked f.ack).credited f)
  pumpSilkPort p (pumpPort p (if f.nak then replay p s else s))

/-! ### Resume and fresh start (R711, R712) -/

/-- The link starts afresh with a LINK_EPOCH. -/
def Port.fresh (x : Port) (epoch partnerEpoch : BitVec 32) : Port :=
  { x with txSeq := 0, rxSeq := 0, queue := [], replay := [], inPkt := (0, 0), nakSent := false, replays := 0, controlSeq := 0
           epoch := epoch, partnerEpoch := some partnerEpoch, credits := [68, 68, 68], owed := [0, 0, 0] }

/-- Sequence numbers and replay buffer stay. -/
def Port.resumed (x : Port) (ack : BitVec 16) : Port := { x.acked ack with nakSent := false, replays := 0 }

/-- The link goes on with the partner's saved LINK_EPOCH: what its ACK does not cover is sent again. -/
def resumeFrom (p : Nat) (ack : BitVec 16) (s : State) : State := resend p (s.setPort p ((s.portOf p).resumed ack))

/-- A port that has trained otherwise starts afresh; without saved state it chooses a new LINK_EPOCH. -/
def freshPort (p : Nat) (partnerEpoch : BitVec 32) (s : State) : State :=
  let x := s.portOf p
  let n := s.silk.epochs
  let s := if x.partnerEpoch.isSome then s.setPort p (x.fresh x.epoch partnerEpoch)
    else ({ s with silk := { s.silk with epochs := n + 1 } } : State).setPort p (x.fresh (Config.linkEpoch n) partnerEpoch)
  failPort p (sendIdle p false true s)

/-- The RESUME frame for which a port on another engine waits has arrived. -/
def endResume (p : Nat) (f : Frame) (s : State) : State :=
  let x := s.portOf p
  let s := s.setPort p { x with resuming := false }
  if x.partnerEpoch = some f.epoch then resumeFrom p f.ack s else freshPort p f.epoch s

/-- A frame whose CRC is correct takes effect (R705). -/
def linkFrame (p : Nat) (f : Frame) (s : State) : State :=
  let x := s.portOf p
  if f.idle then takeLinkFields p f s
  else if f.seq != x.rxSeq then discardFrame p f s
  else takeLinkFields p f (sendIdle p false false (s.setPort p { x.flits f with rxSeq := x.rxSeq + 1, nakSent := false }))

/-- A frame arrives at a port that is up. -/
def receiveFrame (p : Nat) (f : Frame) (s : State) : State :=
  if f.crc != frameCrc f then
    discardFrame p f (portEvent p 0 (portCount p Port.crc (fun x c => { x with crc := c }) 0x10 s))
  else linkFrame p f (if (s.portOf p).resuming && f.resume then endResume p f s else s)

/-- SILK_FRAME_RECEIVE (R705). -/
def execSilkFrameReceive (p : Nat) (frame : Frame) (s : State) : Host.Outcome State Fault Refusal :=
  needs (s.on && p < 12 && (s.portOf p).up) (receiveFrame p frame s) s

/-- The oldest unacknowledged frame of a port has waited 4 µs (R707). -/
def Port.replayDue (x : Port) (now : Nat) : Bool := (x.replay.head?).any (fun e => e.1 + 4000 ≤ now)

/-- SILK_REPLAY_TIMEOUT. -/
def execSilkReplayTimeout (p : Nat) (s : State) : Host.Outcome State Fault Refusal :=
  let x := s.portOf p
  needs (s.on && p < 12 && x.up && !x.resuming && x.replayDue s.now) (replay p (portEvent p 1 s)) s

/-! ## Training (R711, R712) -/

def laneState : Lanes → PortState
  | .all => .up8
  | .low => .upLow
  | .high => .upHigh

/-- The port enters an up state with a partner. -/
def Port.trained (x : Port) (lanes : Lanes) (partner : Option Nat) : Port :=
  { x with state := laneState lanes, downSince := none, resuming := false
           partner := partner.getD 0, partnerDev := partner.isSome }

/-- A port that has trained with the partner's saved LINK_EPOCH resumes. -/
def resumePort (p : Nat) (ack : BitVec 16) (s : State) : State :=
  resend p (sendIdle p false true (s.setPort p ((s.portOf p).resumed ack)))

/-- Training ends. -/
def trainPort (p : Nat) (lanes : Lanes) (partnerEpoch : BitVec 32) (ack : BitVec 16) (partner : Option Nat) (s : State) : State :=
  let saved := (s.portOf p).partnerEpoch
  let s := s.setPort p ((s.portOf p).trained lanes partner)
  let s := if saved.isSome then silkEvent 1 s else s
  let s := if saved = some partnerEpoch then resumePort p ack s else freshPort p partnerEpoch s
  pumpSilkPort p (pumpPort p (peersBack p s))

/-- An engine is laser-ready (R1060). -/
def laserReady (s : State) (e : Nat) : Bool := s.board.laserOk.getLsbD e

/-- SILK_TRAINING_DONE. -/
def execSilkTrainingDone (p : Nat) (lanes : Lanes) (partnerEpoch : BitVec 32) (partnerAck : BitVec 16) (partner : Option Nat)
    (s : State) : Host.Outcome State Fault Refusal :=
  let x := s.portOf p
  needs (s.on && p < 12 && !x.up && !x.substituting && laserReady s x.engine)
    (trainPort p lanes partnerEpoch partnerAck partner s) s

/-! ## Ports that go down (R713, R742) -/

/-- No port of a device's route is left but ones in state down. -/
def routeDown (s : State) (r : BitVec 12) : Bool := (List.range 12).all (fun p => !r.getLsbD p || (s.portOf p).state == .down)

/-- The peers that a port reached and no other port reaches are lost. -/
def losePeers (p : Nat) (s : State) : State :=
  (s.silk.routes.filter (fun e => e.2.getLsbD p && routeDown s e.2 && !s.silk.lost.contains e.1)).foldl
    (fun s e => declareLost e.1 p s) s

/-- A port reports that the operation on it has ended (R75). -/
def portDone (p : Nat) (ok : Bool) (s : State) : State := sendResult (hubSource (6 + p)) (.linkDone p ok) s

/-- The link operation on a port that goes down ends. -/
def endPortOp (p : Nat) (s : State) : State :=
  if (s.portOf p).retrainLane.isSome || (s.portOf p).substituting then portDone p false s else s

/-- A port goes to state down: what it saved for resuming is gone (DEDUCED, log entry 92). -/
def Port.down (x : Port) (p : Nat) : Port :=
  { x with state := .down, downSince := none, partnerEpoch := none, queue := [], retrainLane := none
           engine := if x.substituting then p else x.engine, substituting := false, resuming := false }

def goDown (p : Nat) (s : State) : State :=
  let s := endPortOp p s
  let s := portEvent p 3 (s.setPort p ((s.portOf p).down p))
  pumpSilkPort p (losePeers p (failPort p (silkEvent 0 s)))

/-- A port has left the up state 10 ms ago. -/
def Port.overdue (x : Port) (now : Nat) : Bool := !x.up && x.downSince.any (fun t => t + 10000000 ≤ now)

/-- SILK_PORT_DOWN_TIMEOUT (R713). -/
def execSilkPortDownTimeout (p : Nat) (s : State) : Host.Outcome State Fault Refusal :=
  needs (s.on && p < 12 && (s.portOf p).overdue s.now) (goDown p s) s

/-! ## Maintenance of ports (R745 to R747) -/

/-- Step 1 of Retraining one lane: the port runs on the half of its lanes that does not hold the lane; one that is not up on all
eight cannot (log entry 41). -/
def halfWidth (p lane : Nat) (s : State) : State :=
  if (s.portOf p).state == .up8 then
    silkEvent 1 (s.setPort p { s.portOf p with state := if lane < 4 then .upHigh else .upLow, retrainLane := some lane })
  else portDone p false s

/-- LANE_RETRAIN_DONE (R745). -/
def execLaneRetrainDone (p : Nat) (ok : Bool) (s : State) : Host.Outcome State Fault Refusal :=
  let x := s.portOf p
  let x' := { x with state := if ok then .up8 else x.state, retrainLane := none }
  needs (s.on && p < 12 && x.retrainLane.isSome && x.up) (portDone p ok (silkEvent 1 (s.setPort p x'))) s

/-- Step 1 of Substituting OE17: the port's frames stop. -/
def stopFrames (p e : Nat) (s : State) : State :=
  s.setPort p { s.portOf p with state := .training, substituting := true, moveTo := e, downSince := some s.now }

/-- The port runs on the engine to which it moves: its frame carries RESUME, and it sends no other until its partner's has arrived
(R711). -/
def resumeOn (p e : Nat) (s : State) : State :=
  let s := s.setPort p { s.portOf p with state := .up8, downSince := none, substituting := false, resuming := true, engine := e }
  let s := sendIdle p false true s
  let s := if e = 17 then silkEvent 2 s else s
  portDone p true (peersBack p s)

/-- OE17_SUBSTITUTION_DONE. -/
def execOe17SubstitutionDone (p : Nat) (ok : Bool) (s : State) : Host.Outcome State Fault Refusal :=
  let x := s.portOf p
  if !(s.on && p < 12 && x.substituting) then .next s
  else if ok then needs (laserReady s x.moveTo) (resumeOn p x.moveTo s) s
  else needs (x.overdue s.now) (goDown p s) s

/-- The management processor learns that the operation on a Silk port has ended; OE17 is free again unless it carries the link. -/
def linkDone (p : Nat) (ok : Bool) (s : State) : State :=
  let free : State := { s with mgmt := { s.mgmt with oe17 := none } }
  match s.mgmt.link with
  | some (.retrainLane q _) => if q = p then endLink ok 0 s else s
  | some (.takeover e) => if e = p then endLink ok 0 (if ok then s else free) else s
  | some .handback => if s.mgmt.oe17 = some p then endLink ok 0 free else s
  | _ => s

/-- The host link's move ends: OE17 is free again unless it carries the link. -/
def endHostMove (done : Bool) (carrier : Nat) (s : State) : State :=
  endLink done 0 { s with
    hostp := { s.hostp with moving := none }
    mgmt := { s.mgmt with oe17 := if carrier = 17 then s.mgmt.oe17 else none } }

/-- HOST_LINK_MOVE_DONE: the training of step 1 succeeded or not, and Recovery in step 2. -/
def execHostLinkMoveDone (ok : Bool) (recovered : Bool) (s : State) : Host.Outcome State Fault Refusal :=
  match s.hostp.moving with
  | none => .next s
  | some e =>
    needs s.on
      (if !ok then endHostMove false s.hostp.engine s
       else if recovered then endHostMove true e (hostEvent 1 { s with hostp := { s.hostp with engine := e } })
       else endHostMove false s.hostp.engine (linkDown s)) s

end Sys2Proof.Machine
end

