-- ==== Sys2Proof/Machine/Barrier.lean ====
section
/-! DEFINITION. The start barrier of a grouped launch (file 09, R756 to R763) and the digests of a pair (R767 to R770). -/

namespace Sys2Proof.Machine

/-- The SILK block counts a request that its ingress refuses (R724). -/
def countReject (s : State) : State := silkCount Silk.rejects (fun k c => { k with rejects := c }) 0x38 s

/-- A peer has refused a request of a launch (R744). -/
def rejected (id : Nat) (s : State) : State := stopLaunch id 0x300 (silkEvent 4 s)

def setGroup (id : Nat) (g : Group) (s : State) : State := s.modLaunch id (fun l => { l with group := some g })

/-! ## What a step of the barrier asks for -/

/-- Offset in the barrier record, and the atomic kind; none for a read.
DEDUCED, log entry 69: the operations of the start barrier are issued one after the other. -/
def barrierStep (stage : Nat) : Nat × Option Nat :=
  match stage with
  | 0 => (0x18, none)
  | 1 => (0x8, some 6)
  | 2 => (0x10, some 7)
  | 3 => (0x0, some 0)
  | 4 => (0x0, none)
  | 5 => (0x8, none)
  | _ => (0x10, none)

/-- The operand of the atomic: S, or 1 for COUNT. -/
def barrierOperand (ln : Launch) (stage : Nat) : Nat := if stage = 3 then 1 else ln.startAt

/-- The transaction of a step. -/
def barrierTxn (ln : Launch) (g : Group) : Txn :=
  let a := g.barrierGva + (barrierStep g.stage).1
  match (barrierStep g.stage).2 with
  | none => { kind := .read, device := a / 2 ^ 52, addr := a, bytes := 8, issuer := .barrier, launch := ln.id }
  | some k => { kind := .atomic, device := a / 2 ^ 52, addr := a, bytes := 8, issuer := .barrier, launch := ln.id
                atomic := k, operand := barrierOperand ln g.stage }

/-! ## What follows its answer -/

/-- The clusters that wait for the barrier begin their step; those of a Paced launch wait for its scheduled start. -/
def releaseBarred (ln : Launch) (s : State) : State :=
  if ln.lflags.testBit 1 then s else
  ln.clusterList.foldl (fun s c => if (s.cluster c).launch = some ln.id then s.modCluster c (fun k => { k with begun := true }) else s) s

/-- The barrier has ended with MAX_S and MIN_S (R760, R762); a launch whose step 0 is over then ends at once. -/
def endBarrier (ln : Launch) (g : Group) (minS : Nat) (s : State) : State :=
  let skew := minS + 16 < g.maxS
  let s := setGroup ln.id { g with barrierDone := true, skew := skew, asked := false } s
  if skew then (if ln.step = 0 then silkEvent 7 s else stopLaunch ln.id 0x402 (silkEvent 7 s))
  else releaseBarred ln s

/-- The word that a step of the barrier has returned. -/
def barrierWord (ln : Launch) (g : Group) (v : Nat) (s : State) : State :=
  let go := fun (g : Group) => setGroup ln.id { g with asked := false } s
  match g.stage with
  | 0 => if v = g.tag.toNat then go { g with stage := 1 } else stopLaunch ln.id 0x401 s
  | 1 => go { g with stage := 2 }
  | 2 => go { g with stage := 3 }
  | 3 => go { g with stage := 4, pollAt := s.now }
  | 4 => go (if v = g.members then { g with stage := 5 } else { g with pollAt := s.now + 1000 })
  | 5 => go { g with stage := 6, maxS := v }
  | _ => endBarrier ln g v s

/-- The barrier of a launch that still runs takes an answer; a poisoned word is consumed outside a step (R594, R738). -/
def barrierAnswer (id v : Nat) (poison : Bool) (s : State) : State :=
  match s.launch id with
  | none => s
  | some ln =>
    match ln.group with
    | none => s
    | some g =>
      if ln.phase != .running || g.barrierDone then s
      else if poison then controlPoison id (peerPlace s (g.barrierGva + (barrierStep g.stage).1)) s
      else barrierWord ln g v s

/-! ## Atomics (R728 to R730) -/

/-- The new value of a word. -/
def atomicValue (kind : Nat) (v a b : Word) : Word :=
  match kind with
  | 0 => v + a
  | 1 => a
  | 2 => if v = a then b else v
  | 3 => v &&& a
  | 4 => v ||| a
  | 5 => v ^^^ a
  | 6 => if v < a then a else v
  | _ => if a < v then a else v

/-- The word at a local physical address and its poison tag. -/
def atomicRead (s : State) (a : Nat) : Word × Bool :=
  let ts := (physRead s a 8).getD (List.replicate 8 (0, true))
  (BitVec.ofNat 64 (leNat (plain ts)), anyPoison ts)

/-- An atomic is performed: a poisoned word is not written (R730). -/
def performAtomic (kind addr : Nat) (a b : Word) (s : State) : State :=
  let x := atomicRead s addr
  if x.2 then noteDelivered addr 8 s else physWrite s addr (untagged (leBytes 8 (atomicValue kind x.1 a b).toNat))

/-! ## BARRIER_POLL -/

/-- A request of the barrier to the device itself (R718). -/
def barrierLocal (id : Nat) (t : Txn) (s : State) : State :=
  let a := t.addr % 2 ^ 52
  let write := t.kind == .atomic
  if !(if write then ingressAllows s a 8 true else ingressAllows s (a / 64 * 64) 64 false) then rejected id (countReject s) else
  let x := atomicRead s a
  barrierAnswer id x.1.toNat x.2 (if write then performAtomic t.atomic a (BitVec.ofNat 64 t.operand) 0 s else s)

/-- A request of the barrier sets out. -/
def barrierAsk (ln : Launch) (g : Group) (s : State) : State :=
  let t := barrierTxn ln g
  if s.silk.device = some t.device then barrierLocal ln.id t s
  else match issueTxn t s with
    | some s => setGroup ln.id { g with asked := true } s
    | none => stopLaunch ln.id 0x400 s

/-- The next request of the barrier may be made. -/
def barrierDue (s : State) (ln : Launch) (g : Group) : Bool :=
  ln.phase == .running && !g.barrierDone && !g.asked && (g.stage != 4 || g.pollAt ≤ s.now) &&
    !routeWaits s (g.barrierGva / 2 ^ 52)

/-- BARRIER_POLL: the next request of the start barrier of a launch. -/
def execBarrierPoll (id : Nat) (s : State) : Host.Outcome State Fault Refusal :=
  match s.launch id with
  | none => .next s
  | some ln =>
    match ln.group with
    | none => .next s
    | some g => needs (s.on && barrierDue s ln g) (barrierAsk ln g s) s

/-- BARRIER_TIMEOUT (R763). -/
def execBarrierTimeout (id : Nat) (s : State) : Host.Outcome State Fault Refusal :=
  match s.launch id with
  | none => .next s
  | some ln =>
    match ln.group with
    | none => .next s
    | some g =>
      needs (s.on && ln.phase == .running && !g.barrierDone && ln.startAt + 1000 * g.timeoutUs ≤ s.now) (stopLaunch id 0x400 s) s

/-! ## Pair digests (R767 to R770) -/

/-- The pair launch of a group tag.
DEDUCED, log entry 70: a digest for no launch in progress is dropped. -/
def pairLaunch (s : State) (tag : Word) : Option Launch :=
  s.disp.launches.find? (fun l => (l.group.map (fun g => g.pair && g.tag == tag)).getD false)

/-- DIGEST_PACKET (R768, R769). -/
def execDigestPacket (src : Nat) (tag seq sweep : Word) (digest : List Byte) (s : State) : Host.Outcome State Fault Refusal :=
  let _ := sweep
  if !(s.on && s.silk.device.isSome && s.silk.pairEnable && src = s.silk.pairPartner) then .next s else
  let s := peerBack src s
  match pairLaunch s tag with
  | none => .next s
  | some ln =>
    match ln.group with
    | none => .next s
    | some g => .next (comparePair ln.id (setGroup ln.id { g with received := g.received ++ [(seq.toNat, digest)] } s))

/-- DIGEST_TIMEOUT (R770). -/
def execDigestTimeout (id : Nat) (s : State) : Host.Outcome State Fault Refusal :=
  match s.launch id with
  | none => .next s
  | some ln =>
    match ln.group with
    | none => .next s
    | some g =>
      needs (s.on && !g.sent.isEmpty && g.sentAt + 1000 * g.timeoutUs ≤ s.now)
        (stopLaunch id 0x400 (setGroup id { g with sent := [], received := [] } s)) s

end Sys2Proof.Machine
end

