-- ==== Sys2Proof/Machine/Load.lean ====
section
/-! DEFINITION. LOADIMG: the loads and reloads of problem images (file 03, R274 to R279; file 06, R492 to R496). One command
is one load step. -/

namespace Sys2Proof.Machine

/-- A load record (R493). -/
structure LoadRecord where
  imageVa : Nat
  context : Nat
  sections : Nat
  reserved : Nat
  stateVa : Nat
  reserved1 : Nat
  deriving DecidableEq, Repr

def loadRecordOf (b : List Byte) : LoadRecord :=
  { imageVa := fieldAt b 0 8, context := fieldAt b 0x8 4, sections := fieldAt b 0xC 1, reserved := fieldAt b 0xD 3
    stateVa := fieldAt b 0x10 8, reserved1 := fieldAt b 0x18 8 }

/-- R496. -/
def LoadRecord.good (r : LoadRecord) : Bool :=
  r.reserved = 0 && r.reserved1 = 0 && r.sections < 8 && r.context < 262144 && r.stateVa % 4096 = 0

/-- A structure of n bytes in the argument block at an offset that an immediate gives (R1090). -/
def argBlock (ln : Launch) (off n : Nat) : Except CoreStop (List Byte) :=
  if off % 8 = 0 && off + n ≤ ln.header.argBytes then .ok ((ln.args.drop off).take n) else .error .invalid

/-- The checks before a load starts: the record, the address space, the reload, the state (R274 step 1, R288, R495). -/
def loadMayStart (r : LoadRecord) (reload : Bool) (asid : Nat) (x : Ctx) : Except Halt Unit := do
  demand r.good 0x202
  demand (!reload || ((x.state = .ready || x.state = .paused) && x.imageVa = r.imageVa && x.stateVa = r.stateVa &&
    x.asid = asid)) 0x202
  demand (!foreign x asid) 0x300
  demand (x.state != .loading && x.state != .running) 0x205

/-- Load steps of an image (R492). -/
def loadSteps (size : Nat) : Nat := 3 * ceilDiv size (2 ^ 20) + 2

/-- The entry of a load that a check has ended (R276). -/
def Ctx.failed (x : Ctx) (code off : Nat) : Ctx := { x with state := .failed, loadError := code, errorOffset := off }

/-- The entry that step 1 writes. -/
def Ctx.loading (x : Ctx) (asid : Nat) (r : LoadRecord) : Ctx :=
  { x with state := .loading, asid := asid, imageVa := r.imageVa, stateVa := r.stateVa, loadError := 0, errorOffset := 0 }

/-- The entry that step 8 writes (R286). A reload counts as a load for RUNS and BEST_ENERGY and leaves CHECKPOINT_VA
standing (DEDUCED, log entry 29). -/
def Ctx.loaded (x : Ctx) (m : Problem) (root : List Byte) (reload : Bool) (now : Nat) : Ctx :=
  { state := .ready, convention := m.h.convention, qexp := m.h.qexp, asid := x.asid, replicas := m.h.replicas
    flags := natOfBool (m.h.groups != 0) + 2 * natOfBool (m.blocks.any (fun b => b.kind = 1)) +
      4 * natOfBool (m.links.any (fun l => l.kind = 1))
    imageVa := x.imageVa, imageSize := m.h.imageSize, nvars := m.h.nvars, blocks := m.h.blocks
    groups := m.h.groups, links := m.h.links, colours := m.h.colours, stages := m.h.stages, couplings := m.h.couplings
    energyOffset := m.h.offset, coeffRoot := root, stateVa := x.stateVa
    checkpointVa := if reload then x.checkpointVa else 0
    loadGen := (x.loadGen + 1) % 2 ^ 32, loadCricket := now, runs := 0, bestEnergy := 2 ^ 95 - 1 }

/-- A failing check ends the load (R276). -/
def failLoad (id n code off : Nat) (s : State) : State :=
  stopLaunch id 0x204 ({ s with loads := mapErase s.loads n }.setCtx n ((s.ctx n).failed code off))

/-- The Stream engines of the cores of a LOADIMG, whose handshakes a load step counts (R463; DESIGN CHOICE, log entry 12). -/
def loadShakes (c : Nat) (ln : Launch) (o : OpWord) (last : Bool) (s : State) : State :=
  let s := o.coreList.foldl (countShakes .stream c ln.id 24576) s
  if last then o.coreList.foldl (countDone c) s else s

/-- What stops a load step: a check, an access, or a poisoned word, which the first core of the LOADIMG consumes
(DEDUCED, log entry 58). -/
def stopLoad (c n : Nat) (ln : Launch) (o : OpWord) (h : Halt) (s : State) : State :=
  match h with
  | .load code off => failLoad ln.id n code off s
  | .poison p => consumePoison c (o.coreList.headD 0) [p] s
  | h => haltLaunch ln.id ln.asid c h s

/-! ## The load steps: one for the header and the directories, one for each MiB of quantisation, one for each MiB of packed data,
one for step 6, one for each MiB of the root (R274, R492; DEDUCED, log entry 29) -/

/-- What a load step leaves, and what stops it. -/
abbrev LoadWork := State × Option Halt

/-- An image offset lies in MiB i. -/
def inMiB (i off : Nat) : Bool := off / 2 ^ 20 = i

/-- The ranges that a step of MiB i reads have passed the translation unit. -/
def readMiB (c asid va i : Nat) (rs : List (Nat × Nat)) (s : State) : State :=
  touchAll c asid va (clipRanges (i * 2 ^ 20) ((i + 1) * 2 ^ 20) rs) s

/-- The MiBs of the image of a load. -/
def LoadJob.mibs (j : LoadJob) : Nat := (j.stepsTotal - 2) / 3

/-- Steps 2 and 3 of R274. -/
def directoryStep (c n : Nat) (ln : Launch) (job : LoadJob) (s : State) : LoadWork :=
  let va := (s.ctx n).imageVa
  match checkDirectories (fetchAt s ln.asid va) va with
  | .error h => (s, some h)
  | .ok m =>
    (touchAll c ln.asid va (m.heads ++ m.indexes) { s with
      loads := mapSet s.loads n { job with stepsTotal := loadSteps m.h.imageSize } }, none)

/-- Step 4 of R274 for the sources that begin in MiB i. -/
def quantiseStep (c n : Nat) (ln : Launch) (job : LoadJob) (i : Nat) (s : State) : LoadWork :=
  let va := (s.ctx n).imageVa
  let rd := fetchAt s ln.asid va
  match (do
    let m ← rd.problem
    let sel := m.h.source &&& job.sections
    let items ← quantiseSections rd m sel (inMiB i)
    let t ← writeAll c s ln.asid va (sectionWrites s.free items)
    return (m.sources sel, items, t)) with
  | .error h => (s, some h)
  | .ok (rs, items, t) =>
    match firstFailure (items.flatMap (·.fails)) with
    | .error h => (drawn items.length t, some h)
    | .ok _ => (readMiB c ln.asid va i rs t, none)

/-- Step 5 of R274 for the items of MiB i. -/
def packedStep (c n : Nat) (ln : Launch) (job : LoadJob) (i : Nat) (s : State) : LoadWork :=
  let va := (s.ctx n).imageVa
  let rd := fetchAt s ln.asid va
  match (do
    let m ← rd.problem
    firstFailure ((← packedFailures rd m (if job.reload then job.sections else 7)).filter (fun f => inMiB i f.1))
    return coefficientRanges m) with
  | .error h => (s, some h)
  | .ok rs => (readMiB c ln.asid va i rs s, none)

/-- Step 6 of R274. -/
def contentStep (c n : Nat) (ln : Launch) (s : State) : LoadWork :=
  let va := (s.ctx n).imageVa
  let rd := fetchAt s ln.asid va
  match (do
    let m ← rd.problem
    checkContent rd m
    return m.tables) with
  | .error h => (s, some h)
  | .ok rs => (touchAll c ln.asid va rs s, none)

/-- Step 7 of R274 for MiB i, and step 8 with the last. -/
def rootStep (c n : Nat) (ln : Launch) (job : LoadJob) (i : Nat) (s : State) : LoadWork :=
  let x := s.ctx n
  let rd := fetchAt s ln.asid x.imageVa
  match (do
    let m ← rd.problem
    let bs ← (if i + 1 = job.mibs then coefficientStream rd m else pure [])
    return (m, bs)) with
  | .error h => (s, some h)
  | .ok (m, bs) =>
    let t := readMiB c ln.asid x.imageVa i (coefficientRanges m) s
    if i + 1 = job.mibs then
      ({ t with loads := mapErase t.loads n }.setCtx n (x.loaded m (regionRoot bs) job.reload t.now), none)
    else (t, none)

/-- The load step at which a load stands. -/
def loadWork (c n : Nat) (ln : Launch) (job : LoadJob) (s : State) : LoadWork :=
  let k := job.mibs
  let d := job.stepsDone
  if d = 0 then directoryStep c n ln job s
  else if d ≤ k then quantiseStep c n ln job (d - 1) s
  else if d ≤ 2 * k then packedStep c n ln job (d - 1 - k) s
  else if d = 2 * k + 1 then contentStep c n ln s
  else rootStep c n ln job (d - 2 * k - 2) s

/-- A load step has been done: the load stands at the next, and the execution may end. -/
def loadStepDone (c n : Nat) (ln : Launch) (o : OpWord) (s : State) : State :=
  let last := (mapFind s.loads n).isNone
  let s := { s with loads := s.loads.map (fun e => if e.1 = n then (e.1, { e.2 with stepsDone := e.2.stepsDone + 1 }) else e) }
  (loadShakes c ln o last s).modLaunch ln.id (fun l => { l with longRan := true, longDone := l.longDone || last })

/-- One load step of a context. -/
def nextLoadStep (c n : Nat) (ln : Launch) (o : OpWord) (job : LoadJob) (s : State) : State :=
  match loadWork c n ln job s with
  | (t, some h) => stopLoad c n ln o h t
  | (t, none) => loadStepDone c n ln o t

/-- A load starts (step 1 of R274), and its first load step runs; a page that a migration holds lets nothing begin. -/
def firstLoadStep (c : Nat) (ln : Launch) (o : OpWord) (r : LoadRecord) (reload : Bool) (s : State) : State :=
  match (do
    let x ← readCtx s r.context
    loadMayStart r reload ln.asid x) with
  | .error (.poison p) => controlPoison ln.id p s
  | .error h => haltLaunch ln.id ln.asid c h s
  | .ok _ =>
    let job : LoadJob := { launch := ln.id, reload := reload, sections := r.sections }
    let t := { s with loads := mapSet s.loads r.context job }.setCtx r.context ((s.ctx r.context).loading ln.asid r)
    match loadWork c r.context ln job t with
    | (u, some h) => if h.waits then s else stopLoad c r.context ln o h u
    | (u, none) => loadStepDone c r.context ln o u

/-- The load step of an execution, on the first cluster that issues it (R1092). -/
def loadStep (c : Nat) (ln : Launch) (o : OpWord) (s : State) : Except CoreStop State := do
  let r := loadRecordOf (← argBlock ln (immOf ln o 0) 32)
  return match s.loads.find? (fun e => e.1 = r.context && e.2.launch = ln.id) with
    | some e => nextLoadStep c r.context ln o e.2 s
    | none => firstLoadStep c ln o r (bit (immOf ln o 1) 0) s

/-- The work of the execution has been done for a launch. -/
def longRan (s : State) (id : Nat) : Bool := ((s.launch id).map (·.longRan)).getD false

def execLoadimg (c : Nat) (s : State) : Host.Outcome State Fault Refusal :=
  match issuing s c 0x42 with
  | none => .next s
  | some (ln, o) =>
    if ln.longRan || !(s.cluster c).rerun.isEmpty then .next (advance c s) else
    match loadStep c ln o s with
    | .error _ => .next (invalidOp c ((s.cluster c).active o) ln s)
    | .ok t => .next (if longRan t ln.id then advance c t else t)

end Sys2Proof.Machine
end

