-- ==== Sys2Proof/Machine/RunStart.lean ====
section
/-! DEFINITION. ANNEAL: the checks of R1088, the start of a run, the energy pass of a rotated run, and a resume (file 04,
R294 to R301, R339, R341; file 05, R361 to R388, R418, R423). -/

namespace Sys2Proof.Machine

/-! ## The anneal descriptor (R295, R296) -/

structure AnnealDesc where
  seed : Nat
  seedSrc : Nat
  flags : Nat
  reserved : Nat
  traceVa : Nat
  traceBytes : Nat
  traceRdVa : Nat
  traceWrVa : Nat
  target : Int
  deriving DecidableEq, Repr

def annealDescOf (b : List Byte) : AnnealDesc :=
  { seed := fieldAt b 0 8, seedSrc := fieldAt b 0x8 1, flags := fieldAt b 0x9 1, reserved := fieldAt b 0xA 6
    traceVa := fieldAt b 0x10 8, traceBytes := fieldAt b 0x18 8, traceRdVa := fieldAt b 0x20 8
    traceWrVa := fieldAt b 0x28 8, target := fieldInt b 0x30 16 }

def AnnealDesc.resume (d : AnnealDesc) : Bool := bit d.flags 0
def AnnealDesc.traceOn (d : AnnealDesc) : Bool := !bit d.flags 1

/-- R296. -/
def AnnealDesc.good (d : AnnealDesc) : Bool :=
  d.reserved = 0 && d.flags < 8 && d.seedSrc ≤ 1 &&
  (!d.traceOn || (d.traceVa % 64 = 0 && d.traceBytes % 4096 = 0 && 4096 ≤ d.traceBytes &&
    d.traceRdVa % 8 = 0 && d.traceWrVa % 8 = 0))

/-! ## Placement (R441, R442, R1091) -/

/-- Cluster and logical index of a placement entry. -/
def placeAt (ln : Launch) (j : Nat) : Nat × Nat :=
  let v := (ln.place[j]?).getD 0
  (bits v 8 8, bits v 0 8)

/-- The cores of a block whose entry is j, as 64 * cluster + logical index. -/
def placeCores (ln : Launch) (b : Blk) (j : Nat) : List Nat :=
  let p := placeAt ln j
  (if b.kind = 1 then [0, 1, 8, 9] else [0]).map (fun d => 64 * p.1 + p.2 + d)

/-- The lower corner of a quad (R103). -/
def quadCorner (lcores l : Nat) : Bool := l % 8 % 2 = 0 && l / 8 % 2 = 0 && l + 9 < lcores

def noRepeats : List Nat → Bool
  | [] => true
  | x :: xs => !xs.contains x && noRepeats xs

/-- R1091 for the entries of a plan, each a list of blocks. -/
def placementGood (s : State) (ln : Launch) (m : Problem) (first : Nat) (blocks : List Nat) (entries : List (List Nat)) : Bool :=
  ln.place.length = blocks.length &&
  blocks.all (fun k => (m.block k).kind != 1 || quadCorner s.lcores (placeAt ln (k - first)).2) &&
  entries.all (fun e => noRepeats (e.flatMap (fun k => placeCores ln (m.block k) (k - first))))

/-- The lowest cluster of the placement: the engine trace stage of the run (R348). -/
def traceCluster (ln : Launch) : Nat :=
  let cs := ln.place.map (fun v => bits v 8 8)
  cs.foldl min (cs.headD 0)

/-! ## Worst-case counts of anneal steps (R490, R491) -/

/-- The rows of R491. -/
inductive AnnealStep where
  | phase
  | fields
  | checkpoint
  deriving DecidableEq, Repr

/-- The blocks that a run anneals on this device, over all its rotations. -/
def Run.allBlocks (r : Run) (m : Problem) : List Nat :=
  match r.exch with
  | some x => x.me.blocks
  | none => List.range m.h.blocks

/-- The cores of a block of a run, as 64 * cluster + logical index (R441, R442). -/
def Run.blockCores (r : Run) (ln : Launch) (m : Problem) (k : Nat) : List Nat :=
  placeCores ln (m.block k) (k - (r.allBlocks m).headD 0)

/-- The cores that the placement map names. -/
def Run.placed (r : Run) (ln : Launch) (m : Problem) : List Nat :=
  ((r.allBlocks m).flatMap (r.blockCores ln m)).foldl setInsert []

/-- The tile terms of a core of block k. -/
def tileTerms (m : Problem) (k div : Nat) : Nat :=
  ((m.links.filter (fun l => l.a = k)).map (fun l =>
    if l.kind = 1 then ceilDiv (m.linkPlane l).count div else ceilDiv l.count 16)).sum

/-- The worst-case count of an anneal step in a core of block k; cores is the number of cores placed. -/
def annealWorst (r : Run) (m : Problem) (cores : Nat) (step : AnnealStep) (k : Nat) : Nat :=
  let b := m.block k
  let div := if b.kind = 1 then 1024 else 256
  match step with
  | .phase => b.size * ceilDiv b.pad 256 * (if m.groups.any (fun g => g.block = k) then 2 else 1) + tileTerms m k div + 48
  | .fields => b.pad * b.pad / div + tileTerms m k div + 48
  | .checkpoint => 48 + ceilDiv (r.layout m).size (64 * cores)

/-- The Flip, Field and Stream engines of a core take handshakes in an anneal step (R516; DESIGN CHOICE, log entry 12). -/
def annealCore (id worst : Nat) (s : State) (core : Nat) : State :=
  [Engine.flip, Engine.field, Engine.stream].foldl (fun s e => countShakes e (core / 64) id worst s (core % 64)) s

/-- An anneal step has been done on the cores of the blocks of the present rotation, a checkpoint on every core. -/
def annealWork (ln : Launch) (r : Run) (m : Problem) (step : AnnealStep) (s : State) : State :=
  let cores := (r.placed ln m).length
  (if step = .checkpoint then r.allBlocks m else r.blocks m).foldl (fun s k =>
    (r.blockCores ln m k).foldl (annealCore ln.id (annealWorst r m cores step k)) s) s

/-- The ANNEAL has completed on its cores. -/
def annealDone (ln : Launch) (r : Run) (m : Problem) (s : State) : State :=
  (r.placed ln m).foldl (fun s core => countDone (core / 64) s (core % 64)) s

/-! ## A run's checks -/

/-- A run with its problem, as the checks have found them. -/
structure RunPlan where
  m : Problem
  r : Run
  /-- the items of the area that the checks have read -/
  reads : List Item
  deriving DecidableEq, Repr

/-- The run that a descriptor and an area describe; checks 1 to 5 of R1088. -/
def checkRun (s : State) (c : Nat) (ln : Launch) (o : OpWord) (n : Nat) (d : AnnealDesc) : Except Halt RunPlan := do
  let x ← readCtx s n
  demand (!foreign x ln.asid) 0x300
  demand (x.state = .ready || x.state = .paused) 0x205
  demand (d.good && !(bit o.aux 0 && d.seedSrc = 1)) 0x202
  let rd := fetchAt s ln.asid x.stateVa
  let hb ← rd 0 256
  let a := areaOf x.stateVa hb
  let image := fetchAt s ln.asid x.imageVa
  let m ← image.problem
  demand (areaGood a hb m.h.replicas m.h.nvars) 0x202
  let plan ← if a.rot = 0 then pure ([], []) else readPlan rd a m
  let exch ← if a.exch = 0 then pure (none, []) else (do
    let e ← readExch rd a m
    return (some e.1, e.2))
  let items := a.items m.h.replicas m.h.nvars ++ plan.2 ++ exch.2
  demand (a.exact items) 0x202
  let plan := plan.1
  let exch := exch.1
  let pair := (ln.group.map (·.pair)).getD false
  demand (match exch with
    | none => true
    | some e => d.seedSrc = 0 && !(e.loose && (bit o.aux 1 || ln.lflags.testBit 0 || pair))) 0x202
  demand (!(pair && d.seedSrc = 1)) 0x202
  let self := match exch with
    | some e => e.self
    | none => 0
  let r : Run := { launch := ln.id, asid := ln.asid, cluster := c, seed := d.seed, seedSrc := d.seedSrc
                   traceOn := d.traceOn && self = 0, traceVa := d.traceVa, traceSlots := d.traceBytes / 64
                   traceRdVa := d.traceRdVa, traceWrVa := d.traceWrVa
                   target := if bit d.flags 2 then some d.target else none
                   fixedOrder := ln.lflags.testBit 0, area := a, plan := plan, exch := exch }
  demand ((r.layout m).size ≤ a.ckptBytes) 0x202
  let blocks := match exch with
    | some e => e.me.blocks
    | none => List.range m.h.blocks
  demand (placementGood s ln m (blocks.headD 0) blocks (if plan.isEmpty then [blocks] else plan.map (·.2))) 0x200
  return { m := m, r := r, reads := (0, 256) :: (if a.rot = 0 && a.exch = 0 then [] else items.drop 6) }

/-! ## Fresh runs -/

/-- The replicas of a run at its start; energies and best energies to be set. -/
def firstReplicas (cp : Couplings) (m : Problem) (seed : Nat) (st : Stage) (ladder : List (Nat × Int)) (rs : List RepEntry)
    (rows : List Nat) : List Replica :=
  rs.zipIdx.map (fun e =>
    let u := initialState cp m.h.nvars seed e.2 e.1 rows
    Replica.stageBeta st ladder
      { u := u, best := u, start := u, bestSweep := 2 ^ 64 - 1, rank := e.1.rank, betaM := e.1.betaM, betaX := e.1.betaX })

/-- A replica whose initial energy is known (R314, R339). -/
def Replica.begin (e : Int) (r : Replica) : Replica := { r with energy := e, bestEnergy := e, winBest0 := e }

/-- Ladder β by rank (R328). -/
def ladderOf (rs : List RepEntry) : List (Nat × Int) :=
  (List.range rs.length).map (fun k => match rs.find? (fun e => e.rank = k) with
    | some e => (e.betaM, e.betaX)
    | none => (0, 0))

/-- The writes of R418 and R396 before the first sweep, and the first rows of the area. -/
def startWrites (r : Run) (m : Problem) : List (Nat × List Byte) :=
  [(0x68, leBytes 8 0), (r.area.ckpt0, leBytes 8 0), (r.area.ckpt1, leBytes 8 0)] ++
    (match r.exch with
      | some e => [(e.ackOff, List.replicate (8 * e.members.length) 0#8)]
      | none => []) ++
    areaRows r.area m.h.nvars r.reps

/-- What each member expects first of every sender. -/
def Exch.expecting (x : Exch) (sweep : Nat) (now : Nat) : Exch :=
  { x with bnext := x.others.map (fun d => (d, 65536 * sweep)), enext := x.others.map (fun d => (d, 65536 * sweep))
           waitSince := now, energySince := now }

/-- The context begins to run; its structure hash is kept for the digest (R910). -/
def setRunning (n : Nat) (ckpt : Nat) (id : Nat) (hash : List Byte) (s : State) : State :=
  (s.setCtx n { s.ctx n with state := .running, checkpointVa := ckpt }).modLaunch id (fun l =>
    { l with digest := { l.digest with structHash := hash } })

/-! ## Run-end records (R342, R343) -/

/-- FLAGS of a record but for the pause. -/
def recordFlags (st : Stage) (hit : Bool) (x : Replica) : Nat :=
  natOfBool x.accepts.ovf + 2 * natOfBool x.collisions.ovf + 4 * natOfBool (st.mode = 1) + 8 * natOfBool hit

/-- The records of a sweep for the replicas. -/
def sweepRecords (typ : Nat) (st : Stage) (hit : Bool) (stage sweeps : Nat) (xs : List Replica) : List (List Byte) :=
  xs.zipIdx.map (fun e => traceRecord typ (recordFlags st hit e.1) e.2 stage sweeps e.1)

/-- TARGET is reached (R301). -/
def Run.hits (r : Run) : Bool :=
  match r.target with
  | some t => r.reps.any (fun x => x.bestEnergy ≤ t)
  | none => false

/-- The run-end records of a run whose last sweep was of a stage. -/
def runEndRecords (r : Run) (st : Stage) (stage sweeps : Nat) : List (List Byte) :=
  sweepRecords 3 st (r.hits && sweeps != 0) stage sweeps r.reps

/-- A run that does not resume starts with its seed (R262, R314, R339, R418). -/
def beginRun (n : Nat) (r : Run) (s : State) : Except Halt State := do
  let image := fetchAt s r.asid (s.ctx n).imageVa
  let m ← image.problem
  let rs ← image.replicaTable m
  let ss ← image.schedule m
  let rows ← (List.range m.h.initRows).mapM (fun k => do return rowState (← image.row m k))
  let rotated := !r.plan.isEmpty
  let cp ← readCouplings image image m (if rotated then [] else List.range m.h.blocks)
  let ladder := ladderOf rs
  let reps := firstReplicas cp m r.seed ((ss[0]?).getD ⟨0, 0, 0, 0, 0, 0, 0, 0, 0⟩) ladder rs rows
  let reps := reps.map (fun x => x.begin (if rotated then m.h.offset else cp.energy x.u))
  let r := { r with ladder := ladder, reps := reps, seedWait := false, next := if rotated then .energyPass 0 else .phase
                    exch := r.exch.map (fun (e : Exch) => e.expecting 0 s.now) }
  let hash ← structureHash image m
  let st := (ss[0]?).getD ⟨0, 0, 0, 0, 0, 0, 0, 0, 0⟩
  let r := { r with endRecs := runEndRecords r st 0 0 }
  let s := touchAll r.cluster r.asid 0 (r.readRanges (s.ctx n).imageVa m m.tables (if rotated then [] else r.allBlocks m)) s
  let t ← writeAll r.cluster s r.asid r.area.va (startWrites r m)
  return (setRunning n 0 r.launch hash (noteSeed r.launch r.cluster r.seed t)).setRun n r

/-! ## The energy pass (R375) -/

/-- The entry k of the energy pass. -/
def energyEntry (n k : Nat) (ln : Launch) (r : Run) (s : State) : Except Halt State := do
  let image := fetchAt s r.asid (s.ctx n).imageVa
  let m ← image.problem
  let cp ← readCouplings image image m ((r.plan[k]?).getD (0, [])).2
  let last := k + 1 = r.plan.length
  let reps := r.reps.map (fun x => x.begin (x.energy + cp.partial x.u))
  let va := (s.ctx n).imageVa
  let blocks := ((r.plan[k]?).getD (0, [])).2
  let s := touchAll r.cluster r.asid va (m.heads ++ stagedItems m blocks ++ stagedBiases m blocks) s
  let t ← writeAll r.cluster s r.asid r.area.va (if last then areaRows r.area m.h.nvars reps else [])
  return annealWork ln { r with rotation := k } m .fields
    (t.setRun n { r with reps := reps, next := if last then .resume else .energyPass (k + 1) })

/-! ## Resume (R423, R424) -/

/-- The layout fields that a checkpoint of this run would hold (step 2 of a resume). -/
def ckptMatches (b : List Byte) (r : Run) (x : Ctx) (m : Problem) : Bool :=
  let l := r.layout m
  let self := match r.exch with
    | some e => e.self
    | none => 0
  (b.drop 0xC0).take 48 = x.coeffRoot && fieldAt b 0xF0 8 = x.nvars && fieldAt b 0xBA 2 = x.replicas &&
  fieldAt b 0x86 1 = l.kind && fieldAt b 0xBC 2 = self && fieldAt b 0x88 8 = l.size && fieldAt b 0xF8 8 = l.fields &&
  fieldAt b 0x100 8 = 0x180 && fieldAt b 0x108 8 = l.stateOff && fieldAt b 0x110 8 = l.bestOff && fieldAt b 0x118 8 = l.fieldOff

/-- A checkpoint as read and checked: its header and its bytes from 0x80 on. -/
def readCkpt (s : State) (r : Run) (x : Ctx) (m : Problem) : Except Halt (List Byte) := do
  demand (x.checkpointVa != 0) 0x206
  let rd := fetchAt s r.asid x.checkpointVa
  let b ← rd 0 0x180
  demand ((slotSeq b).isSome && ckptMatches b r x m) 0x206
  let body ← rd 0x80 (fieldAt b 0x88 8 - 0x80)
  demand (sha384 body = (b.drop 0x40).take 48) 0x206
  return b.take 0x80 ++ body

/-- The replicas that a checkpoint holds. -/
def ckptReplicas (l : CkptLayout) (R V : Nat) (b : List Byte) : List Replica :=
  (List.range R).map (fun k =>
    let row := fun off => leNat ((b.drop (off + k * rowBytes V)).take (rowBytes V))
    replicaOf ((b.drop (0x180 + 192 * k)).take 192) (row l.stateOff) (row l.bestOff))

/-- The run that a checkpoint continues (steps 3 and 5 of a resume). -/
def resumedRun (r : Run) (m : Problem) (stages : Nat) (rs : List RepEntry) (b : List Byte) (now : Nat) : Run :=
  let sweep := fieldAt b 0x98 8
  let reps := ckptReplicas (r.layout m) m.h.replicas m.h.nvars b
  let spent := stages ≤ fieldAt b 0xB8 2 || { r with reps := reps }.hits
  { r with
    seed := fieldAt b 0x90 8, seedSrc := fieldAt b 0x87 1, ladder := ladderOf rs
    sweep := sweep, exchanges := fieldAt b 0xA0 8, rotation := fieldAt b 0xA8 8, firstRotation := fieldAt b 0xA8 8, dwellDone := fieldAt b 0xB0 4
    stageSweep := fieldAt b 0xB4 4, stage := fieldAt b 0xB8 2
    reps := reps, targetHit := { r with reps := reps }.hits
    traceN := fieldAt b 0x18 8, ckptSeq := fieldAt b 0x8 8
    exch := r.exch.map (fun e => e.expecting sweep now)
    next := if spent then .sweepEnd else .phase }

/-! ## Staging (R376 to R379) -/

/-- The entries that a rotation start brings in: its own at the first one or after a resume, and the next one. -/
def rotationStages (first : Bool) (r : Run) : List Nat :=
  (if first then [r.rotation] else []) ++ (if r.plan.length = 1 then [] else [r.rotation + 1])

/-- The blocks of the entry of a rotation. -/
def Run.entryBlocks (r : Run) (rho : Nat) : List Nat := ((r.plan[rho % r.plan.length]?).getD (0, [])).2

/-- The bytes of an entry are read from the image and written to its half of the staging area. -/
def stageEntry (n : Nat) (m : Problem) (r : Run) (s : State) (rho : Nat) : Except Halt State := do
  let va := (s.ctx n).imageVa
  let ws ← stageWrites (fetchAt s r.asid va) m (r.entryBlocks rho)
  let s := touchAll r.cluster r.asid va (stagedItems m (r.entryBlocks rho) ++ stagedBiases m (r.entryBlocks rho)) s
  writeAll r.cluster s r.asid (r.half rho) ws

def stageEntries (n : Nat) (m : Problem) (r : Run) : List Nat → State → Except Halt State
  | [], s => .ok s
  | rho :: rest, s =>
    match stageEntry n m r s rho with
    | .error h => .error h
    | .ok t => stageEntries n m r rest t

/-- The run-end records of a run resumed from the checkpoint of its last sweep: RANK and β as the checkpoint holds them
(DEDUCED, log entry 27). -/
def resumedEnd (r : Run) (ss : List Stage) : List (List Byte) :=
  let stage := if r.stageSweep = 0 then r.stage - 1 else r.stage
  runEndRecords r ((ss[stage]?).getD ⟨0, 0, 0, 0, 0, 0, 0, 0, 0⟩) stage r.sweep

/-- A run resumes from its context's checkpoint (steps 2 to 5); one that was over then ends at its next SWEEP_END. -/
def resumeRun (n : Nat) (ln : Launch) (r : Run) (m : Problem) (s : State) : Except Halt State := do
  let x := s.ctx n
  let b ← readCkpt s r x m
  let image := fetchAt s r.asid x.imageVa
  let rs ← image.replicaTable m
  let ss ← image.schedule m
  let r := resumedRun r m m.h.stages rs b s.now
  let r := { r with endRecs := resumedEnd r ss }
  let hash ← structureHash image m
  let s := touchAll r.cluster r.asid 0 ((x.checkpointVa, fieldAt b 0x88 8) :: r.readRanges x.imageVa m m.tables []) s
  let t ← if r.traceOn then writeVa r.cluster s r.asid r.traceWrVa (leBytes 8 r.traceN) else pure s
  let t ← writeAll r.cluster t r.asid r.area.va ((match r.exch with
    | some e => [(e.ackOff, List.replicate (8 * e.members.length) 0#8)]
    | none => []) ++ areaRows r.area m.h.nvars r.reps)
  let t ← if r.plan.isEmpty || r.next = .sweepEnd then pure t else stageEntries n m r (rotationStages true r) t
  return annealWork ln r m .fields
    ((setRunning n x.checkpointVa r.launch hash (noteSeed r.launch r.cluster r.seed t)).setRun n r)

/-! ## ANNEAL -/

/-- The anneal step of this execution has been done. -/
def markRan (id : Nat) (s : State) : State := s.modLaunch id (fun l => { l with longRan := true })

/-- A run starts, resumes, or asks for its seed (checks 6 and 7 of R1088). -/
def startRun (s : State) (c n : Nat) (ln : Launch) (o : OpWord) (d : AnnealDesc) (descVa : Nat) : Except Halt State := do
  let p ← checkRun s c ln o n d
  let r := { p.r with descVa := descVa }
  let s := touchAll c ln.asid r.area.va p.reads s
  if d.resume then return markRan ln.id (← resumeRun n ln r p.m s)
  else if d.seedSrc = 1 then
    match askEntropy { who := .runSeed n, bits := 64 } s with
    | .error st => .error (.status st)
    | .ok t => return t.setRun n { r with seedWait := true }
  else beginRun n r s

/-- A place lies in one of some virtual ranges. -/
def placeIn (s : State) (asid place : Nat) (rs : List Item) : Bool :=
  (rs.flatMap (fun r => pieces r.1 r.2)).any (fun p =>
    physOfVa s asid p.1 ≤ place && place < physOfVa s asid p.1 + up64 (p.1 % 8 + p.2))

/-- The core that consumes a word in an anneal step (R583): the first core of the block whose planes hold it; for what no plane
holds, the first core placed (DEDUCED, log entry 58). -/
def consumingCore (s : State) (n : Nat) (ln : Launch) (place : Nat) : Nat :=
  let first := (placeAt ln 0).1 * 64 + (placeAt ln 0).2 % 64
  match s.run n with
  | none => first
  | some r =>
    let va := (s.ctx n).imageVa
    match (fetchAt s r.asid va).problem with
    | .error _ => first
    | .ok m =>
      match (r.blocks m).find? (fun k => placeIn s r.asid place (r.planeRanges va m [k])) with
      | some k => (r.blockCores ln m k).headD first
      | none => first

/-- What stops an anneal step: poison makes the cluster that consumes it rerun it (R583), anything else ends the launch. -/
def stopAnneal (c n : Nat) (ln : Launch) (h : Halt) (s : State) : State :=
  match h with
  | .poison p => consumePoison (consumingCore s n ln p / 64) (consumingCore s n ln p % 64) [p] s
  | h => haltLaunch ln.id ln.asid c h s

/-- The energy pass goes on by one entry where the run stands at it. -/
def energyStep (c n : Nat) (ln : Launch) (s : State) : State :=
  match s.run n with
  | some r =>
    match r.next with
    | .energyPass k =>
      if longRan s ln.id then s else
      match energyEntry n k ln r s with
      | .error h => stopAnneal c n ln h s
      | .ok t => markRan ln.id t
    | _ => s
  | none => s

/-- The cluster moves past its ANNEAL unless the launch has ended, waits for a seed, or has been abandoned. -/
def passAnneal (c n : Nat) (ln : Launch) (s : State) : State :=
  let waits := match s.run n with
    | some r => r.seedWait
    | none => true
  let ended := (s.launch ln.id).map (·.phase) != some .running
  if waits || ended || (s.cluster c).abandon.isSome then s else advance c s

/-- ANNEAL (R294): its first issue starts the run; later ones belong to the anneal steps, which ANNEAL_PHASE, SWEEP_END,
ROTATION_START and CHECKPOINT_WRITE carry out, or are entries of the energy pass (DESIGN CHOICE, log entry 17). -/
def execAnneal (c : Nat) (s : State) : Host.Outcome State Fault Refusal :=
  match issuing s c 0x40 with
  | none => .next s
  | some (ln, o) =>
    let n := immOf ln o 0
    if !(s.cluster c).rerun.isEmpty then .next (advance c s)
    else match s.run n with
    | some r =>
      if r.launch = ln.id then .next (passAnneal c n ln (energyStep c n ln s)) else .next s
    | none =>
      match argBlock ln (immOf ln o 1) 64 with
      | .error _ => .next (invalidOp c ((s.cluster c).active o) ln s)
      | .ok b =>
        if 262144 ≤ n then .next (invalidOp c ((s.cluster c).active o) ln s) else
        match startRun s c n ln o (annealDescOf b) (ln.argVa + immOf ln o 1) with
        | .error h => .next (haltLaunch ln.id ln.asid c h s)
        | .ok t => .next (passAnneal c n ln (energyStep c n ln t))

end Sys2Proof.Machine
end

