-- ==== Sys2Proof/Machine/RunTrace.lean ====
section
/-! DEFINITION. Energy traces (file 04, R342 to R350, R1086): the engine trace stage of a run, pending gap markers, and the
ring writer. -/

namespace Sys2Proof.Machine

/-- Records for which an engine trace stage has room: 4 KiB and a word of storage (R348). -/
def Cluster.traceRoom (k : Cluster) : Nat := 64 - k.trace.length

def pushTrace (c : Nat) (ts : List TraceRec) (s : State) : State := s.modCluster c (fun k => { k with trace := k.trace ++ ts })

/-- The gap marker of a replica as a record of a launch. -/
def gapRecs (id n i : Nat) (x : Replica) : List TraceRec :=
  match x.gap with
  | some g => [{ launch := id, ctx := n, replica := i, bytes := gapRecord i g }]
  | none => []

/-- A dropped record joins the pending gap marker (R349). -/
def Replica.dropped (sweeps : Nat) (x : Replica) : Replica :=
  { x with gap := some (match x.gap with
    | some g => { g with last := sweeps, lost := g.lost + 1 }
    | none => ⟨sweeps, sweeps, 1⟩) }

/-- A sample or stage-end record of one replica meets the stage of cluster c (R349). -/
def offerRecord (c id n sweeps i : Nat) (bytes : List Byte) (x : Replica) (s : State) : Replica × State :=
  let rs := gapRecs id n i x ++ [{ launch := id, ctx := n, replica := i, bytes := bytes }]
  if rs.length ≤ (s.cluster c).traceRoom then ({ x with gap := none }, pushTrace c rs s)
  else (x.dropped sweeps, traceEvent 0 (traceCount Trace.lost (fun t k => { t with lost := k }) 0x10 1 s))

/-- One record for every replica, in replica-number order. -/
def offerAll (c id n sweeps : Nat) : Nat → List (List Byte) → List Replica → State → List Replica × State
  | i, b :: bs, x :: xs, s =>
    let y := offerRecord c id n sweeps i b x s
    let z := offerAll c id n sweeps (i + 1) bs xs y.2
    (y.1 :: z.1, z.2)
  | _, _, xs, s => (xs, s)

/-- Records of a run that wait for room enter the stage (R350). -/
def feedStage (c n : Nat) (s : State) : State :=
  match s.run n with
  | some r =>
    let k := (s.cluster c).traceRoom
    pushTrace c (r.endWait.take k) (s.setRun n { r with endWait := r.endWait.drop k })
  | none => s

/-- The runs whose records pass through the stage of cluster c (R348). -/
def stageRuns (s : State) (c : Nat) : List Nat :=
  (s.runs.filter (fun e => ((s.launch e.2.launch).map traceCluster) = some c)).map (·.1)

/-- The records that wait for room in a stage enter it. -/
def feedAll (c : Nat) (s : State) : State := (stageRuns s c).foldl (fun s n => feedStage c n s) s

/-- The pending gap markers of a run, each followed by a record of its replica where one is given, wait for the stage. -/
def queueGaps (n : Nat) (r : Run) (recs : List (List Byte)) : Run :=
  { r with
    reps := r.reps.map (fun x => { x with gap := none })
    endWait := r.endWait ++ r.reps.zipIdx.flatMap (fun e => gapRecs r.launch n e.2 e.1 ++
      (match recs[e.2]? with
        | some b => [({ launch := r.launch, ctx := n, replica := e.2, bytes := b } : TraceRec)]
        | none => [])) }

/-- Every record of a run has left the stage of cluster c, or the ring writer has stopped. -/
def traceDrained (s : State) (c n : Nat) (r : Run) : Bool :=
  r.traceStop.isSome || (r.endWait.isEmpty && (s.cluster c).trace.all (fun t => t.ctx != n || t.launch != r.launch))

/-- The records of some launches leave a stage unwritten. -/
def purgeTrace (c : Nat) (gone : TraceRec → Bool) (s : State) : State :=
  s.modCluster c (fun k => { k with trace := k.trace.filter (fun t => !gone t) })

/-- The ring writer of a run stops with a status: what it has staged goes nowhere. -/
def writerStopped (c n : Nat) (r : Run) (st : Nat) (s : State) : State :=
  feedAll c (purgeTrace c (fun t => t.ctx = n && t.launch = r.launch) (s.setRun n { r with traceStop := some st, endWait := [] }))

/-- Why the ring writer stops (R1086). -/
def stopWriter (c n : Nat) (r : Run) (h : Halt) (s : State) : State :=
  match h with
  | .access _ .held => s
  | .access w e => writerStopped c n r (if e.status = 0x301 then 0x301 else 0x300) (noteFault r.asid c w e s)
  | .poison p => writerStopped c n r 0x301 (logEvent 1 c p 0 (memcPoison s))
  | _ => s

/-- A record is written to the ring (R345): its slot, then the write index; the state as far as they went, and what stopped them.
DEDUCED, log entry 71: a read index ahead of the write index leaves room in the trace ring. -/
def ringWrite (c : Nat) (s : State) (r : Run) (b : List Byte) : State × Option Halt :=
  match writeVa c s r.asid (r.traceVa + 64 * (r.traceN % r.traceSlots)) b with
  | .error h => (s, some h)
  | .ok t =>
    match writeVa c t r.asid r.traceWrVa (leBytes 8 (r.traceN + 1)) with
    | .error h => (t, some h)
    | .ok u => (u, none)

/-- The first record of a stage leaves it; what waits for room follows. -/
def popTrace (c : Nat) (s : State) : State := feedAll c (s.modCluster c (fun k => { k with trace := k.trace.drop 1 }))

/-- The run of the first record of a stage writes it. -/
def writeRecord (c n : Nat) (r : Run) (b : List Byte) (s : State) : State :=
  match readVa s r.asid r.traceRdVa 8 with
  | .error h => stopWriter c n r h s
  | .ok rd =>
    let s := touch c r.asid r.traceRdVa 8 false s
    if leNat rd + r.traceSlots ≤ r.traceN then traceEvent 1 s else
    let w := ringWrite c s r b
    match w.2 with
    | some h => stopWriter c n r h w.1
    | none =>
      let u := traceCount Trace.records (fun x k => { x with records := k }) 0x0 1 w.1
      let u := if fieldAt b 0 1 = 1 then traceCount Trace.gaps (fun x k => { x with gaps := k }) 0x8 1 u else u
      popTrace c (u.setRun n { r with traceN := r.traceN + 1 })

/-- The ring writer takes the first record of an engine trace stage (TRACE_RING_WRITE, R345, R346, R1086); one whose run is gone
leaves it unwritten. -/
def execTraceRingWrite (c : Nat) (s : State) : Host.Outcome State Fault Refusal :=
  if !s.on then .next s else
  match (s.cluster c).trace with
  | [] => .next (feedAll c s)
  | t :: _ =>
    match s.run t.ctx with
    | none => .next (popTrace c s)
    | some r => .next (if r.launch != t.launch || !r.traceOn || r.traceStop.isSome then popTrace c s else writeRecord c t.ctx r t.bytes s)

end Sys2Proof.Machine
end

