-- ==== Sys2Proof/Machine/Exchange.lean ====
section
/-! DEFINITION. Reports between the members of a multi-device run (file 05, R388 to R408). A phase of this member is one step;
its boundary reports leave with it, its energy reports when the boundary reports due to it are held (DEDUCED, log entry 30). -/

namespace Sys2Proof.Machine

/-! ## Phases by number: 65536 * sweep + phase -/

/-- The stage of a sweep. -/
def stageAt : List Stage → Nat → Option Stage
  | [], _ => none
  | st :: ss, n => if n < st.sweeps then some st else stageAt ss (n - st.sweeps)

/-- Phases of a sweep of the whole image (R307, R409). -/
def phasesIn (m : Problem) (ss : List Stage) (sweep : Nat) : Nat :=
  match stageAt ss sweep with
  | some st => if st.mode = 1 then 1 else (coloursOf m (List.range m.h.blocks)).length
  | none => 1

/-- The phase after a phase. -/
def nextPhase (m : Problem) (ss : List Stage) (k : Nat) : Nat :=
  if k % 65536 + 1 < phasesIn m ss (k / 65536) then k + 1 else (k / 65536 + 1) * 65536

def Report.key (p : Report) : Nat := 65536 * p.sweep + p.phase
def Run.key (r : Run) : Nat := 65536 * r.sweep + r.phase

/-! ## What is held -/

def Exch.report (x : Exch) (sender key : Nat) : Option Report := x.reports.find? (fun p => p.sender = sender && p.key = key)

/-- The members from which this one receives variables. -/
def Exch.due (x : Exch) (m : Problem) : List Nat := x.others.filter (fun d => x.receivesFrom m x.self d)

/-- Every boundary report of a phase that this member is due is complete. -/
def Exch.boundaryHeld (x : Exch) (m : Problem) (key : Nat) : Bool :=
  (x.due m).all (fun d => ((x.report d key).map (·.boundaryDone)).getD false)

/-- Every energy report of a phase is held. -/
def Exch.energyHeld (x : Exch) (key : Nat) : Bool :=
  x.others.all (fun d => ((x.report d key).map (·.energy.isSome)).getD false)

def Exch.modReport (x : Exch) (sender key : Nat) (f : Report → Report) : Exch :=
  let old : Report := { sender := sender, sweep := key / 65536, phase := key % 65536 }
  { x with reports := x.reports.filter (fun p => !(p.sender = sender && p.key = key)) ++ [f ((x.report sender key).getD old)] }

/-- A state with the boundary entries of some reports applied. -/
def applyReports (ps : List Report) (i u : Nat) : Nat :=
  (ps.flatMap (·.boundary)).foldl (fun u e => if e.replica = i then setBit u e.var e.u else u) u

/-- The complete reports not yet applied. -/
def Exch.pendingReports (x : Exch) : List Report := x.reports.filter (fun p => p.boundaryDone && !p.applied)

/-- Reports are applied to the states of the replicas (R400, R401); one of a phase that is not settled stays, as applied. -/
def Run.applyThese (r : Run) (x : Exch) (p : Report → Bool) : Run :=
  let ps := x.pendingReports.filter p
  { r with
    reps := r.reps.zipIdx.map (fun e => { e.1 with u := applyReports ps e.2 e.1.u })
    exch := some { x with
      reports := (x.reports.map (fun q => if ps.contains q then { q with applied := true } else q)).filter
        (fun q => !(q.applied && q.key < r.key)) } }

/-- The state at the end of a sweep takes in every report of the sweep (R363, R388, R404). -/
def Run.withReports (r : Run) : Run :=
  match r.exch with
  | none => r
  | some x => r.applyThese x (fun p => p.key < r.key)

/-! ## Packets (R389 to R394) -/

/-- The 64 bytes of a packet header. -/
def reportHeader (typ flags units count commit key : Nat) (x : Exch) (seed root : Nat) : List Byte :=
  pack 64 [(0x0, 1, typ), (0x1, 1, flags), (0x2, 2, x.self), (0x4, 2, key % 65536), (0x6, 1, units), (0x8, 8, key / 65536),
    (0x10, 8, x.epoch), (0x18, 8, seed), (0x20, 8, root), (0x28, 4, count), (0x38, 8, commit)]

/-- Bytes 0 to 7 of the coefficient root. -/
def root64 (c : Ctx) : Nat := fieldAt c.coeffRoot 0 8

def Outgoing.units (p : Outgoing) : Nat := 1 + ceilDiv p.body.length 64

/-- Bytes are stored in a peer by the exchange logic. -/
def remoteStore (s : State) (g : Nat) (bs : List Byte) : Except Halt State :=
  match peerWrite s g (untagged bs) with
  | .ok t => .ok t
  | .error e => .error (.access true e)

/-- The acknowledgement word of a receiver lies here (R396). -/
def Run.ackVa (r : Run) (x : Exch) (d : Nat) : Nat := r.area.va + x.ackOff + 8 * d

/-- Everything of a packet but its COMMIT is written at an offset of the receiver's sub-ring (R392, R394); W moves past it. -/
def openPacket (p : Outgoing) (root seed : Nat) (s : State) (x : Exch) : Except Halt (State × Exch) := do
  let w := mapGet 0 x.wpos p.dest
  let len := 64 * p.units
  let g := (x.member p.dest).inboxGva + x.self * x.sub + w % x.sub
  let commit := if p.typ = 3 then (w / x.sub + 1) * x.sub else w + len
  let t ← remoteStore s g ((reportHeader p.typ p.flags p.units p.count 0 p.key x seed root).take 0x38)
  let t ← if p.units = 1 then pure t else
    remoteStore t (g + 64) (p.body ++ List.replicate (len - 64 - p.body.length) 0#8)
  let k : OpenPacket := { gva := g + 0x38, commit := commit, tags := (t.silk.txns.drop s.silk.txns.length).map (·.tag) }
  return (t, { x with wpos := mapSet x.wpos p.dest commit, opened := mapSet x.opened p.dest k })

/-- COMMIT is written once every other write of the packet has completed (R737). -/
def commitPacket (d : Nat) (k : OpenPacket) (s : State) (x : Exch) : Except Halt (State × Exch) := do
  if s.silk.txns.any (fun t => k.tags.contains t.tag) then .error (.access true .held) else
  return (← remoteStore s k.gva (leBytes 8 k.commit), { x with opened := mapErase x.opened d })

/-- The next thing sent to a receiver: the COMMIT of the packet being sent; else the first packet that waits for it, a wrap packet
before one that does not fit (R393). Where flow control has no room (R396), or a write has not completed, it waits. -/
def sendNext (n d : Nat) (r : Run) (s : State) (x : Exch) : Except Halt (State × Exch) :=
  match mapFind x.opened d with
  | some k => commitPacket d k s x
  | none =>
    match x.outbox.find? (fun p => p.dest = d) with
    | none => .error (.access true .held)
    | some p => do
      let w := mapGet 0 x.wpos d
      let fits := w % x.sub + 64 * p.units ≤ x.sub
      let q : Outgoing := if fits then p else { p with typ := 3, flags := 0, count := 0, body := [] }
      let ack := leNat (← readVa s r.asid (r.ackVa x d) 8)
      let s := touch r.cluster r.asid (r.ackVa x d) 8 false s
      if x.sub < w + 64 * q.units - ack then .error (.access true .held) else
      openPacket q (root64 (s.ctx n)) r.seed s (if fits then { x with outbox := x.outbox.erase p } else x)

/-- Everything that can be sent to a receiver is sent; fuel bounds the packets and their COMMITs. -/
def sendReady (n d : Nat) (r : Run) : Nat → State → Exch → Except Halt (State × Exch)
  | 0, s, x => .ok (s, x)
  | fuel + 1, s, x =>
    match sendNext n d r s x with
    | .error h => if h.waits then .ok (s, x) else .error h
    | .ok (s, x) => sendReady n d r fuel s x

/-- Reports leave for each of some receivers. -/
def sendToAll (n : Nat) (r : Run) : List Nat → State → Exch → Except Halt (State × Exch)
  | [], s, x => .ok (s, x)
  | d :: ds, s, x =>
    match sendReady n d r (4 * x.outbox.length + 4) s x with
    | .error h => .error h
    | .ok (s, x) => sendToAll n r ds s x

/-- The exchange logic of a run sends what it can. -/
def pumpReports (n : Nat) (s : State) : Except Halt State :=
  match s.run n with
  | none => .ok s
  | some r =>
    match r.exch with
    | none => .ok s
    | some x => do
      let t ← sendToAll n r x.others s x
      return t.1.setRun n { r with exch := some t.2 }

/-- Every packet of a run has been sent whole. -/
def Run.reportsSent (r : Run) : Bool := r.exch.all (fun x => x.outbox.isEmpty && x.opened.isEmpty)

/-- The boundary report of a phase to member d (R390, R397).
DEDUCED, log entry 59: order of entries in a boundary report. -/
def boundaryPackets (m : Problem) (x : Exch) (key : Nat) (reps : List Replica) (before : List Nat) (d : Nat) : List Outgoing :=
  let vars := (x.me.blocks.filter (x.receives m d)).flatMap (fun k =>
    (List.range (m.block k).size).map (fun i => (m.block k).first + i))
  let es := reps.zipIdx.flatMap (fun e =>
    (vars.filter (fun v => bit e.1.u v != bit ((before[e.2]?).getD 0) v)).map (fun v =>
      pack 8 [(0, 4, v), (4, 1, e.2), (5, 1, natOfBool (bit e.1.u v))]))
  let ps := if es.isEmpty then [[]] else chunks 504 es
  ps.zipIdx.map (fun e =>
    { dest := d, key := key, typ := 1, flags := natOfBool (e.2 + 1 = ps.length), count := e.1.length, body := e.1.flatten })

/-- The energy report of a phase (R391). -/
def energyPacket (key : Nat) (es : List EnergyEntry) (pause : Bool) (d : Nat) : Outgoing :=
  { dest := d, key := key, typ := 2, flags := 1 + 2 * natOfBool pause, count := es.length
    body := es.flatMap (fun e => pack 48 [(0, 16, wrap 128 e.part), (0x10, 8, e.attempts), (0x18, 8, e.accepts), (0x20, 8, e.collisions)]) }

/-! ## Energies (R398, R399, R403) -/

/-- What this member reports of its last phase: its part of the energy for the exact state, and its counts. -/
def ownEntries (cp : Couplings) (uncoloured : Bool) (r : Run) (x : Exch) : List EnergyEntry :=
  r.reps.zipIdx.map (fun e =>
    let u := applyReports x.pendingReports e.2 e.1.u
    { part := cp.partial u, attempts := e.1.phaseCounts.1, accepts := e.1.phaseCounts.2.1
      collisions := if uncoloured then collisions cp e.1.start u else 0 })

/-- Member 0 reads PAUSE_REQ for the last phase of a sweep (R406). -/
def readPause (s : State) (r : Run) : Except Halt Bool := do
  return leNat (← readVa s r.asid (r.area.va + 0x68) 8) != 0

/-- The energy reports are ready to leave when every boundary report due is held (R399). -/
def sendEnergy (n : Nat) (s : State) : Except Halt State := do
  match s.run n with
  | none => return s
  | some r =>
    match r.exch with
    | none => return s
    | some x =>
      match x.last, x.own with
      | some l, none =>
        let key := 65536 * l.1 + l.2
        let image := fetchAt s r.asid (s.ctx n).imageVa
        let m ← image.problem
        if !x.boundaryHeld m key then return s else
        let ss ← image.schedule m
        let cp ← readCouplings image image m x.me.blocks
        let es := ownEntries cp (((stageAt ss l.1).map (·.mode)).getD 0 = 1) r x
        let pause ← if x.self = 0 && l.2 + 1 = phasesIn m ss l.1 then readPause s r else pure false
        let s := touchAll r.cluster r.asid 0 (r.readRanges (s.ctx n).imageVa m m.tables x.me.blocks) s
        return s.setRun n { r with exch := some { x with
          own := some es, pause := pause, energySince := s.now, outbox := x.outbox ++ x.others.map (energyPacket key es pause) } }
      | _, _ => return s

/-- The energies, counts and best states of a phase follow from the energy reports (R403); nothing is left to settle. -/
def settle (m : Problem) (r : Run) (x : Exch) (l : Nat × Nat) : Run :=
  let key := 65536 * l.1 + l.2
  let all := x.own.getD [] :: x.others.map (fun d => (((x.report d key).bind (·.energy)).getD []))
  let own := r.ownMask m
  let reps := r.reps.zipIdx.map (fun e =>
    let es := all.map (fun a => (a[e.2]?).getD ⟨0, 0, 0, 0⟩)
    e.1.phaseEnd l.1 e.1.u own (es.map (·.attempts)).sum (es.map (·.accepts)).sum (es.map (·.collisions)).sum
      (m.h.offset + (es.map (·.part)).sum))
  { r with
    reps := reps
    exch := some { x with
      last := none, own := none
      pause := x.pause || x.reports.any (fun p => p.key = key && p.pause)
      reports := x.reports.filter (fun p => p.key != key || (p.boundaryDone && !p.applied && !p.boundary.isEmpty)) } }

/-- The last phase of a member can be settled: every report of it is held (R402). -/
def Exch.settled (x : Exch) (m : Problem) : Bool :=
  match x.last with
  | none => true
  | some l => x.own.isSome && x.energyHeld (65536 * l.1 + l.2) && x.boundaryHeld m (65536 * l.1 + l.2)

/-- A multi-device run with its last phase settled, none where a report is missing. -/
def Run.settleLast (r : Run) (m : Problem) : Option Run :=
  match r.exch with
  | none => some r
  | some x =>
    if !x.settled m then none else
    match x.last with
    | none => some r
    | some l => some (settle m r x l)

/-! ## A packet arrives (R395, R401, R407) -/

/-- The header of a packet as a receiver reads it. -/
structure PacketHead where
  typ : Nat
  flags : Nat
  sender : Nat
  phase : Nat
  units : Nat
  sweep : Nat
  epoch : Nat
  seed : Nat
  root : Nat
  count : Nat
  commit : Nat
  deriving DecidableEq, Repr

def packetHeadOf (b : List Byte) : PacketHead :=
  { typ := fieldAt b 0 1, flags := fieldAt b 1 1, sender := fieldAt b 2 2, phase := fieldAt b 4 2, units := fieldAt b 6 1
    sweep := fieldAt b 8 8, epoch := fieldAt b 0x10 8, seed := fieldAt b 0x18 8, root := fieldAt b 0x20 8
    count := fieldAt b 0x28 4, commit := fieldAt b 0x38 8 }

/-- R395; a wrap packet's COMMIT is the next multiple of SUB (R393). -/
def PacketHead.accepted (h : PacketHead) (x : Exch) (pos : Nat) : Bool :=
  h.epoch = x.epoch && 1 ≤ h.units && h.units ≤ 64 &&
    (if h.typ = 3 then h.commit = (pos / x.sub + 1) * x.sub else h.commit = pos + 64 * h.units)

def boundaryEntryOf (b : List Byte) : BoundaryEntry := { var := fieldAt b 0 4, replica := fieldAt b 4 1, u := fieldAt b 5 1 != 0 }
def energyEntryOf (b : List Byte) : EnergyEntry :=
  { part := fieldInt b 0 16, attempts := fieldAt b 0x10 8, accepts := fieldAt b 0x18 8, collisions := fieldAt b 0x20 8 }

/-- The phase that a report of a sender is expected to be of. -/
def Exch.expects (x : Exch) (h : PacketHead) (d : Nat) : Nat := if h.typ = 1 then mapGet 0 x.bnext d else mapGet 0 x.enext d

/-- The reports with a packet taken in. -/
def Exch.take (x : Exch) (m : Problem) (ss : List Stage) (d : Nat) (h : PacketHead) (body : List Byte) : Exch :=
  let key := 65536 * h.sweep + h.phase
  if h.typ = 1 then
    let x := x.modReport d key (fun p => { p with
      boundary := p.boundary ++ ((chunks 8 body).take h.count).map boundaryEntryOf, boundaryDone := bit h.flags 0 })
    if bit h.flags 0 then { x with bnext := mapSet x.bnext d (nextPhase m ss key) } else x
  else
    let x := x.modReport d key (fun p => { p with
      energy := some (((chunks 48 body).take h.count).map energyEntryOf), pause := bit h.flags 1 })
    { x with enext := mapSet x.enext d (nextPhase m ss key) }

/-- A packet is consumed: the read position moves and is acknowledged to the sender (R395). -/
def consumePacket (n d : Nat) (r : Run) (x : Exch) (s : State) (pos : Nat) : Except Halt State := do
  let h := packetHeadOf (← readVa s r.asid (r.area.va + x.inboxOff + d * x.sub + pos % x.sub) 64)
  if !h.accepted x pos then return s else
  let image := fetchAt s r.asid (s.ctx n).imageVa
  let m ← image.problem
  let ss ← image.schedule m
  demand (h.typ = 3 || (h.seed = r.seed && h.root = root64 (s.ctx n) && 65536 * h.sweep + h.phase = x.expects h d)) 0x401
  let body ← if h.typ = 3 then pure [] else
    readVa s r.asid (r.area.va + x.inboxOff + d * x.sub + pos % x.sub + 64) (64 * h.units - 64)
  let x := if h.typ = 3 then x else x.take m ss d h body
  let x := { x with rpos := mapSet x.rpos d h.commit }
  let s := touch r.cluster r.asid (r.area.va + x.inboxOff + d * x.sub + pos % x.sub) (64 * h.units) false s
  let t ← remoteStore s ((x.member d).ackGva + 8 * x.self) (leBytes 8 h.commit)
  return t.setRun n { r with exch := some x }

/-- A run of a launch that runs. -/
def liveRun (s : State) (n : Nat) : Option (Launch × Run) :=
  match s.run n with
  | some r =>
    match s.launch r.launch with
    | some ln => if s.on && ln.phase == .running && !r.seedWait && r.next != .finished then some (ln, r) else none
    | none => none
  | none => none

/-- The energy reports that are due join the packets to be sent, and the exchange logic sends what it can. -/
def moveReports (n : Nat) (s : State) : Except Halt State := do pumpReports n (← sendEnergy n s)

/-- A run whose exchange logic works: its launch runs. -/
def exchanging (s : State) (n : Nat) : Option (Launch × Run × Exch) :=
  match s.run n with
  | some r =>
    match s.launch r.launch, r.exch with
    | some ln, some x => if s.on && ln.phase == .running && !r.seedWait then some (ln, r, x) else none
    | _, _ => none
  | none => none

/-- REPORT_PACKET: the exchange logic finds the next packet of a sender in the inbox (R389, R395, R399, R407), and sends what may
leave. -/
def execReportPacket (ctx sender : Nat) (s : State) : Host.Outcome State Fault Refusal :=
  match exchanging s ctx with
  | none => .next s
  | some (ln, r, x) =>
    if x.members.length ≤ sender || sender = x.self then .next s else
    match (if r.next = .finished then .ok s else consumePacket ctx sender r x s (mapGet 0 x.rpos sender)) with
    | .error h => .next (haltLaunch ln.id ln.asid r.cluster h s)
    | .ok t =>
      match moveReports ctx t with
      | .error h => .next (if h.waits then t else haltLaunch ln.id ln.asid r.cluster h t)
      | .ok u => .next u

/-- A report is missing and has been waited for longer than TIMEOUT_US: a boundary report since the end of this member's phase, an
energy report since its own was ready (R408; DEDUCED, log entry 30). -/
def Exch.overdue (x : Exch) (now : Nat) : Bool :=
  match x.last with
  | none => false
  | some l =>
    let key := 65536 * l.1 + l.2
    (x.own.isNone && x.waitSince + 1000 * x.timeoutUs < now) ||
      (x.own.isSome && !x.energyHeld key && x.energySince + 1000 * x.timeoutUs < now)

/-- REPORT_TIMEOUT (R408). -/
def execReportTimeout (ctx : Nat) (s : State) : Host.Outcome State Fault Refusal :=
  match liveRun s ctx with
  | none => .next s
  | some (ln, r) => needs (r.exch.any (fun x => x.overdue s.now)) (stopLaunch ln.id 0x400 s) s

end Sys2Proof.Machine
end

