-- ==== Sys2Proof/Machine/RunSteps.lean ====
section
/-! DEFINITION. The anneal steps of a run after its start: phases, the end of a sweep, rotation starts and checkpoints (file
04, R307 to R343; file 05, R370 to R379, R400 to R406, R412 to R425, R1085, R1089, R1095). -/

namespace Sys2Proof.Machine

/-! ## When an anneal step may run -/

/-- The anneal step of an execution may be done: every cluster that holds the ANNEAL has issued it, none has abandoned the
step, and no digest waits to be compared. -/
def stepMayRun (s : State) (ln : Launch) : Bool :=
  !ln.longRan && !ln.longDone && !ln.awaitsDigest &&
    ln.clusterList.all (fun c =>
      let k := s.cluster c
      !k.holdsLong || (k.begun && k.abandon.isNone && k.rerun.isEmpty && k.opcode != 0x40))

/-- A run that may take a step of a given kind. -/
def runAt (s : State) (n : Nat) (stage : RunStage) : Option (Launch × Run) :=
  match liveRun s n with
  | some (ln, r) => if r.next = stage then some (ln, r) else none
  | none => none

/-- The ring writer of the run has stopped: the run ends at this step boundary (R1086). -/
def endStopped (ln : Launch) (r : Run) (s : State) : Option State := r.traceStop.map (fun st => stopLaunch ln.id st s)

/-! ## A phase (R307 to R316) -/

/-- What one phase does to one replica: the visits, and the state the phase leaves. -/
def phaseReplica (cp : Couplings) (st : Stage) (r : Run) (blocks : List Nat) (i : Nat) (x : Replica) : Visited :=
  phaseVisits cp { seed := r.seed, sweep := r.sweep, replica := i, rule := st.rule, betaM := x.betaM, betaX := x.betaX }
    blocks x.u

/-- A phase of a run on one device. -/
def singlePhase (s : State) (r : Run) (m : Problem) (st : Stage) (cp : Couplings) (blocks : List Nat) : State × Run :=
  let own := r.ownMask m
  let reps := r.reps.zipIdx.map (fun e =>
    let v := phaseReplica cp st r blocks e.2 e.1
    let coll := if st.mode = 1 then collisions cp e.1.u v.u else 0
    { e.1.phaseEnd r.sweep v.u own v.attempts v.accepts coll (e.1.energy + cp.change e.1.u v.u) with u := v.u, start := e.1.u })
  (s, { r with reps := reps })

/-- Reports that take effect as a phase begins: those of earlier phases under Lockstep; under Loose exchange those that had
arrived: all of the phases before the last, of the last one and of this one by a free value (R400, R401, log entry 30). -/
def arrived (m : Problem) (ss : List Stage) (x : Exch) (free key : Nat) (p : Report) : Bool :=
  if p.key < key then !x.loose || nextPhase m ss p.key != key || Config.freeBool (free + p.sender)
  else x.loose && p.key = key && Config.freeBool (free + p.sender) && Config.freeBool (free + 256 + p.sender)

/-- A phase of a member: reports are applied, the owned blocks visited, the changes sent (R397, R400 to R402). -/
def memberPhase (s : State) (r : Run) (m : Problem) (ss : List Stage) (st : Stage) (cp : Couplings)
    (blocks : List Nat) (x : Exch) : State × Run :=
  let settled := x.pendingReports.filter (fun p => p.key < r.key)
  let exact := r.reps.zipIdx.map (fun e => applyReports settled e.2 e.1.u)
  let r := r.applyThese x (arrived m ss x s.free r.key)
  let before := r.reps.map (·.u)
  let reps := r.reps.zipIdx.map (fun e =>
    let v := phaseReplica cp st r blocks e.2 e.1
    { e.1 with u := v.u, start := (exact[e.2]?).getD 0, phaseCounts := (v.attempts, v.accepts, 0) })
  let x := r.exch.getD x
  let packets := (x.others.filter (fun d => x.receivesFrom m d x.self)).flatMap (boundaryPackets m x r.key reps before)
  (drawn 512 s, { r with
    reps := reps
    exch := some { x with last := some (r.sweep, r.phase), waitSince := s.now, pause := false, outbox := x.outbox ++ packets } })

/-- The start of a stage (R328): with its first phase, so a checkpoint at the end of the stage before holds the β of that
stage (DEDUCED, log entry 27). -/
def Run.stageStart (r : Run) (st : Stage) : Run :=
  if r.stageSweep = 0 && r.phase = 0 then { r with reps := r.reps.map (fun x => x.stageBeta st r.ladder) } else r

/-- The phase that a run is at. -/
def phaseStep (s : State) (n : Nat) (ln : Launch) (r : Run) : Except Halt State := do
  let image := fetchAt s r.asid (s.ctx n).imageVa
  let m ← image.problem
  let ss ← image.schedule m
  match r.settleLast m with
  | none => .error (.access false .held)
  | some r =>
    let st := (ss[r.stage]?).getD ⟨0, 0, 0, 0, 0, 0, 0, 0, 0⟩
    let r := r.stageStart st
    let phases := r.phases m st
    let blocks := (phases[r.phase]?).getD []
    let cp ← readCouplings image (r.planes s image m) m blocks
    let s := touchAll r.cluster r.asid 0 (r.readRanges (s.ctx n).imageVa m m.tables blocks) s
    let x := match r.exch with
      | some x => memberPhase s r m ss st cp blocks x
      | none => singlePhase s r m st cp blocks
    let t := annealWork ln r m .phase x.1
    let r := { x.2 with phase := r.phase + 1, next := if r.phase + 1 < phases.length then .phase else .sweepEnd }
    moveReports n (markRan ln.id (t.setRun n r))

/-- ANNEAL_PHASE: one phase of every replica (R307 to R316). -/
def execAnnealPhase (ctx : Nat) (s : State) : Host.Outcome State Fault Refusal :=
  match runAt s ctx .phase with
  | none => .next s
  | some (ln, r) =>
    if !stepMayRun s ln then .next s else
    match endStopped ln r s with
    | some t => .next t
    | none =>
      match phaseStep s ctx ln r with
      | .error h => .next (stopAnneal r.cluster ctx ln h s)
      | .ok t => .next t

/-! ## The end of a sweep (R326 to R343, R370, R373, R404) -/

/-- Windows of SPREAD and IMPROVE end (R337). -/
def windowEnds (st : Stage) (k : Nat) (xs : List Replica) : List Replica := if k % st.traceK = 0 then xs.map Replica.windowEnd else xs

/-- The action at interval (R327, R330): the replicas after it, and the exchanges done. -/
def intervalAction (st : Stage) (k : Nat) (r : Run) : Run :=
  if st.paramA = 0 || k % st.paramA != 0 then r
  else if st.policy = 3 then { r with reps := exchangeReplicas r.seed r.sweep r.exchanges r.reps, exchanges := r.exchanges + 1 }
  else { r with reps := r.reps.map (Replica.adjust st) }

/-- The position of the next sweep: stage, rotation and sweep index (R300, R370, R373). -/
def nextPosition (st : Stage) (k : Nat) (r : Run) : Run :=
  let r := if k < st.sweeps then { r with stageSweep := k }
    else { r with stage := r.stage + 1, stageSweep := 0, reps := r.reps.map Replica.windowStart }
  let r := match r.plan[r.rotation % r.plan.length]? with
    | some e => if r.dwellDone + 1 < e.1 then { r with dwellDone := r.dwellDone + 1 }
        else { r with dwellDone := 0, rotation := r.rotation + 1 }
    | none => r
  { r with sweep := r.sweep + 1, phase := 0 }

/-- What the run does after a sweep that does not end it. -/
def Run.onward (r : Run) : RunStage := if !r.plan.isEmpty && r.dwellDone = 0 then .rotation else .phase

/-- R301 ends the run at the sweep that has just ended. -/
def Run.over (r : Run) (ss : List Stage) : Bool := r.targetHit || ss.length ≤ r.stage

/-- The device writes zero to PAUSE_REQ; in a multi-device run member 0 does so (R421, R1089). -/
def clearPause (r : Run) (s : State) : Except Halt State :=
  if (r.exch.map (·.self)).getD 0 = 0 then writeVa r.cluster s r.asid (r.area.va + 0x68) (leBytes 8 0) else .ok s

/-- A run is over or pauses: its last records, its rows, its context, and the collisions of the completion entry. -/
def closeRun (n : Nat) (ln : Launch) (m : Problem) (pause : Bool) (r : Run) (s : State) : Except Halt State := do
  let s ← writeAll r.cluster s r.asid r.area.va (areaRows r.area m.h.nvars r.reps)
  let s ← clearPause r s
  let recs := if r.traceOn && r.traceStop.isNone then
      (if pause then r.endRecs.map (fun b => putAt b 1 [BitVec.ofNat 8 (fieldAt b 1 1 + 16)]) else r.endRecs) else []
  let r := if r.traceOn then queueGaps n r recs else r
  let s := s.setRun n { r with next := .finished, pausing := pause }
  let s := if pause then pauseRun n r.reps s else endRun n r.reps s
  let s := s.modLaunch ln.id (fun l => { l with
    longDone := true
    collisions := l.collisions + (r.reps.map (fun x => x.collisions.count)).sum
    collOvf := l.collOvf || r.reps.any (fun x => x.collisions.ovf) })
  return feedStage (traceCluster ln) n (annealDone ln r m s)

/-- The sweep-end work up to the records (R335 to R343): statistics, windows, records; then the interval action and the
position of the next sweep. -/
def sweepWork (s : State) (n : Nat) (ln : Launch) (st : Stage) (r : Run) : State × Run :=
  let k := r.stageSweep + 1
  let r := { r with reps := windowEnds st k r.reps }
  let hit := r.hits
  let sweeps := r.sweep + 1
  let tc := traceCluster ln
  let sample := if r.traceOn && k % st.traceK = 0 then
      offerAll tc ln.id n sweeps 0 (sweepRecords 0 st hit r.stage sweeps r.reps) r.reps s else (r.reps, s)
  let stageEnd := if r.traceOn && k = st.sweeps then
      offerAll tc ln.id n sweeps 0 (sweepRecords 2 st hit r.stage sweeps sample.1) sample.1 sample.2 else sample
  let r := { r with reps := stageEnd.1, targetHit := hit, endRecs := runEndRecords { r with reps := stageEnd.1 } st r.stage sweeps }
  (stageEnd.2, nextPosition st k (intervalAction st k r))

/-- A checkpoint is due at the end of the sweep that has just ended (R417). -/
def Run.due (r : Run) : Bool := r.area.every != 0 && r.sweep % r.area.every = 0

/-- A pause is asked for: PAUSE_REQ, or the flag of member 0's report (R406, step 1 of Pausing). -/
def pauseAsked (s : State) (r : Run) : Except Halt Bool :=
  match r.exch with
  | some x => .ok x.pause
  | none => readPause s r

/-- PAUSE_REQ has been read. -/
def touchPause (r : Run) (s : State) : State :=
  if r.exch.isNone then touch r.cluster r.asid (r.area.va + 0x68) 8 false s else s

/-- The end of a sweep; a run resumed from the checkpoint of its last sweep has no further one, and is closed. -/
def sweepStep (s : State) (n : Nat) (ln : Launch) (r : Run) : Except Halt State := do
  let image := fetchAt s r.asid (s.ctx n).imageVa
  let m ← image.problem
  let ss ← image.schedule m
  match r.settleLast m with
  | none => .error (.access false .held)
  | some r =>
    if r.phase = 0 then closeRun n ln m false r s else
    let st := (ss[r.stage]?).getD ⟨0, 0, 0, 0, 0, 0, 0, 0, 0⟩
    let s := touchAll r.cluster r.asid 0 ((m.heads ++ m.tables).map (fun e => ((s.ctx n).imageVa + e.1, e.2))) s
    let w := sweepWork s n ln st r.withReports
    let s := w.1
    let r := w.2
    let s ← writeAll r.cluster s r.asid r.area.va (areaRows r.area m.h.nvars r.reps)
    if r.due then return s.setRun n { r with next := .checkpoint, pausing := false }
    else if r.over ss then closeRun n ln m false r s
    else
      let pause ← pauseAsked s r
      let s := touchPause r s
      return s.setRun n { r with next := if pause then .checkpoint else r.onward, pausing := pause }

/-- SWEEP_END: the sweep-end work (R404). It belongs to the execution of the sweep's last phase. -/
def execSweepEnd (ctx : Nat) (s : State) : Host.Outcome State Fault Refusal :=
  match runAt s ctx .sweepEnd with
  | none => .next s
  | some (ln, r) =>
    if ln.longDone then .next s else
    match endStopped ln r s with
    | some t => .next t
    | none =>
      match sweepStep s ctx ln r with
      | .error h => .next (stopAnneal r.cluster ctx ln h s)
      | .ok t => .next t

/-! ## Rotation starts (R376 to R380) -/

/-- The staging, the rows, and the fields of the new rotation. -/
def rotationStep (s : State) (n : Nat) (ln : Launch) (r : Run) : Except Halt State := do
  let image := fetchAt s r.asid (s.ctx n).imageVa
  let m ← image.problem
  let t ← stageEntries n m r (rotationStages (r.next = .resume) r) s
  let s := touchAll r.cluster r.asid 0 (r.readRanges (s.ctx n).imageVa m [] (r.blocks m)) t
  let t ← writeAll r.cluster s r.asid r.area.va (areaRows r.area m.h.nvars r.reps)
  return markRan ln.id (annealWork ln r m .fields (t.setRun n { r with next := .phase }))

/-- ROTATION_START (R376): the bytes of a rotation are in the staging area; its fields follow from them and the states. -/
def execRotationStart (ctx : Nat) (s : State) : Host.Outcome State Fault Refusal :=
  match liveRun s ctx with
  | none => .next s
  | some (ln, r) =>
    if !(stepMayRun s ln && (r.next = .rotation || r.next = .resume)) then .next s else
    match endStopped ln r s with
    | some t => .next t
    | none =>
      match rotationStep s ctx ln r with
      | .error h => .next (stopAnneal r.cluster ctx ln h s)
      | .ok t => .next t

/-! ## Checkpoints (R412 to R417, R425, R1085, R1089) -/

/-- The five steps of writing a checkpoint; the context names the slot at the end. -/
def writeCkpt (s : State) (n : Nat) (r : Run) (image : Fetch) (m : Problem) : Except Halt (State × List Byte) := do
  let c := s.ctx n
  let l := r.layout m
  let cp ← readCouplings image image m (if l.fields = 0 then [] else r.blocks m)
  let seq := r.ckptSeq + 1
  let slot := nextSlot r.area c.checkpointVa
  let content := ckptContent r c m cp
  let bytes := ckptBytes seq s.now (if r.traceOn then r.traceN else 0) r.pausing content
  let s := touchAll r.cluster r.asid 0 (r.readRanges c.imageVa m [] (if l.fields = 0 then [] else r.blocks m)) s
  let t ← writeAll r.cluster s r.asid (r.area.va + slot) [(0, leBytes 8 0), (8, bytes), (0, leBytes 8 seq)]
  return (t.setCtx n { t.ctx n with checkpointVa := r.area.va + slot }, sha384 content)

/-- The checkpoint that is due, and what the run does after it. -/
def ckptStep (s : State) (n : Nat) (ln : Launch) (r : Run) : Except Halt State := do
  let image := fetchAt s r.asid (s.ctx n).imageVa
  let m ← image.problem
  let ss ← image.schedule m
  let w ← writeCkpt s n r image m
  let r := { r with ckptSeq := r.ckptSeq + 1 }
  let t := markRan ln.id (annealWork ln r m .checkpoint w.1)
  let t := if ln.pair then comparePair ln.id (sendDigest ln.id r.ckptSeq r.sweep w.2 t) else t
  let t ← writeAll r.cluster t r.asid r.area.va (areaRows r.area m.h.nvars r.reps)
  if r.over ss then closeRun n ln m false r t
  else
    let pause ← if r.pausing then pure true else pauseAsked t r
    let t := if r.pausing then t else touchPause r t
    if pause then closeRun n ln m true r t
    else return t.setRun n { r with next := r.onward }

/-- CHECKPOINT_WRITE (R416): with trace on, the records and gap markers of the run are in the ring first (R1085). -/
def execCheckpointWrite (ctx : Nat) (s : State) : Host.Outcome State Fault Refusal :=
  match runAt s ctx .checkpoint with
  | none => .next s
  | some (ln, r) =>
    if !stepMayRun s ln then .next s else
    match endStopped ln r s with
    | some t => .next t
    | none =>
      let tc := traceCluster ln
      if r.traceOn && r.reps.any (fun x => x.gap.isSome) then .next (feedStage tc ctx (s.setRun ctx (queueGaps ctx r [])))
      else if r.traceOn && !traceDrained s tc ctx r then .next s
      else match ckptStep s ctx ln r with
      | .error h => .next (stopAnneal r.cluster ctx ln h s)
      | .ok t => .next t

end Sys2Proof.Machine
end

