-- ==== Sys2Proof/Machine/Recompute.lean ====
section
/-! DEFINITION. The recomputation of a step (file 07, R583 to R595; file 05, R380; file 06, R1093). -/

namespace Sys2Proof.Machine

/-! ## Golden copies (R587) -/

/-- The core-memory line of a place: logical index and line, where the place lies in the window of a bound index of c. -/
def coreLine (c place : Nat) : Option (Nat × Nat) :=
  if Config.coreBase ≤ place && place < Config.coreBase + Config.coreRegion then
    let w := (place - Config.coreBase) / Config.coreSize
    if w / 64 = c then some (w % 64, (place - Config.coreBase) % Config.coreSize / 64) else none
  else none

/-- The 4 KiB unit of a staging area that holds a place. -/
def stagingUnit (s : State) (r : Run) (place : Nat) : Option Nat :=
  if r.plan.isEmpty then none else
  findIdx (fun i => physOfVa s r.asid (r.area.stageVa + 4096 * i) / 4096 = place / 4096) (List.range (r.area.stageBytes / 4096)) 0

/-- The run of a launch whose staging area holds a place, and the unit. -/
def stagedBy (s : State) (id place : Nat) : Option (Nat × Run × Nat) :=
  (s.runs.filter (fun e => e.2.launch = id)).findSome? (fun e => (stagingUnit s e.2 place).map (fun u => (e.1, e.2, u)))

/-- The snapshot slot of a line delivers no poison. -/
def slotClean (s : State) (c : Nat) (x : Nat × Nat) : Bool :=
  match physRead s (slotAddr c x.1 x.2) 64 with
  | some ts => !anyPoison ts
  | none => false

/-- A place has a golden copy for the step of a cluster: the step has written the word, or its line is logged and the slot
holds no poison, or it is staged. -/
def golden (s : State) (c id place : Nat) : Bool :=
  (match coreLine c place with
    | some x =>
      let k := (s.cluster c).snap
      k.written.contains (x.1, (place - Config.coreBase) % Config.coreSize / 8) || (k.logged.contains x && slotClean s c x)
    | none => false) || (stagedBy s id place).isSome

/-- The bytes a place holds. -/
def placeBytes (s : State) (place : Nat) : List Byte := ((wordAt s place).map (·.1)).getD []

/-! ## The restore (R584, R590) -/

/-- A word of a snapshot slot is detected as bad by R580 (R590). -/
def slotBad (s : State) (a : Nat) : Bool :=
  match placeOf s a with
  | .stacked c sl _ => (redirectSlot s c sl).isNone && wordCheck s.mem a == .bad
  | _ => false

def lineSlotBad (s : State) (c : Nat) (x : Nat × Nat) : Bool := (List.range 8).any (fun i => slotBad s (slotAddr c x.1 x.2 + 8 * i))

/-- A logged line is copied from its slot with its tags. -/
def restoreLine (c : Nat) (s : State) (x : Nat × Nat) : State :=
  physWrite s (window c x.1 (64 * x.2)) ((physRead s (slotAddr c x.1 x.2) 64).getD [])

/-- Core memory of a cluster as its last step boundary left it (R595; DEDUCED, log entry 58). -/
def undoStep (s : State) (c : Nat) : State :=
  ((s.cluster c).snap.logged.filter (fun x => !lineSlotBad s c x)).foldl (restoreLine c) s

/-- Tiles and node tiles of the snapshot; the foreign accumulators stay (R1094). -/
def Cluster.restoreTiles (k : Cluster) : Cluster :=
  { k with
    cores := k.cores.map (fun e => (e.1, { e.2 with tiles := mapGet [] k.snap.tiles e.1, tileSat := mapGet 0 k.snap.sats e.1 }))
    node := (k.node.map (fun e =>
      let x := mapGet {} k.snap.node e.1
      (e.1, { x with foreign := e.2.foreign, foreignSources := e.2.foreignSources }))) }

/-- REDUCEs to the node of the own cluster are issued again in a rerun (R1093). -/
def keptReduces (c : Nat) (ln : Launch) (k : Cluster) : List Nat :=
  k.reduced.filter (fun key => match k.ops[key / 64]? with
    | some o => bits (immOf ln o 0) 0 8 != c
    | none => false)

/-- The cluster stands at its restored boundary. -/
def Cluster.restored (k : Cluster) (kept : List Nat) : Cluster :=
  { k.restoreTiles.freshCounts with pos := k.snap.pos, sat := k.snap.sat, reduced := kept, abandon := none, rerun := []
                                    entropyWait := false, snap := { k.snap with logged := [], written := [] } }

/-! ## Packets and transactions of the step -/

/-- A packet that a core of the cluster has sent, or its acknowledgement on the way back. -/
def ofCluster (c : Nat) (k : Pkt) : Bool :=
  (k.srcUnit == .core && k.srcCluster = c && k.typ != 3) || (k.typ = 3 && k.destCluster = c)

/-- A router port of a core of the cluster. -/
def ownPort (c n : Nat) : Bool := corePort c 0 0 ≤ n && n < corePort c 64 0

/-- A packet of a SEND or MCAST that has not left the router port of its core. -/
def unsent (c n : Nat) (k : Pkt) : Bool := ownPort c n && k.srcUnit == .core && (k.typ = 4 || k.typ = 5)

/-- Nothing that the step let run on is on its way: REDUCE packets anywhere, other packets past their router port,
transactions.
DEDUCED, log entry 58: when a recomputation begins, and the core that poison of long operations is charged to. -/
def stepQuiet (s : State) (c : Nat) : Bool :=
  s.net.fifos.all (fun e => e.2.all (fun k => !ofCluster c k || unsent c e.1 k)) &&
    (s.cluster c).cores.all (fun e => e.2.sent.isEmpty)

/-- Operations in flight are abandoned: packets not yet sent and transactions not yet issued. -/
def dropUnsent (c : Nat) (s : State) : State :=
  let cut : Nat × List Pkt → Nat × List Pkt := fun e =>
    (e.1, e.2.filter (fun k => !unsent c e.1 k))
  let s := { s with net := { s.net with fifos := (s.net.fifos.map cut).filter (fun e => !e.2.isEmpty) } }
  s.modCluster c (fun k => { k with cores := k.cores.map (fun e => (e.1, { e.2 with acks := 0, waiting := [] })) })

/-! ## Staging (R380, step 4) -/

/-- The parts of writes that fall in the 4 KiB unit u. -/
def inUnit (u : Nat) (ws : List (Nat × List Byte)) : List (Nat × List Byte) :=
  ws.filterMap (fun w =>
    let lo := max w.1 (4096 * u)
    let hi := min (w.1 + w.2.length) (4096 * u + 4096)
    if lo < hi then some (lo, (w.2.drop (lo - w.1)).take (hi - lo)) else none)

/-- The image ranges of the planes staged in the 4 KiB unit u of a half. -/
def unitItems (u : Nat) (places : List (Nat × Nat × Nat)) : List Item :=
  places.filterMap (fun e =>
    let lo := max e.1 (4096 * u)
    let hi := min (e.1 + e.2.2) (4096 * u + 4096)
    if lo < hi then some (e.2.1 + (lo - e.1), hi - lo) else none)

/-- A 4 KiB unit of a staging area is fetched again from the image, where a rotation has staged its half. -/
def refetchUnit (s : State) (n : Nat) (r : Run) (u : Nat) : Except Halt State := do
  let va := (s.ctx n).imageVa
  let image := fetchAt s r.asid va
  let m ← image.problem
  let units := r.area.stageBytes / 8192
  let rho := if r.staging r.rotation % 2 = u / units then r.rotation else r.rotation + 1
  if r.staging rho % 2 != u / units then return s else
  let blocks := r.entryBlocks rho
  let ws ← stageWrites image m blocks
  let s := touchAll r.cluster r.asid va (unitItems (u % units) (stagePlaces 0 (stagedItems m blocks))) s
  writeAll r.cluster s r.asid (r.half rho) (inUnit (u % units) ws)

def refetchAll (id : Nat) : List Nat → State → Except Halt State
  | [], s => .ok s
  | p :: ps, s =>
    match stagedBy s id p with
    | none => refetchAll id ps s
    | some x =>
      match refetchUnit s x.1 x.2.1 x.2.2 with
      | .error h => .error h
      | .ok t => refetchAll id ps t

/-! ## STEP_RECOMPUTE -/

/-- A rerun has consumed poison again at an unchanged location without a golden copy (R589). -/
def consumedTwice (s : State) (c id : Nat) (places : List Nat) : Bool :=
  places.any (fun p => !golden s c id p && (s.cluster c).consumed.contains (p, placeBytes s p))

/-- Steps 2 to 5 of the recomputation. -/
def recompute (c : Nat) (ln : Launch) (a : Abandon) (s : State) : State :=
  let old := s
  let logged := (s.cluster c).snap.logged
  let fresh := (a.places.filter (fun p => !golden s c ln.id p)).map (fun p => (p, placeBytes s p))
  if logged.any (lineSlotBad s c) then stopLaunch ln.id 0x301 s else
  let s := withdraw (fun r => r.who == .entropyOp c) (dropUnsent c (a.places.foldl (noteBad ln.id) s))
  let s := logged.foldl (restoreLine c) s
  let s := s.modCluster c (fun k => { k.restored (keptReduces c ln k) with reruns := k.reruns + 1, consumed := fresh ++ k.consumed })
  match refetchAll ln.id a.places s with
  | .error h => haltLaunch ln.id ln.asid c h (if h.waits then old else s)
  | .ok t =>
    memcRecompute (coreCount c a.core Core.recompute (fun k x => { k with recompute := x }) 0x38 1
      (t.modLaunch ln.id (fun l => { l with recomputes := l.recomputes + 1 })))

/-- STEP_RECOMPUTE: a cluster that has abandoned its step restores its snapshot and runs the step again (R583 to R592). -/
def execStepRecompute (c : Nat) (s : State) : Host.Outcome State Fault Refusal :=
  match (s.cluster c).abandon, s.runningOn c with
  | some a, some ln =>
    if !s.on || ln.phase != .running then .next s
    else if a.lost then .next (stopLaunch ln.id 0x400 s)
    else if 3 ≤ (s.cluster c).reruns then .next (stopLaunch ln.id 0x302 s)
    else if consumedTwice s c ln.id a.places then .next (stopLaunch ln.id 0x301 s)
    else needs (stepQuiet s c) (recompute c ln a s) s
  | _, _ => .next s

end Sys2Proof.Machine
end

