-- ==== Sys2Proof/Machine/Complete.lean ====
section
/-! DEFINITION. LAUNCH_WIDE_STEP_END and LAUNCH_COMPLETE (file 06, R443, R453, R1092, R1094; file 10, R815 to R818, R836 to
R839, R852, R853, R859 to R863; file 11, R897 to R900, R913, R918 to R924). -/

namespace Sys2Proof.Machine

/-! ## The launch-wide end of a step -/

/-- The foreign accumulator of a node tile is combined into it (R1094). -/
def NodeTile.absorbForeign (x : NodeTile) : NodeTile :=
  { x with
    tile := { x.tile with els := x.foreign.els.foldl (fun m e =>
      mapModify {} m e.1 (fun y => { y with wide := combineInto x.tile.f y.wide { w := e.2.wide, f := x.tile.f } })) x.tile.els }
    sources := x.foreignSources.foldl (fun m e => mapModify 0 m e.1 (· + e.2)) x.sources
    foreign := { x.foreign with els := [] }, foreignSources := [] }

def Cluster.absorbForeign (k : Cluster) : Cluster := { k with node := k.node.map (fun e => (e.1, e.2.absorbForeign)) }

/-- Every cluster that must end this execution has ended it: in a step that holds a run or load not yet over, those that hold
it (R1092); else all. -/
def allEnded (s : State) (ln : Launch) : Bool :=
  let again := longStep s ln && !ln.longDone
  ln.clusterList.all (fun c => (s.cluster c).ended || (again && !(s.cluster c).holdsLong))

/-- The runs of a launch that are over. -/
def overRuns (s : State) (id : Nat) : List (Nat × Run) := s.runs.filter (fun e => e.2.launch = id && e.2.next == .finished)

/-- The trace records of the runs that are over have reached the ring (R350), and their last reports have left. -/
def runsDrained (s : State) (ln : Launch) : Bool :=
  (overRuns s ln.id).all (fun e => e.2.reportsSent && (!e.2.traceOn || traceDrained s (traceCluster ln) e.1 e.2))

/-- A run that is over ended in error after all where its ring writer stopped (R1086): its context is READY (R292). -/
def runStopped (s : State) (e : Nat × Run) : State :=
  if e.2.traceStop.isSome && e.2.pausing then
    s.setCtx e.1 { s.ctx e.1 with state := .ready, runs := ((s.ctx e.1).runs + 1) % 2 ^ 64 }
  else s

/-- A cluster takes its snapshot at a position with the node tiles as they now stand, and waits for its execution. -/
def Cluster.beginAt (k : Cluster) (pos : Nat) (done begun : Bool) : Cluster :=
  let k : Cluster := { k with pos := pos, step := k.step + natOfBool done, ended := false, begun := begun }
  { k with snap := k.snapshot k.pos k.step }

/-- Where a cluster begins next: its step again while a run or load goes on, else the step after its STEP_END. -/
def Cluster.beginNext (k : Cluster) (again begun : Bool) : Cluster :=
  if again then (if k.holdsLong then k.beginAt (stepStart k.ops k.pos) false begun else k) else k.beginAt (k.pos + 1) true begun

/-- σ of the next execution, and the slip of R900. -/
def nextSigma (ln : Launch) (now : Nat) : Nat × Nat :=
  let planned := ln.sigma + (ln.slots[ln.step]?).getD 0
  (max planned (now + 1), now + 1 - planned)

/-- The counts of a Paced execution that ends (R900, R929). -/
def countPaced (ln : Launch) (s : State) : State :=
  if !ln.lflags.testBit 1 then s else
  let slip := (nextSigma ln s.now).2
  let s := paceCount Pace.executions (fun p k => { p with executions := k }) 0x10 1 s
  if slip = 0 then s else
  paceEvent 0 (paceCount Pace.slipTicks (fun p k => { p with slipTicks := k }) 0x20 slip
    (paceCount Pace.slips (fun p k => { p with slips := k }) 0x18 1 s))

/-- The execution has ended on every cluster: nodes and counts. -/
def closeExecution (ln : Launch) (s : State) : State :=
  let s := countPaced ln (ln.clusterList.foldl (fun s c => s.modCluster c Cluster.absorbForeign) s)
  let sats := (ln.clusterList.map (fun c => (s.cluster c).sat)).sum
  s.modLaunch ln.id (fun l => { l with
    stepsDone := l.stepsDone + 1, execs := mapModify 0 l.execs l.step (· + 1), satCount := sats
    sigma := if l.lflags.testBit 1 then (nextSigma ln s.now).1 else l.sigma, longRan := false })

/-- The executions of a step reach REPEAT (R453). -/
def spent (ln : Launch) (k : Nat) : Bool :=
  match ln.steps[k]? with
  | some e => e.repeatMax ≤ mapGet 0 ln.execs k
  | none => false

/-- The next execution of a launch begins on its clusters. -/
def beginExecution (again : Bool) (ln : Launch) (s : State) : State :=
  let ln := if again then ln else { ln with step := ln.step + 1, longDone := false }
  let paced := ln.lflags.testBit 1
  let s := s.modLaunch ln.id (fun l => { l with
    step := ln.step, longDone := ln.longDone, stepStart := if paced then ln.sigma else s.now })
  ln.clusterList.foldl (fun s c => s.modCluster c (fun k => k.beginNext again (!paced && !ln.barred))) s

/-- What follows an execution: the step again, the next one, or the end of the launch. -/
def afterExecution (again pausing : Bool) (ln : Launch) (s : State) : State :=
  if (ln.group.map (·.skew)).getD false then stopLaunch ln.id 0x402 s
  else if again then (if spent ln ln.step then stopLaunch ln.id 0x203 s else beginExecution true ln s)
  else if pausing then stopLaunch ln.id 2 s
  else if ln.step + 1 < ln.steps.length then beginExecution false ln s
  else stopLaunch ln.id (if ln.satCount = 0 then 0 else 1) s

/-- A launch of a group waits after its only step for its start barrier (R762, R763). -/
def waitsBarrier (ln : Launch) : Bool :=
  match ln.group with
  | some g => !g.barrierDone && ln.steps.length ≤ 1
  | none => false

/-- LAUNCH_WIDE_STEP_END (R443, R1094). -/
def execLaunchWideStepEnd (id : Nat) (s : State) : Host.Outcome State Fault Refusal :=
  match s.launch id with
  | none => .next s
  | some ln =>
    if !(s.on && ln.phase == .running && allEnded s ln && runsDrained s ln && !waitsBarrier ln) then .next s else
    let again := longStep s ln && !ln.longDone
    let ended := overRuns s id
    let s := ended.foldl runStopped s
    let s := closeExecution ln { s with runs := s.runs.filter (fun e => !(e.2.launch = id && e.2.next == .finished)) }
    match s.launch id with
    | some ln =>
      match ended.findSome? (fun e => e.2.traceStop) with
      | some st => .next (stopLaunch id st s)
      | none => .next (afterExecution again (ended.any (fun e => e.2.pausing)) ln s)
    | none => .next s

/-! ## The end of a launch: contexts, clusters, network -/

/-- A run that a launch leaves unfinished ends in error (R292); its collisions count. -/
def endRunOf (id : Nat) (s : State) (e : Nat × Run) : State :=
  if e.2.next == .finished then runStopped s e else if e.2.seedWait then s else
  (failRun e.1 s).modLaunch id (fun l => { l with
    collisions := l.collisions + (e.2.reps.map (fun x => x.collisions.count)).sum
    collOvf := l.collOvf || e.2.reps.any (fun x => x.collisions.ovf) })

/-- The runs of a launch end. -/
def endRuns (id : Nat) (s : State) : State :=
  let mine := s.runs.filter (fun e => e.2.launch = id)
  let s := mine.foldl (endRunOf id) { s with runs := s.runs.filter (fun e => e.2.launch != id) }
  withdraw (fun r => match r.who with
    | .runSeed n => mine.any (fun e => e.1 = n)
    | _ => false) s

/-- A load that its launch leaves unfinished is INTERRUPTED (R278, DEDUCED, log entry 29). -/
def endLoads (id : Nat) (s : State) : State :=
  let mine := s.loads.filter (fun e => e.2.launch = id)
  mine.foldl (fun s e => s.setCtx e.1 ((s.ctx e.1).failed 16 0)) { s with loads := s.loads.filter (fun e => e.2.launch != id) }

/-- A cluster that no launch uses. -/
def Cluster.release (k : Cluster) : Cluster :=
  { k with
    state := if k.state == .running then .idle else k.state
    step := 0, launch := none, ops := [], descs := [], pos := 0, ended := false, begun := true, abandon := none, reruns := 0
    consumed := [], sat := 0, nodeSat := 0, reduced := [], rerun := [], entropyWait := false, snap := {}
    cores := k.cores.map (fun e => (e.1, { e.2 with acks := 0, waiting := [], sent := [], drainSat := 0, stepSat := false })) }

/-- The clusters of a launch are free. -/
def releaseClusters (ln : Launch) (s : State) : State :=
  let s := withdraw (fun r => match r.who with
    | .entropyOp c => (s.cluster c).launch = some ln.id
    | _ => false) s
  ln.clusterList.foldl (fun s c => if (s.cluster c).launch = some ln.id then s.modCluster c Cluster.release else s) s

/-- Nothing of a launch is on its way: no packet in the network, no request at a memory port, no transaction (R679). -/
def trafficGone (s : State) (id : Nat) : Bool :=
  s.net.fifos.all (fun e => e.2.all (fun k => k.typ = 7 || k.launch != id % 65536)) &&
    s.net.arbiters.all (fun e => e.2.sources.all (fun r => r.2.all (fun x => x.pkt.launch != id % 65536))) &&
    s.silk.txns.all (fun t => t.launch != id || t.issuer == .unit)

/-- No preload of the launch is left; route changes and transactions that waited for its transactions go on (R721). -/
def dropTraffic (ln : Launch) (s : State) : State :=
  let s : State := { s with disp := { s.disp with preloads := s.disp.preloads.filter (fun p => p.launch != ln.id) } }
  resumeWaiting (s.silk.routeNext.foldl (fun s e => settleRoute e.1 s) s)

/-- A launch that poison has ended leaves core memory as its completed steps wrote it (R595). -/
def undoSteps (ln : Launch) (s : State) : State :=
  if ln.status = 0x301 || ln.status = 0x302 then
    (ln.clusterList.filter (fun c => (s.cluster c).launch = some ln.id)).foldl undoStep s
  else s

/-- What its engine trace stages still hold of a launch goes nowhere. -/
def dropTrace (ln : Launch) (s : State) : State :=
  ln.clusterList.foldl (fun s c => purgeTrace c (fun t => t.launch = ln.id) s) s

/-- What a launch holds outside its record. -/
def cleanUp (ln : Launch) (s : State) : State :=
  dropTraffic ln (dropTrace ln (releaseClusters ln (endLoads ln.id (endRuns ln.id (undoSteps ln s)))))

/-! ## The result digest (R913, R918 to R924) -/

/-- The fields of a digest record up to RESULT. -/
def digestFields (s : State) (ln : Launch) (outs : List (Nat × Nat × List Byte)) (status : Nat) : List Byte :=
  let d := ln.digest
  let seeds := ln.seeds.map (·.2)
  let flags := natOfBool (ln.lflags.testBit 0) + 2 * natOfBool (ln.lflags.testBit 1) + 4 * ln.header.marks +
    64 * natOfBool ln.pair + 128 * natOfBool d.fwChanged + 256 * natOfBool (mapMarks s (clustersOf ln.header) != ln.mapGens)
  let z := List.replicate 48 0#8
  let coeff := match ln.context with
    | some n => (s.ctx n).coeffRoot ++ List.replicate (48 - (s.ctx n).coeffRoot.length) 0#8
    | none => z
  pack 0x20 [(0x0, 4, 0x47445352), (0x4, 2, 1), (0x6, 2, flags), (0x8, 2, status), (0xC, 4, seeds.length),
    (0x10, 8, d.fwVersion.toNat), (0x18, 8, (ln.group.map (·.tag.toNat)).getD 0)] ++
  pack 64 ((seeds.take 8).zipIdx.map (fun e => (8 * e.2, 8, e.1))) ++
  d.programRoot ++ d.argHash ++ coeff ++ (if d.structHash.isEmpty then z else d.structHash) ++ d.weightRoot ++ d.inputRoot ++
  roleRoot 2 outs ++ sha384 (0x04#8 :: seeds.flatMap (leBytes 8)) ++ d.unitMapHash

/-- The record with its RESULT (R918, R924). -/
def digestRecord (s : State) (ln : Launch) (outs : List (Nat × Nat × List Byte)) (status : Nat) : List Byte :=
  let b := digestFields s ln outs status
  b ++ sha384 (if ln.pair then putAt b 0x1E0 (List.replicate 48 0#8) else b)

/-- The output regions are hashed and the record is made; a pair sends RESULT to its partner (R767). -/
def makeDigest (ln : Launch) (s : State) : State :=
  match roleRegions s ln.asid 2 ln.digest.regions with
  | .error h => haltLaunch ln.id ln.asid 256 h s
  | .ok outs =>
    let r := digestRecord s ln outs ln.status
    let s := touchAll dispUnit ln.asid 0 ((ln.digest.regions.filter (fun r => r.role = 2)).map (fun r => (r.va, r.bytes))) s
    let s := s.modLaunch ln.id (fun l => { l with digestRec := r })
    if ln.pair then comparePair ln.id (sendDigest ln.id lastSeq 0 (r.drop 0x210) s) else s

/-! ## Signal edges (R836 to R839) -/

/-- An add of R836 would carry an object past 2^64 - 1. -/
def signalOverflow (s : State) (ln : Launch) : Bool :=
  ln.signals.any (fun n => 2 ^ 64 ≤ (s.sync n).value.toNat + (ln.signals.filter (· = n)).length)

/-- The signal edges of a launch that completes with a status. -/
def applySignals (ln : Launch) (status : Nat) (s : State) : State :=
  ln.signals.foldl (fun s n =>
    setSync n (if status ≤ 2 then { s.sync n with value := (s.sync n).value + 1 } else { s.sync n with error := true }) s) s

/-! ## The completion entry (R815, R859) -/

/-- The 64 bytes of a completion entry; passes is whether the ring is on an even pass.
DEDUCED, log entry 51: END of a Paced launch in error; the instants at which digests hash. -/
def completionEntry (ln : Launch) (status now retries : Nat) (phase digest : Bool) : List Byte :=
  let paced := ln.lflags.testBit 1 && ln.started && status ≤ 2
  let flags := natOfBool phase + 2 * natOfBool digest + 4 * natOfBool (ln.lflags.testBit 2 && ln.deadline < now) +
    8 * natOfBool ln.started
  pack 64 [(0x0, 2, status), (0x2, 1, flags), (0x4, 4, ln.sqIndex.toNat), (0x8, 8, if ln.started then ln.startAt else 0),
    (0x10, 8, if paced then ln.sigma else now), (0x18, 8, ln.handshakes), (0x20, 4, min ln.recomputes (2 ^ 32 - 1)),
    (0x24, 4, min retries (2 ^ 32 - 1)), (0x28, 4, min ln.satCount (2 ^ 32 - 1)), (0x2C, 4, ln.stepsDone),
    (0x30, 8, min ln.collisions Config.countMax + 2 ^ 63 * natOfBool (ln.collOvf || Config.countMax < ln.collisions)),
    (0x38, 8, if ln.lflags.testBit 5 then ln.digestVa else 0)]

/-- The slot of completion entry C, and the PHASE of its pass. -/
def slotOf (x : Queue) : Nat × Bool := (x.cqVa + 64 * (x.c.toNat % x.cqEntries), x.c.toNat / x.cqEntries % 2 = 0)

/-- MSI-X after a completion entry (R818). -/
def notify (q : Nat) (s : State) : State :=
  let x := s.queue q
  if x.armed && x.vecEn then sendMsix x.vector (s.setQueue q { x with armed := false }) else s

/-- The entry has been written: C moves on, counts (R815, R877). -/
def entryWritten (q status : Nat) (s : State) : State :=
  let s := s.setQueue q { s.queue q with c := (s.queue q).c + 1 }
  let s := dispCount Disp.launchCount (fun d k => { d with launchCount := k }) 0x20 s
  let s := if status = 0x103 then dispCount Disp.refusalCount (fun d k => { d with refusalCount := k }) 0x28 s else s
  notify q s

/-- The packet of an entry on the completion path: a length word in front of its words (R680, R681). -/
def entryPacket (seq : BitVec 16) (bytes : List Byte) : List Word :=
  lengthWord bytes.length seq :: wordsLe bytes

/-- The items of a packet with a length word, as bytes. -/
def packetItems (packet : List Word) : List Byte := (packet.drop 1).flatMap (fun w => leBytes 8 w.toNat)

/-- Completion entry C is committed to the completion path and written; a ring access that faults puts the queue in state 4
(R820). -/
def writeEntry (q asid status : Nat) (bytes : List Byte) (s : State) : State :=
  let packet := entryPacket s.disp.cplSeq bytes
  let s : State := { s with disp := { s.disp with cplSeq := s.disp.cplSeq + 1 } }
  let va := (slotOf (s.queue q)).1
  match writeVa dispUnit s asid va (packetItems packet) with
  | .ok t => entryWritten q status t
  | .error (.access w e) => faultQueue q (noteFault asid 256 w e s)
  | .error _ => faultQueue q s

/-- A completion entry can be written without waiting for a migration. -/
def entryWaits (s : State) (ln : Launch) : Bool :=
  match firstFault s ln.asid (pieces (slotOf (s.queue ln.queue)).1 64) with
  | some .held => true
  | _ => false

/-- The queue of a launch that has left it: disabled once empty (R805), active again when entries wait (R814). -/
def queueAfter (q : Nat) (s : State) : State :=
  let x := s.queue q
  if x.state == .disabling && outstanding s q = 0 then s.setQueue q { x with state := .disabled } else s.setQueue q x.wake

/-- The event bits of a status (R620, R876). -/
def statusEvents (st : Nat) (s : State) : State :=
  if st = 0x301 then memcEvent 2 s else if st = 0x302 then memcEvent 3 s else if st = 0x106 then dispEvent 2 s else s

/-- LINK_RETRIES: which of the retries were on ports the launch used is not tracked (DESIGN CHOICE, log entry 34). -/
def linkRetries (s : State) (ln : Launch) : Nat := freePick s (ln.linkRetries + 1)

/-- The digest is written to DIGEST_VA (R860); the status that the launch then completes with. -/
def writeDigest (ln : Launch) (s : State) : State × Nat × Bool :=
  if !ln.lflags.testBit 5 || 2 < ln.status then (s, ln.status, false) else
  match writeVa dispUnit s ln.asid ln.digestVa ln.digestRec with
  | .ok t => (t, ln.status, true)
  | .error (.access w e) => (noteFault ln.asid 256 w e s, e.status, false)
  | .error _ => (s, 0x300, false)

/-- The last part of a completion: digest, signal edges, entry. -/
def finishLaunch (ln : Launch) (s : State) : State :=
  let d := if ln.status ≤ 2 && signalOverflow s ln then (s, 0x106, false) else writeDigest ln s
  let status := d.2.1
  let retries := linkRetries d.1 ln
  let s := statusEvents status (applySignals ln status (drawn 1 d.1))
  let s := { s with
    disp := { s.disp with launches := s.disp.launches.filter (fun l => l.id != ln.id) }
    mem := { s.mem with badWords := s.mem.badWords.filter (fun b => b.launch != ln.id) } }
  let x := s.queue ln.queue
  let s := if x.ringFault || x.state == .disabled then s else
    writeEntry ln.queue ln.asid status (completionEntry ln status s.now retries (slotOf x).2 d.2.2) s
  sendSummary (queueAfter ln.queue s)

/-! ## LAUNCH_COMPLETE -/

/-- A launch that a failed unit or a reset has ended waits for nothing. -/
def Launch.cut (ln : Launch) : Bool := ln.status = 0x102 || ln.status = 0x600

/-- The operations that the launch has issued have completed (R457) and nothing of it is on its way; its records are in the ring,
its digests compared.
DEDUCED, log entry 57: completion waits for the trace ring; a cut launch waits for its traffic alone. -/
def completionReady (s : State) (ln : Launch) : Bool :=
  (!ln.started || trafficGone s ln.id) && (ln.cut || ((!ln.awaitsDigest || 2 < ln.status) &&
    ln.clusterList.all (fun c => (s.cluster c).launch != some ln.id || streamsIdle s c) &&
    s.runs.all (fun e => e.2.launch != ln.id || !e.2.traceOn || traceDrained s (traceCluster ln) e.1 e.2) &&
    (!ln.lflags.testBit 1 || !ln.started || 2 < ln.status || ln.sigma ≤ s.now)))

/-- A run that a launch leaves unfinished has its run-end records to emit (R342). -/
def Run.owesEnd (r : Run) : Bool :=
  r.traceOn && r.traceStop.isNone && r.next != .finished && !r.seedWait &&
    (!r.endRecs.isEmpty || r.reps.any (fun x => x.gap.isSome))

/-- The runs of a launch that ends in error emit their run-end records. -/
def emitEnds (ln : Launch) (s : State) : State :=
  let mine := s.runs.filter (fun e => e.2.launch = ln.id && e.2.owesEnd)
  mine.foldl (fun s e => feedStage (traceCluster ln) e.1 (s.setRun e.1 { queueGaps e.1 e.2 e.2.endRecs with endRecs := [] })) s

/-- A launch owes run-end records that it can still emit. -/
def owesEnds (s : State) (ln : Launch) : Bool := !ln.cut && s.runs.any (fun e => e.2.launch = ln.id && e.2.owesEnd)

/-- LAUNCH_COMPLETE (R859): of a launch that has ended. Its runs first emit the run-end records that they owe; with a digest, the
next command hashes the outputs. -/
def execLaunchComplete (id : Nat) (s : State) : Host.Outcome State Fault Refusal :=
  match s.launch id with
  | none => .next s
  | some ln =>
    if !(s.on && ln.phase == .ended) then .next s
    else if owesEnds s ln then .next (emitEnds ln s)
    else if !(completionReady s ln && !entryWaits s ln) then .next s
    else if ln.digests && ln.started && ln.status ≤ 2 && ln.digestRec.isEmpty then .next (makeDigest ln s)
    else
      let s := cleanUp ln s
      match s.launch id with
      | some l => .next (finishLaunch l s)
      | none => .next s

end Sys2Proof.Machine
end

