-- ==== Sys2Proof/Machine/Drbg.lean ====
section
/-! DEFINITION. The conditioner of R988 and the CTR_DRBG of R992: AES-256 of FIPS 197 and the derivation function of NIST
SP 800-90A, which stand outside the spec; so do the orders of bits between them and the device's words (PRESUMED, log entry 13). -/

namespace Sys2Proof.Machine

/-! ## AES-256 -/

/-- Multiplication by x in the field of AES. -/
def gfDouble (a : BitVec 8) : BitVec 8 := if a.msb then (a <<< 1) ^^^ 0x1B#8 else a <<< 1

/-- a * b over the low n bits of b. -/
def gfMulBits (a b : BitVec 8) : Nat → BitVec 8
  | 0 => 0
  | n + 1 => gfDouble (gfMulBits a b n) ^^^ (if b.getMsbD n then a else 0)

def gfMul (a b : BitVec 8) : BitVec 8 := gfMulBits a b 8

/-- a^254, the inverse of a. -/
def gfInv (a : BitVec 8) : BitVec 8 :=
  let a2 := gfMul a a
  let a4 := gfMul a2 a2
  let a8 := gfMul a4 a4
  let a16 := gfMul a8 a8
  let a32 := gfMul a16 a16
  let a64 := gfMul a32 a32
  gfMul (gfMul (gfMul a2 a4) (gfMul a8 a16)) (gfMul (gfMul a32 a64) (gfMul a64 a64))

def aesSub (a : BitVec 8) : BitVec 8 :=
  let i := gfInv a
  i ^^^ i.rotateLeft 1 ^^^ i.rotateLeft 2 ^^^ i.rotateLeft 3 ^^^ i.rotateLeft 4 ^^^ 0x63#8

def xorBytes (a b : List Byte) : List Byte := a.zipWith (· ^^^ ·) b

/-- The key schedule: n more words of four bytes, newest first, from word number i on. -/
def aesExpand : Nat → Nat → BitVec 8 → List (List Byte) → List (List Byte)
  | 0, _, _, ws => ws
  | n + 1, i, rc, ws =>
    let t := ws.headD []
    let t := if i % 8 = 0 then
        (match (t.drop 1 ++ t.take 1).map aesSub with
          | b :: bs => (b ^^^ rc) :: bs
          | [] => [])
      else if i % 8 = 4 then t.map aesSub else t
    aesExpand n (i + 1) (if i % 8 = 0 then gfDouble rc else rc) (xorBytes (ws[7]?.getD []) t :: ws)

/-- The fifteen round keys of a 32-byte key. -/
def aesKeys (key : List Byte) : List (List Byte) :=
  (chunks 4 (aesExpand 52 8 0x01#8 (chunks 4 key).reverse).reverse).map List.flatten

/-- ShiftRows on a state held column by column. -/
def aesShift (st : List Byte) : List Byte :=
  (List.range 16).map (fun i => (st[(i + 4 * (i % 4)) % 16]?).getD 0)

/-- MixColumns. -/
def aesMix (st : List Byte) : List Byte :=
  (chunks 4 st).flatMap (fun c =>
    (List.range 4).map (fun i =>
      let b := fun j => c.getD ((i + j) % 4) 0
      gfDouble (b 0) ^^^ gfDouble (b 1) ^^^ b 1 ^^^ b 2 ^^^ b 3))

def aesRounds : List (List Byte) → List Byte → List Byte
  | [], st => st
  | [k], st => xorBytes (aesShift (st.map aesSub)) k
  | k :: ks, st => aesRounds ks (xorBytes (aesMix (aesShift (st.map aesSub))) k)

/-- AES-256 of a 16-byte block under a 32-byte key. -/
def aes256 (key block : List Byte) : List Byte :=
  match aesKeys key with
  | k :: ks => aesRounds ks (xorBytes block k)
  | [] => block

/-! ## CTR_DRBG with the derivation function (R992) -/

def keyBytes (d : Drbg) : List Byte := beBytes 32 d.key.toNat

/-- The next counter block, and the generator with its counter advanced. -/
def drbgBlock (d : Drbg) : List Byte × Drbg :=
  (aes256 (keyBytes d) (beBytes 16 (d.v + 1).toNat), { d with v := d.v + 1 })

/-- n counter blocks. -/
def drbgBlocks : Nat → Drbg → List Byte × Drbg
  | 0, d => ([], d)
  | n + 1, d =>
    let b := drbgBlock d
    let r := drbgBlocks n b.2
    (b.1 ++ r.1, r.2)

/-- CTR_DRBG_Update with 48 bytes of provided data. -/
def drbgUpdate (d : Drbg) (data : List Byte) : Drbg :=
  let t := xorBytes (drbgBlocks 3 d).1 data
  { key := BitVec.ofNat 256 (beNat (t.take 32)), v := BitVec.ofNat 128 (beNat (t.drop 32)) }

/-- BCC of the derivation function. -/
def dfBcc (key data : List Byte) : List Byte :=
  (chunks 16 data).foldl (fun c b => aes256 key (xorBytes c b)) (List.replicate 16 0#8)

/-- The derivation function to 48 bytes. -/
def drbgDerive (input : List Byte) : List Byte :=
  let m := beBytes 4 input.length ++ beBytes 4 48 ++ input ++ [0x80#8]
  let m := m ++ List.replicate ((16 - m.length % 16) % 16) 0#8
  let key := (List.range 32).map (BitVec.ofNat 8)
  let t := (List.range 3).flatMap (fun i => dfBcc key (beBytes 4 i ++ List.replicate 12 0#8 ++ m))
  let k := t.take 32
  let x1 := aes256 k (t.drop 32)
  let x2 := aes256 k x1
  x1 ++ x2 ++ aes256 k x2

/-- Instantiation with entropy input, nonce and personalization string (R993). -/
def drbgInstantiate (entropy nonce personal : List Byte) : Drbg :=
  drbgUpdate { key := 0, v := 0 } (drbgDerive (entropy ++ nonce ++ personal))

/-- Reseeding without additional input (R995). -/
def drbgReseed (d : Drbg) (entropy : List Byte) : Drbg := drbgUpdate d (drbgDerive entropy)

/-- n bytes of the generate function without additional input, and the generator after it. -/
def drbgGenerate (d : Drbg) (n : Nat) : List Byte × Drbg :=
  let r := drbgBlocks (ceilDiv n 16) d
  (r.1.take n, drbgUpdate r.2 (List.replicate 48 0#8))

/-- The byte string of a conditioned block, bit 255 first. -/
def blockBytes (b : BitVec 256) : List Byte := beBytes 32 b.toNat

/-! ## The conditioner (R988) -/

/-- One raw bit is absorbed. -/
def absorbBit (S : BitVec 256) (x : Bool) : BitVec 256 :=
  let b := S.getLsbD
  let f := b 255 ^^ b 202 ^^ b 127 ^^ b 40 ^^ (b 211 && b 84) ^^ (b 169 && b 22) ^^ x
  (S <<< 1) ||| (if f then 1 else 0)

/-- The raw word of one sample is absorbed, pair 0 first. -/
def absorb (S : BitVec 256) (raw : BitVec 32) : BitVec 256 :=
  (List.range 32).foldl (fun S j => absorbBit S (raw.getLsbD j)) S

end Sys2Proof.Machine
end

