-- ==== Sys2Proof/Machine/Entropy.lean ====
section
/-! DEFINITION. The entropy source (file 13, R978 to R1003): samples, health windows, the pool, the DRBG and the delivery of
generate requests. -/

namespace Sys2Proof.Machine

/-! ## Samples (R979, R980, R988, R989) -/

/-- D_j of a sample, as an i16. -/
def pairDelta (counts : List Nat) (j : Nat) : Int :=
  sext 16 (wrap 16 (((counts[2 * j]?).getD 0 : Int) - ((counts[2 * j + 1]?).getD 0 : Nat)))

/-- The 32 values of a sample. -/
def deltas (counts : List Nat) : List Int := (List.range 32).map (pairDelta counts)

/-- The raw word of a sample. -/
def rawWord (ds : List Int) : BitVec 32 :=
  BitVec.ofNat 32 ((List.range 32).foldl (fun w j => setBit w j (wrap 16 ((ds[j]?).getD 0) % 2 = 1)) 0)

/-- Lists of n numbers added place by place. -/
def addNats (n : Nat) (a b : List Nat) : List Nat := (List.range n).map (fun i => (a[i]?).getD 0 + (b[i]?).getD 0)
def addInts (n : Nat) (a b : List Int) : List Int := (List.range n).map (fun i => (a[i]?).getD 0 + (b[i]?).getD 0)

/-- The sums of a window with one more sample. -/
def Window.add (w : Window) (counts : List Nat) : Window :=
  let ds := deltas counts
  { samples := w.samples + 1, cycles := addNats 64 w.cycles counts, sumD := addInts 32 w.sumD ds
    sumD2 := addNats 32 w.sumD2 (ds.map (fun d => (d * d).toNat)) }

/-- A sample is taken; after every 64th the conditioner yields a block. -/
def Ent.sample (e : Ent) (counts : List Nat) : Ent :=
  let cond := absorb e.cond (rawWord (deltas counts))
  let acc := e.acc.add counts
  { e with cond := cond, acc := acc, blocks := if acc.samples % 64 = 0 then e.blocks ++ [cond] else e.blocks }

/-- The tick at which the interval of the next sample has ended (R979, R981). -/
def Ent.sampleAt (e : Ent) : Nat := 65536 * e.window + 64 * (e.acc.samples + 1)

/-- ENTROPY_SAMPLE: counts are the cycles of each oscillator in the interval. -/
def execEntropySample (counts : List Nat) (s : State) : Host.Outcome State Fault Refusal :=
  needs (s.on && s.ent.acc.samples < 1024 && s.ent.sampleAt ≤ s.pace.timeBase) { s with ent := s.ent.sample counts } s

/-! ## Health windows (R983 to R987, R990, R991, R993) -/

/-- Q_j of the sums of a window. -/
def Window.spread (w : Window) (j : Nat) : Nat :=
  (1024 * ((w.sumD2[j]?).getD 0 : Int) - (w.sumD[j]?).getD 0 * (w.sumD[j]?).getD 0).toNat

/-- The lowest oscillator that fails alive. -/
def Window.deadOsc (w : Window) : Option Nat :=
  (List.range 64).find? (fun i => !(16384 ≤ (w.cycles[i]?).getD 0 && (w.cycles[i]?).getD 0 ≤ 131072))

/-- The lowest pair that fails unlocked. -/
def Window.lockedPair (w : Window) : Option Nat := (List.range 32).find? (fun j => w.spread j < 262144)

/-- The failing test and unit of a window. -/
def Window.failure (w : Window) : Option (Nat × Nat) :=
  match w.deadOsc, w.lockedPair with
  | some i, _ => some (1, i)
  | none, some j => some (2, j)
  | none, none => none

/-- The last four released blocks, oldest first. -/
def poolWith (pool new : List (BitVec 256)) : List (BitVec 256) := (pool ++ new).drop ((pool ++ new).length - 4)

/-- The window's results enter ENT_OSC and ENT_PAIR, and the next window begins. -/
def Ent.nextWindow (e : Ent) : Ent :=
  { e with osc := e.acc.cycles, pair := (List.range 32).map e.acc.spread, window := e.window + 1, acc := {}, blocks := [] }

/-- The DRBG is instantiated from the two most recent blocks (R993, PRESUMED, log entry 13). -/
def Ent.instantiate (e : Ent) (serial : BitVec 64) : Ent :=
  let bs := (e.pool.drop (e.pool.length - 2)).flatMap blockBytes
  { e with state := .ready, events := raise e.events 0, since := 0, pool := e.pool.take (e.pool.length - 2)
           drbg := some (drbgInstantiate (bs.take 48) (bs.drop 48) (leBytes 8 serial.toNat)) }

/-- A window has passed. -/
def passWindow (s : State) : State :=
  let s := entCount Ent.windows (fun e k => { e with windows := k }) 0x18 s
  let e := { s.ent with pool := poolWith s.ent.pool s.ent.blocks, reseedWait := false }
  { s with ent := if e.state == .notReady && e.window = 1 then (e.instantiate s.fuses.serial).nextWindow else e.nextWindow }

/-- A request completes without bits. -/
def failRequest (st : Nat) (s : State) (r : GenReq) : State :=
  match r.who with
  | .runSeed n => match s.run n with
    | some x => stopLaunch x.launch st s
    | none => s
  | .entropyOp c => match s.runningOn c with
    | some ln => stopLaunch ln.id st s
    | none => s
  | .management => s

/-- The first window that fails puts the source in FAULT, and every request not yet delivered with it (R985, R1002). -/
def enterFault (test unit : Nat) (s : State) : State :=
  let rs := s.ent.queue ++ s.ent.waiting
  let e := s.ent
  let s := { s with ent := { e with
    state := .fault, test := test, unit := unit, startup := e.window < 2, events := raise e.events 1, drbg := none
    queue := [], waiting := [], reseedWait := false } }
  rs.foldl (failRequest 0x501) s

/-- HEALTH_WINDOW_END. -/
def windowEnd (s : State) : State :=
  match s.ent.acc.failure with
  | none => passWindow s
  | some (t, u) =>
    let s := if s.ent.state == .fault then s else enterFault t u s
    { s with ent := s.ent.nextWindow }

def execHealthWindowEnd (s : State) : Host.Outcome State Fault Refusal :=
  needs (s.on && s.ent.acc.samples = 1024) (windowEnd s) s

/-! ## Generate requests (R994 to R1000) -/

/-- GENERATE_REQUEST: a request of the management processor; those of the dispatcher are made by ANNEAL and ENTROPY. -/
def execGenerateRequest (requester bits : Nat) (s : State) : Host.Outcome State Fault Refusal :=
  needs (s.on && requester = 1 && 1 ≤ bits && bits ≤ 512 && queuedBy true (s.ent.queue ++ s.ent.waiting) < 32)
    (match askEntropy { who := .management, bits := bits } s with
      | .ok t => t
      | .error _ => s) s

/-- A run that waits for its seed starts with it: the bits go into the descriptor, then into the run (R297). -/
def seededRun (n : Nat) (r : Run) (bs : List Byte) (s : State) : Except Halt State := do
  let t ← writeVa r.cluster s r.asid r.descVa bs
  beginRun n { r with seed := leNat bs } t

/-- A run waits for its seed. -/
def wantsSeed (s : State) (r : Run) : Bool := r.seedWait && (s.launch r.launch).map (·.phase) == some .running

def deliverSeed (n : Nat) (bs : List Byte) (s : State) : State :=
  match s.run n with
  | none => s
  | some r =>
    if !wantsSeed s r then s else
    match seededRun n r bs s with
    | .error h => haltLaunch r.launch r.asid r.cluster h s
    | .ok t => t

/-- A page that the delivery needs is held by a migration. -/
def deliveryWaits (s : State) (who : Requester) : Bool :=
  match who with
  | .runSeed n => match s.run n with
    | some r => wantsSeed s r && (match seededRun n r (List.replicate 8 0#8) s with
      | .error h => h.waits
      | .ok _ => false)
    | none => false
  | _ => false

/-- Bits reach the requester of a request. -/
def deliver (who : Requester) (bs : List Byte) (s : State) : State :=
  match who with
  | .runSeed n => deliverSeed n bs s
  | .entropyOp c => deliverOp c bs s
  | .management => s

/-- The DRBG is reseeded from the two oldest blocks of the pool (R995). -/
def reseed (d : Drbg) (s : State) : State :=
  let bs := (s.ent.pool.take 2).flatMap blockBytes
  let s := entCount Ent.reseeds (fun e k => { e with reseeds := k }) 0x10 s
  { s with ent := { s.ent with drbg := some (drbgReseed d (bs.take 48)), pool := s.ent.pool.drop 2, since := 0 } }

/-- A request of b bits is served by the DRBG. -/
def serveRequest (r : GenReq) (d : Drbg) (s : State) : State :=
  let g := drbgGenerate d (ceilDiv r.bits 8)
  let s := entCount Ent.requests (fun e k => { e with requests := k }) 0x08 s
  let s := placeRequests { s with ent := { s.ent with drbg := some g.2, since := s.ent.since + 1, queue := s.ent.queue.drop 1 } }
  deliver r.who g.1 s

/-- The request at the head of the queue is served, after a reseed if one is due; where the pool is too small it waits
(R996). -/
def generate (r : GenReq) (d : Drbg) (s : State) : State :=
  if s.ent.since < 2 ^ 20 then serveRequest r d s
  else if s.ent.pool.length < 2 then
    if s.ent.reseedWait then s else entEvent 2 { s with ent := { s.ent with reseedWait := true } }
  else
    let s := reseed d s
    serveRequest r (s.ent.drbg.getD d) s

/-- GENERATE_DELIVER. -/
def execGenerateDeliver (s : State) : Host.Outcome State Fault Refusal :=
  match s.ent.queue, s.ent.drbg with
  | r :: _, some d => needs (s.on && s.ent.state == .ready && !deliveryWaits s r.who) (generate r d s) s
  | _, _ => .next s

end Sys2Proof.Machine
end

