-- ==== Sys2Proof/Machine/Ecdsa.lean ====
section
/-! DEFINITION. ECDSA over brainpoolP384r1 with SHA-384, and its deterministic nonce (R1007, R1009, R1010). The curve of
RFC 5639, FIPS 186-5 and RFC 6979 stand outside the spec (PRESUMED, log entry 13). -/

namespace Sys2Proof.Machine

/-! ## The curve -/

def curveP : Nat := 0x8CB91E82A3386D280F5D6F7E50E641DF152F7109ED5456B412B1DA197FB71123ACD3A729901D1A71874700133107EC53
def curveA : Nat := 0x7BC382C63D8C150C3C72080ACE05AFA0C2BEA28E4FB22787139165EFBA91F90F8AA5814A503AD4EB04A8C7DD22CE2826
def curveB : Nat := 0x04A8C7DD22CE28268B39B55416F0447C2FB77DE107DCD2A62E880EA53EEB62D57CB4390295DBC9943AB78696FA504C11
def curveGx : Nat := 0x1D1C64F068CF45FFA2A63A81B7C13F6B8847A3E77EF14FE3DB7FCAFE0CBD10E8E826E03436D646AAEF87B2E247D4AF1E
def curveGy : Nat := 0x8ABE1D7520F9C2A45CB1EB8E95CFD55262B70B29FEEC5864E19C054FF99129280E4646217791811142820341263C5315
def curveN : Nat := 0x8CB91E82A3386D280F5D6F7E50E641DF152F7109ED5456B31F166E6CAC0425A7CF3AB6AF6B7FC3103B883202E9046565

/-- b^e mod m, over n bits of e from the top. -/
def powMod (m b e : Nat) : Nat → Nat
  | 0 => 1
  | n + 1 =>
    let r := powMod m b (e / 2) n
    if e % 2 = 1 then r * r % m * b % m else r * r % m

/-- The inverse modulo a prime. -/
def invMod (m x : Nat) : Nat := powMod m (x % m) (m - 2) 384

/-- A point of the curve; none is the point at infinity. -/
abbrev Point := Option (Nat × Nat)

def curveSub (a b : Nat) : Nat := (a + curveP - b % curveP) % curveP

def curveAdd : Point → Point → Point
  | none, q => q
  | p, none => p
  | some (x1, y1), some (x2, y2) =>
    if x1 = x2 ∧ (y1 + y2) % curveP = 0 then none
    else
      let l := if x1 = x2 then (3 * x1 * x1 + curveA) % curveP * invMod curveP (2 * y1) % curveP
        else curveSub y2 y1 * invMod curveP (curveSub x2 x1) % curveP
      let x3 := curveSub (curveSub (l * l % curveP) x1) x2
      some (x3, curveSub (l * curveSub x1 x3 % curveP) y1)

/-- k * P over the low n bits of k, from the top. -/
def curveMulBits (p : Point) (k : Nat) : Nat → Point
  | 0 => none
  | n + 1 =>
    let r := curveMulBits p (k / 2) n
    let d := curveAdd r r
    if k % 2 = 1 then curveAdd d p else d

def curveMul (k : Nat) (p : Point) : Point := curveMulBits p k 384

def curveG : Point := some (curveGx, curveGy)

def onCurve (x y : Nat) : Bool :=
  x < curveP && y < curveP && y * y % curveP == (x * x % curveP * x + curveA * x + curveB) % curveP

/-! ## Keys and signatures -/

/-- The identity private key (R1007). -/
def identityKey (seed : BitVec 384) : Nat := seed.toNat % (curveN - 1) + 1

/-- The 97 bytes of a point (R1010). -/
def pointBytes (x y : Nat) : List Byte := 0x04#8 :: beBytes 48 x ++ beBytes 48 y

/-- The next candidates of RFC 6979, section 3.2, from K and V. -/
def rfcCandidates : Nat → List Byte → List Byte → List Nat
  | 0, _, _ => []
  | n + 1, key, v =>
    let v := hmac384 key v
    let key' := hmac384 key (v ++ [0x00#8])
    beNat v :: rfcCandidates n key' (hmac384 key' v)

/-- The nonce candidates of RFC 6979 for key d and hash h; the order has 384 bits. -/
def rfcNonces (d : Nat) (h : List Byte) : List Nat :=
  let x := beBytes 48 d ++ beBytes 48 (beNat h % curveN)
  let v := List.replicate 48 0x01#8
  let key := hmac384 (List.replicate 48 0x00#8) (v ++ 0x00#8 :: x)
  let v := hmac384 key v
  let key := hmac384 key (v ++ 0x01#8 :: x)
  rfcCandidates 16 key (hmac384 key v)

/-- The signature with a nonce; none where the nonce may not be used. -/
def signWith (d : Nat) (h : List Byte) (k : Nat) : Option (Nat × Nat) :=
  if k = 0 ∨ curveN ≤ k then none else
  match curveMul k curveG with
  | none => none
  | some (x, _) =>
    let r := x % curveN
    let s := invMod curveN k * ((beNat h + r * d) % curveN) % curveN
    if r = 0 ∨ s = 0 then none else some (r, s)

/-- r || s of a message under a private key (R1009, R1010). -/
def ecdsaSign (d : Nat) (m : List Byte) : List Byte :=
  let h := sha384 m
  match (rfcNonces d h).findSome? (signWith d h) with
  | some (r, s) => beBytes 48 r ++ beBytes 48 s
  | none => List.replicate 96 0#8

/-- A signature verifies under a public key of 97 bytes (R1009, R1010). -/
def ecdsaVerify (key m sig : List Byte) : Bool :=
  let x := beNat ((key.drop 1).take 48)
  let y := beNat ((key.drop 49).take 48)
  let r := beNat (sig.take 48)
  let s := beNat ((sig.drop 48).take 48)
  if key.length ≠ 97 ∨ key.headD 0 ≠ 0x04#8 ∨ sig.length ≠ 96 ∨ !onCurve x y ∨ r = 0 ∨ curveN ≤ r ∨ s = 0 ∨ curveN ≤ s then false
  else
    let w := invMod curveN s
    match curveAdd (curveMul (beNat (sha384 m) * w % curveN) curveG) (curveMul (r * w % curveN) (some (x, y))) with
    | some (px, _) => px % curveN == r
    | none => false

end Sys2Proof.Machine
end

