-- ==== Sys2Proof/Machine/Restart.lean ====
section
/-! DEFINITION. What resets do to memory, contexts, launches and clusters (file 12, R965, R966; file 03, R278, R1087; file 05,
R420; file 07, R581). -/

namespace Sys2Proof.Machine

/-! ## Memory as poison (R581) -/

/-- Words of core or stacked memory from lo to hi - 1 are poison with data of zero. -/
def Mem.poisonRange (m : Mem) (lo hi : Nat) : Mem :=
  { m with bytes := cellClear m.bytes lo hi, check := cellClear m.check (lo / 8) (hi / 8) }

/-- Core and stacked memory as poison. -/
def Mem.poisonDies (m : Mem) : Mem :=
  (m.poisonRange 0 Config.stackedSize).poisonRange Config.coreBase (Config.coreBase + Config.coreRegion)

/-- The core memories of a cluster as poison. -/
def Mem.poisonCluster (m : Mem) (c : Nat) : Mem :=
  m.poisonRange (Config.coreBase + c * 64 * Config.coreSize) (Config.coreBase + (c + 1) * 64 * Config.coreSize)

/-! ## Contexts after a reset (R420) -/

/-- Bytes at virtual addresses; a page that a migration holds is read where it lies (R612). -/
def readHeld (s : State) (asid va n : Nat) : Option (List Tagged) :=
  (pieces va n).foldr (fun p acc =>
    match walk s asid p.1 false, acc with
    | .ok l, some ts =>
      match leafRead s l p.1 p.2 with
      | .ok us => some (us ++ ts)
      | .error _ => none
    | _, _ => none) (some [])

/-- SEQ of the slot at an offset of a run-state area, none where the slot is not valid or cannot be read. -/
def slotOfArea (s : State) (r : Run) (off : Nat) : Option Nat :=
  match readHeld s r.asid (r.area.va + off) 0x180 with
  | some ts => if anyPoison ts then none else slotSeq (plain ts)
  | none => none

/-- The address of the valid slot with the higher SEQ, zero where neither is valid. -/
def newestSlot (s : State) (r : Run) : Nat :=
  match slotOfArea s r r.area.ckpt0, slotOfArea s r r.area.ckpt1 with
  | some a, some b => r.area.va + (if a < b then r.area.ckpt1 else r.area.ckpt0)
  | some _, none => r.area.va + r.area.ckpt0
  | none, some _ => r.area.va + r.area.ckpt1
  | none, none => 0

/-- CHECKPOINT_VA of an interrupted run's context. -/
def recoverCkpt (s : State) (e : Nat × Run) : State :=
  if (s.ctx e.1).state = .running then s.setCtx e.1 { s.ctx e.1 with checkpointVa := newestSlot s e.2 } else s

/-- The runs of a launch have their CHECKPOINT_VA set. -/
def recoverRuns (id : Nat) (s : State) : State := (s.runs.filter (fun e => e.2.launch = id)).foldl recoverCkpt s

/-! ## Cluster reset (R965) -/

/-- A launch uses a cluster: it has been decided to start on it and has not ended. -/
def Launch.uses (ln : Launch) (c : Nat) : Bool := (ln.phase == .running || ln.phase == .armed) && ln.header.has c

/-- Step 1. -/
def abortUsers (c : Nat) (s : State) : State :=
  (s.disp.launches.filter (fun l => l.uses c)).foldl (fun s l => stopLaunch l.id 0x600 (recoverRuns l.id s)) s

/-- A FIFO or router port of a cluster. -/
def clusterFifo (c n : Nat) : Bool :=
  n / 996 = c || ownPort c n ||
    [nodePort c, xbarPort c, ctlPort c].any (fun f => f 0 ≤ n && n ≤ f 2)

/-- Packets, transactions and requests of a cluster are gone. -/
def flushCluster (c : Nat) (s : State) : State :=
  let s := withdraw (fun r => r.who == .entropyOp c) s
  { s with
    net := { s.net with fifos := s.net.fifos.filter (fun e => !clusterFifo c e.1) }
    silk := { s.silk with txns := s.silk.txns.filter (fun t => match t.issuer with
      | .stream d _ => d != c
      | _ => true) } }

/-- The cluster as its controller restarts it: the map registers stay, all else is as after a reset. An order to hand over
that had been received is carried out (R964). -/
def Cluster.restart (k : Cluster) : Cluster :=
  { state := .out, mapGen := k.mapGen, fenced := k.fenced, spares := k.spares, live := k.live, map := k.map
    orders := k.orders.filter (· != .handover), newFw := k.newFw || k.orders.contains .handover
    follower := k.follower, poisonList := k.poisonList }

/-- The dispatcher receives the order (step 1): it ends the launches that use the cluster and passes the order on to the cluster's
controller. -/
def passReset (c : Nat) (reply : Option Reply) (s : State) : State :=
  let s := abortUsers c s
  pushPort (hubPort 0 0) [{ typ := 7, vc := 0, flits := 2, last := true, destUnit := .controller, destCluster := c, srcUnit := .hub
                            payload := .order (.reset c reply) }] s

/-- The controller receives the order (step 2) and reports that it has restarted. SANITISED is cleared (R969).
DEDUCED, log entry 44: a cluster reset clears SANITISED, a fence does not.
DEDUCED, log entry 61: state of a cluster during its reset test. -/
def restartCluster (c : Nat) (reply : Option Reply) (s : State) : State :=
  let s := flushCluster c (abortUsers c s)
  let ordered := (s.cluster c).orders.contains .handover
  let s := s.modCluster c Cluster.restart
  let s := { s with mem := s.mem.poisonCluster c, mgmt := { s.mgmt with sanitised := false } }
  sendResult c (.restarted c (s.cluster c).newFw reply) (if ordered then markChanged s else s)

/-! ## Contexts of a device that keeps its context table (R278, R420, R1087) -/

/-- R1087, then R278, then R420 for one listed entry.
DEDUCED, log entry 38: a run that a reset ends counts in RUNS. -/
def restartCtx (s : State) (n : Nat) : State :=
  if ctxPoisoned s n then
    logRecord { kind := 1, source := hubSource 1, wher := BitVec.ofNat 64 (ctxAddr n) } (s.setCtx n {})
  else if (s.ctx n).state = .loading then s.setCtx n ((s.ctx n).failed 16 0)
  else match s.run n with
    | some r => failRun n (recoverCkpt s (n, r))
    | none => failRun n s

/-- The restarted dispatcher reads the whole table, with nothing in its cache; an entry that is FREE and no poison stays as it is. -/
def restartContexts (s : State) : State :=
  (if ctxDead s then List.range Config.contexts ++ (s.ctxs.map (·.1)).filter (Config.contexts ≤ ·)
    else (s.ctxPoison.map (· / 4)).foldl setInsert (s.ctxs.map (·.1))).foldl restartCtx { s with ctxCache := [] }

end Sys2Proof.Machine
end

