-- ==== Sys2Proof/Machine/Migrate.lean ====
section
/-! DEFINITION. Frame pools, tier migration, drains, the retirement of GDDR7 channels and CXL devices (file 07, R525, R547 to
R562, R603 to R612). -/

namespace Sys2Proof.Machine

/-! ## Tiers and frames (R607) -/

/-- Bytes [a, a + n) lie in the region of a tier (0 stacked, 1 GDDR7, 2 CXL), in no hole and in no area of R524. -/
def tierRange (s : State) (t a n : Nat) : Bool :=
  let whole := fun (base size step : Nat) => base ≤ a && a + n ≤ base + size &&
    (List.range ((a + n - 1 - base) / step + 1 - (a - base) / step)).all (fun i =>
      placeOf s (max a (base + ((a - base) / step + i) * step)) != .hole)
  0 < n && !reservedArea a n &&
    (if t = 0 then a + n ≤ Config.stackedSize
     else if t = 1 then whole Config.gddrBase Config.gddrSize (2 ^ 30)
     else t = 2 && whole Config.cxlBase Config.cxlSize (2 ^ 28))

/-- The tier of an address. -/
def tierOf (a : Nat) : Nat := if a < Config.stackedSize then 0 else if Config.cxlBase ≤ a then 2 else 1

def State.pool (s : State) (t : Nat) : Pool := mapGet {} s.memc.pools t
def State.setPool (s : State) (t : Nat) (p : Pool) : State := { s with memc := { s.memc with pools := mapSet s.memc.pools t p } }

/-- Two ranges of bytes meet. -/
def meets (a n b m : Nat) : Bool := a < b + m && b < a + n

def Pool.freeBytes (p : Pool) : Nat := (p.frames.map (·.2)).sum

/-- The free frames without the bytes [a, a + n). -/
def cutFrames (a n : Nat) (fs : List (Nat × Nat)) : List (Nat × Nat) :=
  fs.flatMap (fun f => if !meets a n f.1 f.2 then [f] else
    (if f.1 < a then [(f.1, a - f.1)] else []) ++ (if a + n < f.1 + f.2 then [(a + n, f.1 + f.2 - (a + n))] else []))

/-- Free frames in rising order with one more. -/
def putFrame (a n : Nat) (fs : List (Nat × Nat)) : List (Nat × Nat) :=
  fs.filter (fun f => f.1 < a) ++ (a, n) :: fs.filter (fun f => !(f.1 < a))

/-- Frames of n bytes, aligned to n, that may be taken: none in a draining range or a hole. -/
def freeFrames (s : State) (t n : Nat) : List Nat :=
  ((s.pool t).frames.flatMap (fun f =>
    (List.range ((f.1 + f.2) / n - ceilDiv f.1 n)).map (fun i => (ceilDiv f.1 n + i) * n))).filter (fun a =>
      tierRange s t a n && !s.memc.drains.any (fun d => meets a n d.lo (d.hi - d.lo)))

/-- A frame of a tier is taken; which of the free ones is a free value (DESIGN CHOICE, log entry 40). -/
def takeFrame (s : State) (t n : Nat) : Option (Nat × State) :=
  let fs := freeFrames s t n
  match fs[freePick s (max fs.length 1)]? with
  | some a => some (a, drawn 1 (s.setPool t { s.pool t with frames := cutFrames a n (s.pool t).frames }))
  | none => none

/-- A frame goes into the pool of its tier. -/
def returnFrame (a n : Nat) (s : State) : State :=
  s.setPool (tierOf a) { s.pool (tierOf a) with frames := putFrame a n (s.pool (tierOf a)).frames }

/-! ## Policies (R605) -/

def policyOf (b : List Byte) : Policy :=
  { enable := bit (fieldAt b 0 1) 0, tiers := BitVec.ofNat 3 (fieldAt b 1 1), minResidenceUs := fieldAt b 4 4
    stackedCap := fieldAt b 8 8, gddrCap := fieldAt b 0x10 8, rate := fieldAt b 0x18 8
    promote := fieldAt b 0x20 4, demote := fieldAt b 0x24 4 }

def Policy.bytes (p : Policy) : List Byte :=
  pack 64 [(0x0, 1, natOfBool p.enable), (0x1, 1, p.tiers.toNat), (0x4, 4, p.minResidenceUs), (0x8, 8, p.stackedCap),
    (0x10, 8, p.gddrCap), (0x18, 8, p.rate), (0x20, 4, p.promote), (0x24, 4, p.demote)]

def State.policy (s : State) (asid : Nat) : Policy := mapGet {} s.memc.policies asid

/-- Heat of a page in the last period that the management processor has received (R603, R604). -/
def pageHeat (s : State) (asid va n : Nat) : Nat :=
  ((s.mgmt.heat.filter (fun e => e.2.asid = asid && meets (e.2.page * 65536) 65536 va n)).map (·.2.count)).sum

/-- Bytes of an address space that migration has placed in a tier: stacked first, GDDR7 second. -/
def placedIn (s : State) (asid t : Nat) : Nat :=
  let p := mapGet (0, 0) s.memc.placed asid
  if t = 0 then p.1 else p.2

/-- Bytes of an address space that migrations in progress move. -/
def inFlight (s : State) (asid : Nat) (p : Migration → Bool) : Nat :=
  ((s.memc.moves.filter (fun m => m.asid = asid && p m)).map (·.bytes)).sum

/-- The bounds of R605 on the firmware's choice of a page. -/
def withinPolicy (s : State) (asid : Nat) (l : Leaf) (page to' : Nat) : Bool :=
  let p := s.policy asid
  let old := tierOf l.addr
  let heat := pageHeat s asid page l.bytes
  (to' = 2 || placedIn s asid to' + inFlight s asid (fun m => m.newTier = to') + l.bytes ≤ (if to' = 0 then p.stackedCap else p.gddrCap)) &&
  mapGet 0 s.memc.moved asid + inFlight s asid (fun _ => true) + l.bytes ≤ p.rate &&
  s.memc.residence.all (fun r => !(r.1 = asid && r.2.1 = page) || r.2.2 + 1000 * p.minResidenceUs ≤ s.now) &&
  (old ≤ to' || p.promote ≤ heat) && (to' ≤ old || heat ≤ p.demote)

/-- R606. -/
def eligible (s : State) (asid : Nat) (l : Leaf) (to' : Nat) : Bool :=
  let p := s.policy asid
  p.enable && l.target = 0 && !l.pin && !l.mig && l.bytes ≤ 2 ^ 21 && p.tiers.getLsbD (tierOf l.addr) && p.tiers.getLsbD to' &&
    !s.memc.holds asid && !s.holdsMigration asid

/-! ## Moving a page -/

/-- The word of a leaf entry with an address and MIG. -/
def leafWith (s : State) (l : Leaf) (addr : Nat) (mig : Bool) : Nat := addr / 256 * 256 + setBit (leafWord s l % 256) 6 mig

/-- The kept roots of regions that meet a page are dropped (R916). -/
def dropRoots (asid va n : Nat) (s : State) : State :=
  { s with disp := { s.disp with kept := s.disp.kept.filter (fun k => !(k.asid = asid && meets k.va k.bytes va n)) } }

/-- A leaf entry is written and its page invalidated everywhere. -/
def rewriteLeaf (asid va : Nat) (l : Leaf) (w : Nat) (s : State) : State :=
  dropRoots asid va l.bytes (dropScope (.page asid va) (physWrite s l.entry (untagged (leBytes 8 w))))

/-- Steps 3 and 4: the journal entry, MIG, and the invalidation. -/
def beginMove (asid page : Nat) (l : Leaf) (new : Nat) (drain : Bool) (s : State) : State :=
  let m : Migration := { asid := asid, va := page, bytes := l.bytes, leafAt := l.entry, old := l.addr, new := new
                         oldTier := tierOf l.addr, newTier := tierOf new, drain := drain }
  rewriteLeaf asid page l (leafWith s l l.addr true) { s with memc := { s.memc with moves := s.memc.moves ++ [m] } }

/-- A page of an address space, and its leaf. -/
def pageAt (s : State) (asid va : Nat) : Option (Nat × Leaf) :=
  match walk s asid va false with
  | .ok l => some (va / l.bytes * l.bytes, l)
  | .error _ => none

/-- The dispatcher carries out an order to move a page (Migrating a page, steps 1 to 4). -/
def pageOrder (asid va tier : Nat) (s : State) : State :=
  match pageAt s asid va with
  | none => s
  | some (page, l) =>
    if !eligible s asid l tier || !withinPolicy s asid l page tier then s else
    match takeFrame s tier l.bytes with
    | some (a, t) => beginMove asid page l a false t
    | none => s

/-- The order that the dispatcher receives next, at the hub crossbar's output to it (R642). -/
def nextOrder (s : State) : Option Order :=
  match s.fifo (fifoNum .hub 0 0) with
  | k :: _ => (match k.payload with
    | .order o => some o
    | _ => none)
  | [] => none

/-- The dispatcher takes the order. -/
def takeNext (s : State) : State := popFifo s (fifoNum .hub 0 0)

/-- PAGE_RETIRE_ORDER: the dispatcher receives the order to move a page; where none has arrived, the management processor, whose
choice of pages is firmware's, sends it. -/
def execPageRetireOrder (asid va tier : Nat) (s : State) : Host.Outcome State Fault Refusal :=
  if nextOrder s = some (.movePage asid va tier) then needs s.on (pageOrder asid va tier (takeNext s)) s
  else needs (s.on && s.mgmt.state = 2 && asid < 4096) (orderDispatcher (.movePage asid va tier) s) s

/-- The journal entry is cleared. -/
def clearJournal (m : Migration) (s : State) : State :=
  { s with memc := { s.memc with moves := s.memc.moves.filter (· != m) } }

/-- The leaf that a journal entry names, as its entry word has it. -/
def Migration.leaf (m : Migration) : Leaf :=
  { addr := m.old, bytes := m.bytes, target := 0, w := false, pin := false, mig := true, entry := m.leafAt, level := 0 }

/-- R609. -/
def rollBack (m : Migration) (s : State) : State :=
  let s := rewriteLeaf m.asid m.va m.leaf (leafWith s m.leaf m.old false) (clearJournal m s)
  memcEvent 7 (returnFrame m.new m.bytes s)

/-- Two bytes counts of an address space with n added to one tier and, of a page that migration had placed there, taken from
another. -/
def rePlace (p : Nat × Nat) (was : Bool) (old new n : Nat) : Nat × Nat :=
  let p := if !was then p else if old = 0 then (p.1 - n, p.2) else if old = 1 then (p.1, p.2 - n) else p
  if new = 0 then (p.1 + n, p.2) else if new = 1 then (p.1, p.2 + n) else p

/-- Step 6: the page now lies at address new. -/
def finishMove (m : Migration) (s : State) : State :=
  let s := rewriteLeaf m.asid m.va m.leaf (leafWith s m.leaf m.new false) (clearJournal m s)
  let s := memcMigration (returnFrame m.old m.bytes s)
  let was := s.memc.residence.any (fun r => r.1 = m.asid && r.2.1 = m.va)
  let old := s.memc.residence.filter (fun r => !(r.1 = m.asid && r.2.1 = m.va))
  { s with memc := { s.memc with
      residence := old ++ [(m.asid, m.va, s.now)]
      moved := mapModify 0 s.memc.moved m.asid (· + m.bytes)
      placed := mapModify (0, 0) s.memc.placed m.asid (fun p => rePlace p was m.oldTier m.newTier m.bytes) } }

/-- Another frame for a drained page whose copy read poison (R549): a stacked one, else one of GDDR7. -/
def frameForPoison (s : State) (m : Migration) : Option (Nat × State) :=
  if m.newTier = 0 then some (m.new, s) else
  match takeFrame s 0 m.bytes with
  | some x => some (x.1, returnFrame m.new m.bytes x.2)
  | none =>
    if m.newTier = 1 then some (m.new, s) else
    match takeFrame s 1 m.bytes with
    | some x => some (x.1, returnFrame m.new m.bytes x.2)
    | none => none

/-- Steps 5 and 6 for a journal entry: copy and end, or roll back; a drained page whose copy reads poison waits for a frame (R549,
R550).
DEDUCED, log entry 63: frames of a draining range stay in the pool until the range leaves. -/
def endMove (m : Migration) (s : State) : State :=
  match physRead s m.old m.bytes with
  | none => rollBack m s
  | some ts =>
    if !anyPoison ts then finishMove m (physWrite s m.new ts)
    else if !m.drain then rollBack m s
    else match frameForPoison s m with
      | none => s
      | some (a, t) =>
        let m' := { m with new := a, newTier := tierOf a }
        let t := { t with memc := { t.memc with moves := t.memc.moves.map (fun x => if x = m then m' else x) } }
        finishMove m' (physWrite t a ts)

/-- MIGRATION_COMPLETE: the copy of a page ends. -/
def execMigrationComplete (asid va : Nat) (s : State) : Host.Outcome State Fault Refusal :=
  match s.memc.moves.find? (fun m => m.asid = asid && m.va ≤ va && va < m.va + m.bytes) with
  | some m => needs s.on (endMove m s) s
  | none => .next s

/-! ## Drains (R548 to R550) -/

/-- The pages that a table of a level maps, given the levels below it: virtual address and leaf. -/
def leavesUnder (s : State) : List Nat → Nat → Nat → List (Nat × Leaf)
  | [], _, _ => []
  | level :: rest, table, va =>
    let size := if level = 0 then 2 ^ 16 else 2 ^ (21 + 9 * (level - 1))
    (List.range (if level = 0 then 32 else 512)).flatMap (fun i =>
      match wordAt s (table + 8 * i) with
      | none => []
      | some (bs, poison) =>
        let e := leNat bs
        if poison || !bit e 0 then []
        else if bit e 2 then
          match leafOf s (table + 8 * i) level e with
          | .ok l => [(va + i * size, l)]
          | .error _ => []
        else if level = 0 || !tablePlace s (e / 256 * 256) then [] else leavesUnder s rest (e / 256 * 256) (va + i * size))

/-- The pages of an address space. -/
def pagesOfSpace (s : State) (asid : Nat) : List (Nat × Leaf) :=
  if !s.memc.astabBase.getLsbD 0 || !tablePlace s (asEntry s asid) then [] else
  match wordAt s (asEntry s asid) with
  | none => []
  | some (bs, poison) =>
    if poison || !bit (leNat bs) 0 || !tablePlace s (bits (leNat bs) 12 40 * 4096) then []
    else leavesUnder s [4, 3, 2, 1, 0] (bits (leNat bs) 12 40 * 4096) 0

/-- The pages of every address space whose frames lie in a range. -/
def pagesIn (s : State) (d : Drain) : List (Nat × Nat × Leaf) :=
  (List.range 4096).flatMap (fun asid =>
    ((pagesOfSpace s asid).filter (fun e => e.2.target = 0 && meets e.2.addr e.2.bytes d.lo (d.hi - d.lo))).map (fun e =>
      (asid, e.1, e.2)))

/-- A frame for a drained page: of its own tier, else of another (R548). -/
def drainFrame (s : State) (t n : Nat) : Option (Nat × State) :=
  (takeFrame s t n).or ((([0, 1, 2] : List Nat).filter (· != t)).foldl (fun r u => r.or (takeFrame s u n)) none)

/-- One page of a draining range moves unless PIN, a hold, R611 or a want of frames keeps it (R548, R550). -/
def drainPage (s : State) (e : Nat × Nat × Leaf) : State :=
  let l := e.2.2
  if l.pin || l.mig || s.memc.holds e.1 || s.holdsMigration e.1 then s else
  match drainFrame s (tierOf l.addr) l.bytes with
  | some (a, t) => beginMove e.1 e.2.1 l a true t
  | none => s

/-- Step 3 of Retiring a GDDR7 channel. -/
def drainAll (d : Drain) (s : State) : State := (pagesIn s d).foldl drainPage s

/-- A range begins to drain. -/
def startDrain (d : Drain) (s : State) : State :=
  let s := if s.memc.drains.contains d then s else { s with memc := { s.memc with drains := s.memc.drains ++ [d] } }
  drainAll d s

/-- A range is out of use: no frame of it stays in a pool. -/
def dropRange (d : Drain) (s : State) : State :=
  { s with memc := { s.memc with
      drains := s.memc.drains.filter (· != d)
      pools := s.memc.pools.map (fun e => (e.1, { e.2 with
        frames := cutFrames d.lo (d.hi - d.lo) e.2.frames
        total := e.2.total - (e.2.freeBytes - (({ e.2 with frames := cutFrames d.lo (d.hi - d.lo) e.2.frames } : Pool)).freeBytes) })) } }

/-- Step 4: no page is left in the range, or step 3 again with a report of how many are (R550). -/
def drainRound (d : Drain) (done : State → State) (s : State) : State :=
  let left := (pagesIn s d).length
  if left = 0 && s.memc.moves.all (fun m => !meets m.old m.bytes d.lo (d.hi - d.lo)) then done (dropRange d s)
  else sendResult (hubSource 0) (.draining 4 left) (drainAll d s)

/-! ## GDDR7 channels -/

def channelRange (q k : Nat) : Drain :=
  { lo := Config.gddrBase + q * 2 ^ 32 + k * 2 ^ 30, hi := Config.gddrBase + q * 2 ^ 32 + (k + 1) * 2 ^ 30 }

/-- A channel may be retired (R525), given those of its controller that are. -/
def retirable (retired : BitVec 4) (q k : Nat) : Bool := !(q = 15 && k = 3) && !retired.getLsbD k

/-- Step 1: the orders to the controller and to the dispatcher. -/
def beginRetire (q k : Nat) (s : State) : State :=
  let s := startOp 4 1 { s with mgmt := { s.mgmt with link := some (.retireChannel q k) } }
  orderDispatcher (.retireChannel q k) (orderTo .attached (gddrAttach q) 0 (.drainChannel k) s)

/-- A controller marks a channel as draining. -/
def markDraining (q k : Nat) (s : State) : State :=
  let g := s.gdcOf q
  if g.retired.getLsbD k then s else s.setGdc q { g with draining := g.draining ||| BitVec.ofNat 4 (2 ^ k) }

/-- Steps 2 and 3. -/
def receiveRetire (q k : Nat) (s : State) : State := sendResult (hubSource 0) (.draining 3 0) (startDrain (channelRange q k) s)

/-- CHANNEL_RETIRE_ORDER: the dispatcher receives the order; where none has arrived, the management processor starts a retirement by
itself. -/
def execChannelRetireOrder (q k : Nat) (s : State) : Host.Outcome State Fault Refusal :=
  if nextOrder s = some (.retireChannel q k) then needs s.on (receiveRetire q k (takeNext s)) s
  else needs (s.on && s.mgmt.state = 2 && s.mgmt.link.isNone && q < 16 && k < 4 && retirable (mapGet 0#4 s.mgmt.view.retired q) q k)
    (beginRetire q k s) s

/-- Step 5: the controller takes the channel out of service. -/
def retireChannel (q k : Nat) (s : State) : State :=
  let g := s.gdcOf q
  let m := BitVec.ofNat 4 (2 ^ k)
  let s := gdcEvent q 2 (s.setGdc q { g with live := g.live &&& ~~~m, draining := g.draining &&& ~~~m, retired := g.retired ||| m })
  sendResult (hubSource 0) (.channelRetired q k) s

/-- The management processor logs a retired channel (step 5). -/
def noteRetired (q k : Nat) (s : State) : State :=
  let s := modView (fun v => { v with retired := mapModify 0#4 v.retired q (fun r => r ||| BitVec.ofNat 4 (2 ^ k)) }) s
  logRecord { kind := 7, source := hubSource 1, wher := BitVec.ofNat 64 (channelRange q k).lo
              detail := BitVec.ofNat 64 (4 * q + k) } s

/-- CHANNEL_RETIRE_COMPLETE (steps 4 and 5, R550). -/
def execChannelRetireComplete (q k : Nat) (s : State) : Host.Outcome State Fault Refusal :=
  needs (s.on && q < 16 && k < 4 && s.memc.drains.contains (channelRange q k))
    (drainRound (channelRange q k) (retireChannel q k) s) s

/-! ## CXL devices (R557, R558, R561) -/

/-- Bytes of a range for a capacity. -/
def deviceBytes (capacity : Nat) : Nat := ceilDiv capacity (2 ^ 28) * 2 ^ 28

/-- The lowest gap of a window, from an offset on, that holds n bytes beside the given ranges in rising order. -/
def lowestGap (n : Nat) : Nat → List (Nat × Nat × Nat) → Option Nat
  | off, [] => if off + n ≤ 2 ^ 42 then some off else none
  | off, r :: rs => if off + n ≤ r.1 then some off else lowestGap n (max off (r.1 + r.2.1)) rs

/-- Ranges in rising order with one more. -/
def putRange (r : Nat × Nat × Nat) (rs : List (Nat × Nat × Nat)) : List (Nat × Nat × Nat) :=
  rs.filter (fun x => x.1 < r.1) ++ r :: rs.filter (fun x => !(x.1 < r.1))

/-- The range [off, off + n) of a port's window. -/
def cxlRange (port off n : Nat) : Drain :=
  { lo := Config.cxlBase + port * 2 ^ 42 + off, hi := Config.cxlBase + port * 2 ^ 42 + off + n }

/-- Nothing is known of the content of a range (R1079). -/
def forgetCxl (d : Drain) (m : Mem) : Mem :=
  { m with cxl := m.cxl.filter (fun e => e.1 < d.lo || d.hi ≤ e.1)
           cxlShown := m.cxlShown.filter (fun e => e.1 < d.lo / 64 || d.hi / 64 ≤ e.1) }

/-- A device is given a range; the port is active. -/
def giveRange (port off n capacity : Nat) (switched : Bool) (lanes speed : Nat) (s : State) : State :=
  let x := s.cxlOf port
  let s := s.setCxl port { x with state := .active, switched := switched, lanes := lanes, speed := speed
                                  ranges := putRange (off, n, capacity) x.ranges }
  { s with mem := forgetCxl (cxlRange port off n) s.mem }

/-- Steps 2 to 4 of Adding an expander; a device without capacity, without a gap that holds it, or the ninth of its port
stays unused (DEDUCED, log entry 41). -/
def addDevice (port capacity : Nat) (switched : Bool) (lanes speed : Nat) (s : State) : State :=
  let s := s.setCxl port { s.cxlOf port with adding := false }
  let x := s.cxlOf port
  match lowestGap (deviceBytes capacity) 0 x.ranges with
  | none => sendResult (hubSource (2 + port)) (.deviceAdded port none x.ranges) s
  | some off =>
    if capacity = 0 || 8 ≤ x.ranges.length then sendResult (hubSource (2 + port)) (.deviceAdded port none x.ranges) s else
    let s := cxlEvent port 1 (giveRange port off (deviceBytes capacity) capacity switched lanes speed s)
    sendResult (hubSource (2 + port)) (.deviceAdded port (some (cxlRange port off 0).lo) (s.cxlOf port).ranges) s

/-- The management processor learns which ranges of a port are in service. -/
def noteDevices (port : Nat) (ranges : List (Nat × Nat × Nat)) (s : State) : State :=
  modView (fun v => { v with devices := mapSet v.devices port ranges }) s

/-- CXL_DEVICE_ADDED. -/
def execCxlDeviceAdded (port capacity : Nat) (switched : Bool) (lanes speed : Nat) (s : State) : Host.Outcome State Fault Refusal :=
  needs (s.on && port < 4 && (s.cxlOf port).adding) (addDevice port capacity switched lanes speed s) s

/-- The device of a port whose range starts at a local physical address, among given ranges: its range. -/
def deviceAt (ranges : List (Nat × Nat × Nat)) (port base : Nat) : Option Drain :=
  (ranges.find? (fun r => (cxlRange port r.1 r.2.1).lo = base)).map (fun r => cxlRange port r.1 r.2.1)

/-- Step 1 of Removing an expander: the orders to the port and to the dispatcher. -/
def beginRemove (port : Nat) (d : Drain) (s : State) : State :=
  let s := startOp 4 1 { s with mgmt := { s.mgmt with link := some (.removeExpander port d.lo) } }
  orderDispatcher (.removeDevice port d.lo) (orderHub (2 + port) .drainDevice s)

/-- A port with a range that drains (step 1). -/
def markPort (port : Nat) (s : State) : State :=
  let x := s.cxlOf port
  s.setCxl port { x with state := if x.state == .active then .draining else x.state }

/-- The dispatcher receives the order to drain a device's range (step 2). -/
def receiveRemove (port base : Nat) (s : State) : State :=
  match deviceAt (s.cxlOf port).ranges port base with
  | some d => sendResult (hubSource 0) (.draining 2 0) (startDrain d s)
  | none => s

/-- Step 4 of Removing an expander. -/
def removeDevice (port : Nat) (d : Drain) (s : State) : State :=
  let x := s.cxlOf port
  let rs := x.ranges.filter (fun r => (cxlRange port r.1 r.2.1).lo != d.lo)
  let x' := if rs.isEmpty then { x with state := .noLink, ranges := [], lanes := 0, speed := 0, switched := false }
    else { x with state := if x.state == .draining then .active else x.state, ranges := rs }
  sendResult (hubSource (2 + port)) (.deviceRemoved port x'.ranges) 
    (pumpCxlPort port (cxlEvent port 2 (s.setCxl port x')))

/-- CXL_DEVICE_REMOVED. -/
def execCxlDeviceRemoved (port base : Nat) (s : State) : Host.Outcome State Fault Refusal :=
  match deviceAt (s.cxlOf port).ranges port base with
  | some d => needs (s.on && port < 4 && s.memc.drains.contains d) (drainRound d (removeDevice port d) s) s
  | none => .next s

end Sys2Proof.Machine
end

