-- ==== Sys2Proof/Machine/Serve.lean ====
section
/-! DEFINITION. How the management processor takes a mailbox request and the checks that precede every command (file 12, R938
to R943, R948, R960). -/

namespace Sys2Proof.Machine

/-- A pair has a request that may be taken (R939, R940; Boot from the host, step 1). -/
def takable (s : State) (m : Nat) : Bool :=
  let b := s.box m
  !b.requests.isEmpty && b.waiting.isNone && !b.busy && (s.mgmt.state = 2 || m = 0)

/-- The pair whose request is taken next, in round-robin order (R939).
DEDUCED, log entry 76: requests of the mailbox pairs are served one at a time in round-robin order. -/
def nextPair (s : State) : Option Nat := ((List.range 8).map (fun i => (s.mgmt.nextBox + i) % 8)).find? (takable s)

/-- The request that the management processor takes from pair m, if it is that pair's turn. -/
def nextRequest (s : State) (m : Nat) : Option ReqPkt :=
  if s.on && nextPair s == some m then (s.box m).requests.head? else none

/-- The bytes of a request message. -/
def ReqPkt.bytes (p : ReqPkt) : List Byte := p.words.flatMap (fun w => leBytes 8 w.toNat)

/-- The request of pair m leaves its FIFO. -/
def popRequest (m : Nat) (s : State) : State :=
  let s := s.setBox m { s.box m with requests := (s.box m).requests.drop 1 }
  { s with mgmt := { s.mgmt with nextBox := (m + 1) % 8 } }

/-- The answer to request b with a result and a body. -/
def respond (m : Nat) (b : List Byte) (result : Nat) (body : List Byte) (s : State) : State :=
  answer m (message (fieldAt b 0 2) (fieldAt b 2 2) result body) s

/-- A command of interface version 1. -/
structure Cmd where
  /-- the length of its message -/
  size : List Byte → Nat
  /-- offset and size of each body field; every other body byte is reserved -/
  fields : List (Nat × Nat)
  /-- served before MGMT_STATUS.STATE reads 2 -/
  early : Bool := false
  /-- served while a sanitise runs -/
  always : Bool := false
  /-- its effect for a pair and a message: an error result; or the state with the result and body of the answer, none where
  the answer follows later -/
  act : Nat → List Byte → State → Except Nat (State × Option (Nat × List Byte))

/-- Every nonzero body byte lies in a field. -/
def onlyFields (fs : List (Nat × Nat)) (b : List Byte) : Bool :=
  (b.zipIdx.drop 16).all (fun e => e.1 == 0 || fs.any (fun f => f.1 ≤ e.2 && e.2 < f.1 + f.2))

/-- The result of the checks that precede the command (DEDUCED, log entry 36). -/
def Cmd.refusal (c : Cmd) (b : List Byte) (s : State) : Option Nat :=
  if b.length < 16 || 256 < b.length then some 0x101
  else if fieldAt b 4 1 != 1 then some 0x103
  else if !zeroAt b 5 3 || !zeroAt b 8 8 then some 0x102
  else if s.mgmt.state != 2 && !c.early then some 0x202
  else if s.mgmt.sanitising && !c.always then some 0x200
  else if b.length != c.size b then some 0x101
  else if !onlyFields c.fields b then some 0x102
  else none

/-- A request is executed and answered, or its answer is owed. -/
def Cmd.run (c : Cmd) (m : Nat) (b : List Byte) (s : State) : State :=
  match c.refusal b s with
  | some r => respond m b r [] s
  | none =>
    match c.act m b s with
    | .error r => respond m b r [] s
    | .ok (t, some (r, body)) => respond m b r body t
    | .ok (t, none) => t.setBox m { t.box m with busy := true }

/-- The request at the front of pair m, if it is m's turn and the request is one that want names, is served. -/
def serve (m : Nat) (want : List Byte → Bool) (c : Cmd) (s : State) : Host.Outcome State Fault Refusal :=
  match nextRequest s m with
  | none => .next s
  | some p => needs (!p.poison && want p.bytes) (c.run m p.bytes (popRequest m s)) s

/-- A message with a command code. -/
def isCode (code : Nat) (b : List Byte) : Bool := fieldAt b 0 2 = code

/-- A message with a command code and a SUB or OP; that of the first row takes the values above top too. -/
def isSub (code off sub top : Nat) (b : List Byte) : Bool :=
  fieldAt b 0 2 = code && (fieldAt b off 1 = sub || (sub = 0 && top < fieldAt b off 1))

/-- A condition of the command, else its result. -/
def permit (r : Nat) (c : Bool) : Except Nat Unit := if c then .ok () else .error r

/-- DONE without a body. -/
def done (s : State) : Except Nat (State × Option (Nat × List Byte)) := .ok (s, some (0, []))

/-- STARTED without a body. -/
def started (s : State) : Except Nat (State × Option (Nat × List Byte)) := .ok (s, some (1, []))

/-- DONE with a body. -/
def report (body : List Byte) (s : State) : Except Nat (State × Option (Nat × List Byte)) := .ok (s, some (0, body))

/-- No launch is outstanding by the latest launch summary (R80, R945). -/
def State.quiet (s : State) : Bool := s.mgmt.summary.outstanding = 0

/-! ## Requests that no command takes -/

/-- The command codes of R944. -/
def knownCodes : List Nat :=
  [0x0001, 0x0002, 0x0010, 0x0011, 0x0012, 0x0020, 0x0030, 0x0031, 0x0032, 0x0040, 0x0050, 0x0051, 0x0060, 0x0070, 0x0071,
   0x0072, 0x0073, 0x0080, 0x0090, 0x00A0, 0x00F0]

/-- BAD_COMMAND: an unknown command code, or a request with a poison tag (R941, R942). -/
def execBadCommand (m : Nat) (s : State) : Host.Outcome State Fault Refusal :=
  match nextRequest s m with
  | none => .next s
  | some p =>
    if p.poison then .next (answer m (message 0 0 0x104 []) (popRequest m s))
    else needs (!knownCodes.contains (fieldAt p.bytes 0 2)) (respond m p.bytes 0x100 [] (popRequest m s)) s

end Sys2Proof.Machine
end

