-- ==== Sys2Proof/Machine/Mailbox.lean ====
section
/-! DEFINITION. The mailbox commands of interface version 1 but for those on firmware, sanitise and attestation (file 12, R944
to R953, R956; file 01, R129; file 07, R605, R607; file 09, R717, R745, R746, R764). -/

namespace Sys2Proof.Machine

/-! ## Identity and configuration -/

/-- The security version (R1005). -/
def Fuses.version (f : Fuses) : Nat := ((List.range 64).find? (fun n => !f.svn.getLsbD n)).getD 64

/-- The device number with its assigned bit, as messages and reports hold it. -/
def deviceWord (s : State) : Nat :=
  match s.silk.device with
  | some d => d + 2 ^ 15
  | none => 0

/-- Spares of the clusters in service, as records have told. -/
def sparesInService (s : State) : List Nat :=
  ((List.range Config.clusters).filter (fun c => !(s.view c).out)).map (fun c => popCount 64 (s.view c).spares.toNat)

/-- IDENTIFY; with no cluster in service SPARES_MIN is a free value (DESIGN CHOICE, log entry 6). -/
def identifyCmd : Cmd :=
  { size := fun _ => 16, fields := [], early := true, always := true
    act := fun _ _ s =>
      let sp := match sparesInService s with
        | [] => freePick s 65
        | a :: l => l.foldl min a
      report (pack 0x20 [(0x0, 8, s.mgmt.fwVersion.toNat), (0x8, 1, s.fuses.grade), (0x9, 1, s.lcores), (0xA, 1, 1),
        (0xB, 1, s.mgmt.state), (0xC, 2, deviceWord s), (0x10, 8, s.fuses.version), (0x18, 1, sp)]) (drawn 1 s) }

def execIdentify (m : Nat) (s : State) : Host.Outcome State Fault Refusal := serve m (isCode 0x0001) identifyCmd s

/-- CONFIG_SET.
DEDUCED, log entry 45: reserved bits of CONFIG_SET and PAIR_SET are BAD_ARGUMENT. -/
def configSetCmd : Cmd :=
  { size := fun _ => 24, fields := [(0x10, 2)]
    act := fun _ b s => do
      permit 0x102 (fieldAt b 0x10 2 < 4096)
      permit 0x201 s.quiet
      done { s with silk := { s.silk with device := some (fieldAt b 0x10 2) } } }

def execConfigSet (m : Nat) (s : State) : Host.Outcome State Fault Refusal := serve m (isCode 0x0002) configSetCmd s

/-- PAIR_SET (R775): COMPARED counts since pair mode was enabled. -/
def pairSetCmd : Cmd :=
  { size := fun _ => 24, fields := [(0x10, 1), (0x11, 1), (0x12, 2)]
    act := fun _ b s => do
      permit 0x102 (fieldAt b 0x10 1 < 2 && fieldAt b 0x11 1 < 2 && fieldAt b 0x12 2 < 4096)
      permit 0x201 s.quiet
      let on := fieldAt b 0x10 1 = 1
      done { s with silk := { s.silk with
        pairEnable := on, pairRole := fieldAt b 0x11 1, pairPartner := fieldAt b 0x12 2
        pairCompared := if on && !s.silk.pairEnable then 0 else s.silk.pairCompared } } }

def execPairSet (m : Nat) (s : State) : Host.Outcome State Fault Refusal := serve m (isCode 0x00A0) pairSetCmd s

/-! ## Operating points -/

def pointBody (s : State) : List Byte :=
  pack 8 [(0, 1, s.mgmt.point), (1, 1, s.mgmt.nextTarget.getD s.mgmt.target), (2, 1, natOfBool s.mgmt.ramping)]

def oppointGetCmd : Cmd := { size := fun _ => 16, fields := [], act := fun _ _ s => report (pointBody s) s }

def execOppointGet (m : Nat) (s : State) : Host.Outcome State Fault Refusal := serve m (isCode 0x0010) oppointGetCmd s

/-- OPPOINT_SET (R956, R957, R1041). -/
def oppointSetCmd : Cmd :=
  { size := fun _ => 24, fields := [(0x10, 1)]
    act := fun _ b s => do
      permit 0x102 (fieldAt b 0x10 1 ≤ 2)
      permit 0x201 (fieldAt b 0x10 1 != 2 || s.board.straps.boostEn)
      let r := setPoint (fieldAt b 0x10 1) s
      return (r.1, some (natOfBool r.2, pointBody r.1)) }

def execOppointSet (m : Nat) (s : State) : Host.Outcome State Fault Refusal := serve m (isCode 0x0011) oppointSetCmd s

def admissionReadCmd : Cmd := { size := fun _ => 16, fields := [], act := fun _ _ s => report s.mgmt.record.bytes s }

def execAdmissionRead (m : Nat) (s : State) : Host.Outcome State Fault Refusal := serve m (isCode 0x0012) admissionReadCmd s

/-! ## CORE_MAP (R948) -/

/-- A CORE_MAP command on a cluster and an item below a bound. -/
def coreMapCmd (items : Nat) (act : Nat → Nat → Reply → State → Except Nat (State × Option (Nat × List Byte))) : Cmd :=
  { size := fun _ => 24, fields := [(0x10, 1), (0x12, 2), (0x14, 1)]
    act := fun m b s => do
      permit 0x102 (fieldAt b 0x10 1 ≤ 3 && fieldAt b 0x12 2 < Config.clusters && (items = 0 || fieldAt b 0x14 1 < items))
      act (fieldAt b 0x12 2) (fieldAt b 0x14 1) { pair := m, command := fieldAt b 0 2, tag := fieldAt b 2 2 } s }

def execCoreMapReport (m : Nat) (s : State) : Host.Outcome State Fault Refusal :=
  serve m (isSub 0x0020 0x10 0 3) (coreMapCmd 0 (fun c _ _ s => report (mapBody s c) s)) s

def execCoreMapFence (m : Nat) (s : State) : Host.Outcome State Fault Refusal :=
  serve m (isSub 0x0020 0x10 1 3) (coreMapCmd 64 (fun c p r s =>
    if bit (s.view c).fenced.toNat p then report (mapBody s c) s else .ok (sendOrder c (.fence p (some r)) s, none))) s

def execCoreMapRetireSlice (m : Nat) (s : State) : Host.Outcome State Fault Refusal :=
  serve m (isSub 0x0020 0x10 2 3) (coreMapCmd 16 (fun c sl r s => .ok (sendOrder c (.retireSlice sl (some r)) s, none))) s

def execCoreMapClusterReset (m : Nat) (s : State) : Host.Outcome State Fault Refusal :=
  serve m (isSub 0x0020 0x10 3 3) (coreMapCmd 0 (fun c _ r s => .ok (orderDispatcher (.reset c (some r)) s, none))) s

/-! ## Tier policies and frame pools (R605, R607) -/

def tierPolicySetCmd : Cmd :=
  { size := fun _ => 96, fields := [(0x10, 2), (0x20, 2), (0x24, 0x24)]
    act := fun _ b s => do
      permit 0x102 (fieldAt b 0x10 2 < 4096 && fieldAt b 0x20 1 < 2 && fieldAt b 0x21 1 < 8)
      done { s with memc := { s.memc with policies := mapSet s.memc.policies (fieldAt b 0x10 2) (policyOf (b.drop 0x20)) } } }

def execTierPolicySet (m : Nat) (s : State) : Host.Outcome State Fault Refusal := serve m (isCode 0x0030) tierPolicySetCmd s

def tierPolicyGetCmd : Cmd :=
  { size := fun _ => 24, fields := [(0x10, 2)]
    act := fun _ b s => do
      permit 0x102 (fieldAt b 0x10 2 < 4096)
      report (pack 16 [] ++ (s.policy (fieldAt b 0x10 2)).bytes) s }

def execTierPolicyGet (m : Nat) (s : State) : Host.Outcome State Fault Refusal := serve m (isCode 0x0031) tierPolicyGetCmd s

def poolBody (s : State) (t n : Nat) : List Byte :=
  pack 24 [(0x0, 8, n), (0x8, 8, (s.pool t).freeBytes), (0x10, 8, (s.pool t).total)]

/-- A FRAME_POOL command on a tier and the bytes [base, base + n); bytes done and the state (DEDUCED, log entry 39). -/
def framePoolCmd (act : Nat → Nat → Nat → State → Except Nat (State × Nat)) : Cmd :=
  { size := fun _ => 40, fields := [(0x10, 1), (0x11, 1), (0x18, 8), (0x20, 8)]
    act := fun _ b s => do
      permit 0x102 (fieldAt b 0x10 1 ≤ 2 && fieldAt b 0x11 1 ≤ 2)
      let r ← act (fieldAt b 0x10 1) (fieldAt b 0x18 8) (fieldAt b 0x20 8) s
      report (poolBody r.1 (fieldAt b 0x10 1) r.2) r.1 }

/-- BASE and BYTES name frames of the tier. -/
def framesGood (s : State) (t a n : Nat) : Bool := a % 65536 = 0 && n % 65536 = 0 && tierRange s t a n

def addFrames (t a n : Nat) (s : State) : Except Nat (State × Nat) := do
  permit 0x102 (framesGood s t a n && (s.pool t).frames.all (fun f => !meets a n f.1 f.2))
  return (s.setPool t { frames := putFrame a n (s.pool t).frames, total := (s.pool t).total + n }, n)

def execFramePoolAdd (m : Nat) (s : State) : Host.Outcome State Fault Refusal :=
  serve m (isSub 0x0032 0x11 0 2) (framePoolCmd addFrames) s

/-- Frames that are free leave the pool. -/
def removeFrames (t a n : Nat) (s : State) : Except Nat (State × Nat) := do
  permit 0x102 (framesGood s t a n)
  let p := s.pool t
  let p' : Pool := { p with frames := cutFrames a n p.frames }
  let n := p.freeBytes - p'.freeBytes
  return (s.setPool t { p' with total := p.total - n }, n)

def execFramePoolRemove (m : Nat) (s : State) : Host.Outcome State Fault Refusal :=
  serve m (isSub 0x0032 0x11 1 2) (framePoolCmd removeFrames) s

def execFramePoolQuery (m : Nat) (s : State) : Host.Outcome State Fault Refusal :=
  serve m (isSub 0x0032 0x11 2 2) (framePoolCmd (fun _ _ _ s => .ok (s, 0))) s

/-! ## Reports -/

/-- TOPOLOGY_READ (R946). -/
def topologyReadCmd : Cmd :=
  { size := fun _ => 24, fields := [(0x10, 4)]
    act := fun _ b s => do
      let off := fieldAt b 0x10 4
      permit 0x102 (off % 8 = 0)
      let n := min 224 (65600 - off)
      report (pack 16 [(0x0, 4, off), (0x4, 4, n), (0x8, 4, mapGenSum s)] ++ topologyBytes s off n) s }

def execTopologyRead (m : Nat) (s : State) : Host.Outcome State Fault Refusal := serve m (isCode 0x0040) topologyReadCmd s

def telemetryReadCmd : Cmd :=
  { size := fun _ => 24, fields := [(0x10, 2), (0x12, 2)], always := true
    act := fun _ b s =>
      match telemetryBody s (fieldAt b 0x10 2) (fieldAt b 0x12 2) with
      | some body => report body s
      | none => .error 0x102 }

def execTelemetryRead (m : Nat) (s : State) : Host.Outcome State Fault Refusal := serve m (isCode 0x0050) telemetryReadCmd s

/-- EVENT_READ (R951). -/
def eventReadCmd : Cmd :=
  { size := fun _ => 24, fields := [(0x10, 1)], always := true
    act := fun _ b s => do
      let n := fieldAt b 0x10 1
      permit 0x102 (1 ≤ n && n ≤ 7)
      let es := s.mgmt.log.take n
      report (pack 16 [(0x0, 1, es.length), (0x8, 8, s.mgmt.eventLost.reg)] ++ es.flatMap EvRec.bytes)
        { s with mgmt := { s.mgmt with log := s.mgmt.log.drop n } } }

def execEventRead (m : Nat) (s : State) : Host.Outcome State Fault Refusal := serve m (isCode 0x0051) eventReadCmd s

/-- OP_STATUS; the step that an operating-point change has reached is a free value, its procedure having no numbered steps.
DESIGN CHOICE, log entry 37: OP_STATUS.STEP of an operating-point change is free. -/
def opStatusCmd : Cmd :=
  { size := fun _ => 24, fields := [(0x10, 1)], always := true
    act := fun _ b s => do
      let k := fieldAt b 0x10 1
      permit 0x102 (1 ≤ k && k ≤ 4)
      let o := s.op k
      let step := if k = 1 && o.state != 0 then freePick s 256 else o.step
      report (pack 16 [(0x0, 1, o.state), (0x1, 1, step), (0x2, 2, o.result), (0x8, 8, o.detail)]) (drawn 1 s) }

def execOpStatus (m : Nat) (s : State) : Host.Outcome State Fault Refusal := serve m (isCode 0x00F0) opStatusCmd s

/-! ## LINK (R948) -/

/-- A LINK command; the operands of its action are UNIT, ITEM and ARG. -/
def linkCmd (act : Nat → Nat → Nat → State → Except Nat (State × Option (Nat × List Byte))) : Cmd :=
  { size := fun _ => 32, fields := [(0x10, 1), (0x12, 2), (0x14, 2), (0x18, 8)]
    act := fun _ b s => do
      permit 0x102 (fieldAt b 0x10 1 ≤ 6)
      act (fieldAt b 0x12 2) (fieldAt b 0x14 2) (fieldAt b 0x18 8) s }

/-- No link operation runs (R943). -/
def linkFree (s : State) : Except Nat Unit := permit 0x200 (s.mgmt.link.isNone)

/-- A link operation begins. -/
def beginLink (o : LinkOp) (s : State) : State := startOp 4 1 { s with mgmt := { s.mgmt with link := some o } }

def execLinkRetireChannel (m : Nat) (s : State) : Host.Outcome State Fault Refusal :=
  serve m (isSub 0x0060 0x10 0 6) (linkCmd (fun q k _ s => do
    permit 0x102 (q < 16 && k < 4)
    linkFree s
    permit 0x201 (retirable (mapGet 0#4 s.mgmt.view.retired q) q k)
    started (beginRetire q k s))) s

def execLinkAddExpander (m : Nat) (s : State) : Host.Outcome State Fault Refusal :=
  serve m (isSub 0x0060 0x10 1 6) (linkCmd (fun p _ _ s => do
    permit 0x102 (p < 4)
    linkFree s
    started (orderHub (2 + p) .addDevices (beginLink (.addExpander p) s)))) s

def execLinkRemoveExpander (m : Nat) (s : State) : Host.Outcome State Fault Refusal :=
  serve m (isSub 0x0060 0x10 2 6) (linkCmd (fun p _ a s =>
    match if p < 4 then deviceAt (mapGet [] s.mgmt.view.devices p) p a else none with
    | none => .error 0x102
    | some d => do
      linkFree s
      started (beginRemove p d s))) s

def execLinkRetrainLane (m : Nat) (s : State) : Host.Outcome State Fault Refusal :=
  serve m (isSub 0x0060 0x10 3 6) (linkCmd (fun p lane _ s => do
    permit 0x102 (p < 12 && lane < 8)
    linkFree s
    started (orderHub (6 + p) (.retrainLane lane) (beginLink (.retrainLane p lane) s)))) s

/-- The link of an engine is to move: the Silk port is ordered to, or the host link begins (log entry 84). -/
def beginMoveEngine (e target : Nat) (s : State) : State :=
  if e = 16 then { s with hostp := { s.hostp with moving := some target } } else orderHub (6 + e) (.moveLink target) s

def execLinkOe17Takeover (m : Nat) (s : State) : Host.Outcome State Fault Refusal :=
  serve m (isSub 0x0060 0x10 4 6) (linkCmd (fun e _ _ s => do
    permit 0x102 (e < 12 || e = 16)
    linkFree s
    permit 0x201 s.mgmt.oe17.isNone
    let s := beginLink (.takeover e) s
    started (beginMoveEngine e 17 { s with mgmt := { s.mgmt with oe17 := some e } }))) s

def execLinkOe17Handback (m : Nat) (s : State) : Host.Outcome State Fault Refusal :=
  serve m (isSub 0x0060 0x10 5 6) (linkCmd (fun _ _ _ s => do
    linkFree s
    match s.mgmt.oe17 with
    | none => .error 0x201
    | some e => started (beginMoveEngine e e (beginLink .handback s)))) s

/-- LINK with SUB 6 (R774, R945): a new role starts with no measurement.
DEDUCED, log entry 65: a new role starts afresh; a negative delay is a free value. -/
def execLinkSetSyncRole (m : Nat) (s : State) : Host.Outcome State Fault Refusal :=
  serve m (isSub 0x0060 0x10 6 6) (linkCmd (fun d role _ s => do
    permit 0x102 (role ≤ 2 && (role != 2 || d < 4096))
    permit 0x201 s.quiet
    done { s with silk := { s.silk with
      role := role, master := if role = 2 then d else 0, locked := false, sync := { lastAt := s.now } } })) s

end Sys2Proof.Machine
end

