-- ==== Sys2Proof/Machine/Orders.lean ====
section
/-! DEFINITION. Orders that a cluster controller applies at a step boundary: fences (file 01, R76, R78, R104 to R118, R1084;
file 07, R593) and slice retirement (file 07, R596 to R600). -/

namespace Sys2Proof.Machine

/-- The order at the front is done. -/
def popOrder (c : Nat) (s : State) : State := s.modCluster c (fun k => { k with orders := k.orders.drop 1 })

/-- CLU_MAP_GEN moves after every other register (R142, R149). -/
def bumpMap (c : Nat) (s : State) : State := s.modCluster c (fun k => { k with mapGen := k.mapGen + 1 })

/-- A position is fenced. -/
def Cluster.fencePos (k : Cluster) (p : Nat) : Cluster :=
  { k with fenced := BitVec.ofNat 64 (setBit k.fenced.toNat p true), spares := BitVec.ofNat 64 (setBit k.spares.toNat p false) }

/-- A logical index is bound, or left unbacked. -/
def Cluster.bind (k : Cluster) (l : Nat) (q : Option Nat) : Cluster :=
  { k with
    map := modifyAt k.map l (fun _ => q)
    spares := match q with
      | some q => BitVec.ofNat 64 (setBit k.spares.toNat q false)
      | none => k.spares }

/-! ## The restore into a spare (R593, step 6) -/

/-- The source of a line: its snapshot slot if it is logged, else the memory of the fenced position. -/
def copySource (s : State) (c p l line : Nat) : List Tagged :=
  if (s.cluster c).snap.logged.contains (l, line) then (physRead s (slotAddr c l line) 64).getD []
  else (List.range 8).flatMap (fun i =>
    let key := Config.coreBase + (c * 64 + p) * Config.coreSize + 64 * line + 8 * i
    tagged (storedBytes s.mem key 8) (wordCheck s.mem key != .good))

/-- The lines of a core's memory. -/
def coreLines : List Nat := List.range (Config.coreSize / 64)

/-- The words of a restore that read as poison, as addresses of the core's window, line by line. -/
def copyPoison (s : State) (c p l : Nat) : List (List Nat) :=
  (coreLines.map (fun x => poisonPlaces (window c l (64 * x)) (copySource s c p l x))).filter (fun ws => !ws.isEmpty)

/-- Core memory and tiles of index l, once at position p, are restored into the position now bound to it. -/
def restoreInto (c p l : Nat) (s : State) : State :=
  let src := s
  let s := coreLines.foldl (fun s x => physWrite s (window c l (64 * x)) (copySource src c p l x)) s
  s.modCluster c (fun k => { k with
    cores := mapModify {} k.cores l (fun x => { x with
      tiles := mapGet [] k.snap.tiles l, tileSat := mapGet 0 k.snap.sats l, drainSat := 0, stepSat := false })
    snap := { k.snap with logged := k.snap.logged.filter (fun e => e.1 != l) } })

/-- The core's step is run again where the cluster stands at the end of the step; at its start there is nothing to run. -/
def rerunCore (c l : Nat) (s : State) : State :=
  s.modCluster c (fun k =>
    if k.ended then k
    else if k.pos = k.snap.pos then { k with rerun := if k.rerun.isEmpty then [] else setInsert k.rerun l }
    else { k with pos := k.snap.pos, rerun := [l] })

/-- The cluster holds a launch whose state the fenced core carries. -/
def carriesState (s : State) (c : Nat) : Bool :=
  (s.cluster c).state == .running && ((s.runningOn c).map (·.phase)) == some .running

/-- The launches that use a cluster, the one it runs and those decided on it, end with UNIT_UNAVAILABLE (R117). -/
def endUsers (c : Nat) (s : State) : State :=
  (s.disp.launches.filter (fun x => (x.phase == .armed && bit x.header.clusters c) || (s.cluster c).launch == some x.id)).foldl
    (fun s x => stopLaunch x.id 0x102 s) s

/-- Steps 5 to 7: the index is bound to a spare, its state restored, its step rerun; or it is left unbacked (R117). -/
def fenceIndex (c p l : Nat) (s : State) : State :=
  let carries := carriesState s c
  let k := (s.cluster c).fencePos p
  match nearestSpare l k.spares.toNat with
  | none =>
    let s := bumpMap c (cluEvent c 2 (cluEvent c 0 (s.setCluster c (k.bind l none))))
    endUsers c (logEvent 5 c 0 l (logEvent 3 c 0 p s))
  | some q =>
    let bad := if carries then copyPoison s c p l else []
    let s := s.setCluster c (k.bind l (some q))
    let s := if carries then rerunCore c l (restoreInto c p l s) else s
    let s := bad.foldl (fun s ws => consumePoison c l ws s) s
    let s := bumpMap c (cluEvent c 1 (cluEvent c 0 s))
    logEvent 4 c 0 q (logEvent 3 c 0 p s)

/-- A fence order for a spare (R1084). -/
def fenceSpare (c p : Nat) (s : State) : State :=
  logEvent 3 c 0 p (bumpMap c (cluEvent c 0 (s.modCluster c (fun k => k.fencePos p))))

/-- A packet on its way has been translated to a position (R669). -/
def boundFor (s : State) (c p : Nat) : Bool :=
  s.net.fifos.any (fun e => e.2.any (fun k => k.phys.isSome && k.toCores && k.targets.contains (64 * c + p)))

/-- What a fence order does. -/
def applyFence (c p : Nat) (s : State) : State :=
  let k := s.cluster c
  if bit k.fenced.toNat p then s
  else if bit k.spares.toNat p then fenceSpare c p s
  else match findIdx (fun e => e == some p) k.map 0 with
    | some l => fenceIndex c p l s
    | none => s

/-- FENCE_ORDER: the order at the front is applied at a step boundary (R76, R78, R114, R116). -/
def execFenceOrder (c : Nat) (s : State) : Host.Outcome State Fault Refusal :=
  match (s.cluster c).orders with
  | .fence p r :: _ =>
    needs (s.on && atBoundary s c && !boundFor s c p) (orderDone c 0 r (applyFence c p (popOrder c s))) s
  | _ => .next s

/-! ## Slice retirement -/

/-- The lowest free redirect slot of 64 (R524). -/
def freeSlot (s : State) : Option Nat := (List.range 64).find? (fun k => (mapFind s.memc.redirect k).isNone)

/-- The words of a slice, by slice offset, with the address that each has. -/
def sliceAddr (c sl y : Nat) : Nat := c * Config.clusterStacked + y / 0x1000 * 0x10000 + sl * 0x1000 + y % 0x1000

/-- The stored words of a slice that are listed in memory, by slice offset. -/
def sliceOffsets : List Nat := (List.range (Config.sliceBytes / 8)).map (8 * ·)

/-- The addresses of the slice's words that read as poison. -/
def slicePoison (s : State) (c sl : Nat) : List Nat :=
  (sliceOffsets.map (sliceAddr c sl)).filter (fun a => wordCheck s.mem a != .good)

/-- The content of a slice is copied to its slot (step 4). -/
def copySlice (s : State) (c sl k : Nat) : State :=
  sliceOffsets.foldl (fun s y =>
    writeGddr s (Config.redirectArea + k * Config.sliceBytes + y) ((storedBytes s.mem (sliceAddr c sl y) 8).map some) false) s

/-- Step 5: the slice is out of service and served from slot k. -/
def redirectSlice (c sl k : Nat) (s : State) : State :=
  let s := s.modCluster c (fun x => { x with live := BitVec.ofNat 16 (setBit x.live.toNat sl false) })
  let s := { s with memc := { s.memc with redirect := mapSet s.memc.redirect k (c, sl) } }
  logEvent 6 c 0 sl (memcEvent 4 (bumpMap c (cluEvent c 3 s)))

/-- Steps 3 to 5 of Slice retirement; the result of the order. -/
def retireSlice (c sl : Nat) (s : State) : State × Nat :=
  match freeSlot s with
  | none => (memcEvent 5 s, 0x300)
  | some k =>
    let bad := slicePoison s c sl
    if 256 < (s.cluster c).poisonList.length + bad.length then (memcEvent 5 s, 0x300) else
    let s := (copySlice s c sl k).modCluster c (fun x => { x with poisonList := bad.foldl setInsert x.poisonList })
    (redirectSlice c sl k s, 0)

/-- RETIRE_SLICE_ORDER: the order at the front is applied at a step boundary; a retired slice stays as it is. -/
def execRetireSliceOrder (c : Nat) (s : State) : Host.Outcome State Fault Refusal :=
  match (s.cluster c).orders with
  | .retireSlice sl r :: _ =>
    if !(s.on && atBoundary s c) then .next s
    else
      let s := popOrder c s
      let x := if (s.cluster c).live.getLsbD sl then retireSlice c sl s else (s, 0)
      .next (orderDone c x.2 r x.1)
  | _ => .next s

end Sys2Proof.Machine
end

