-- ==== Sys2Proof/Machine/Firmware.lean ====
section
/-! DEFINITION. Firmware: images, boot, live update, the security version (file 12, Boot from the host, Live update, R960 to
R964; file 13, R1004, R1005, R1011 to R1019), attestation (R947, R1020 to R1024), and the start-up self-test (R109, R537, R553,
R557, R601). -/

namespace Sys2Proof.Machine

/-! ## Uploads -/

/-- The largest image (R961). -/
def maxImage : Nat := 2 ^ 27

def setUpload (u : Option Upload) (s : State) : State := { s with mgmt := { s.mgmt with upload := u } }

/-- FW_BEGIN: a boot image in STATE 0, an update image in STATE 2 while no other update is in progress.
DEDUCED, log entry 46: result codes of FW_BEGIN, FW_DATA and FW_COMMIT where R1013 and R962 leave the code to R941. -/
def fwBeginCmd : Cmd :=
  { size := fun _ => 32, fields := [(0x10, 1), (0x18, 8)], early := true
    act := fun _ b s => do
      let update := fieldAt b 0x10 1 = 1
      permit 0x102 (fieldAt b 0x10 1 < 2 && 1 ≤ fieldAt b 0x18 8 && fieldAt b 0x18 8 ≤ maxImage)
      permit 0x201 (update || s.mgmt.state = 0)
      permit 0x202 (!update || s.mgmt.state = 2)
      permit 0x200 (!s.mgmt.updating)
      let s := setUpload (some { update := update, size := fieldAt b 0x18 8 }) s
      done { s with mgmt := { s.mgmt with updating := update } } }

def execFwBegin (m : Nat) (s : State) : Host.Outcome State Fault Refusal := serve m (isCode 0x0070) fwBeginCmd s

/-- Bytes of an image, written from an offset on. -/
def writeImage : List Byte → Nat → Map Byte → Map Byte
  | [], _, m => m
  | b :: bs, off, m => writeImage bs (off + 1) (mapSet m off b)

/-- FW_DATA. -/
def fwDataCmd : Cmd :=
  { size := fun b => 32 + fieldAt b 0x18 2, fields := [(0x10, 8), (0x18, 2), (0x20, 224)], early := true
    act := fun _ b s => do
      let off := fieldAt b 0x10 8
      let n := fieldAt b 0x18 2
      permit 0x102 (off % 8 = 0 && n % 8 = 0 && 8 ≤ n && n ≤ 224)
      match s.mgmt.upload with
      | none => .error 0x201
      | some u => do
        permit 0x102 (off + n ≤ ceilDiv u.size 8 * 8)
        done (setUpload (some { u with bytes := writeImage (b.drop 0x20) off u.bytes }) s) }

def execFwData (m : Nat) (s : State) : Host.Outcome State Fault Refusal := serve m (isCode 0x0071) fwDataCmd s

/-- FW_ABORT (R964). -/
def fwAbortCmd : Cmd :=
  { size := fun _ => 16, fields := [], early := true
    act := fun _ _ s => do
      permit 0x201 s.mgmt.upload.isSome
      done { s with mgmt := { s.mgmt with upload := none, updating := false } } }

def execFwAbort (m : Nat) (s : State) : Host.Outcome State Fault Refusal := serve m (isCode 0x0073) fwAbortCmd s

/-! ## The checks of R1013 -/

/-- Bytes 0 to SIZE - 1 of an upload; none where one is unwritten (R962). -/
def Upload.image (u : Upload) : Option (List Byte) := (List.range u.size).mapM (mapFind u.bytes)

/-- A section of an image of n bytes: its offset and length fields stand at at'. -/
def sectionGood (b : List Byte) (n at' : Nat) : Bool :=
  let off := fieldAt b at' 8
  let len := fieldAt b (at' + 8) 8
  0x200 ≤ off && off % 64 = 0 && len != 0 && off + len ≤ n

/-- Check 2. -/
def imageHeaderGood (b : List Byte) (n : Nat) : Bool :=
  fieldAt b 0x0 4 = 0x4957464D && fieldAt b 0x4 2 = 1 && fieldAt b 0x6 1 = 1 && fieldAt b 0x8 8 = n &&
    sectionGood b n 0x30 && sectionGood b n 0x40 && sectionGood b n 0x50 && fieldAt b 0x20 8 ≤ 64 && fieldAt b 0x28 1 < 4 &&
    zeroAt b 0x29 7 && zeroAt b 0xC1 31 && zeroAt b 0x140 192

/-- SIGNING_KEY. -/
def signingKey (b : List Byte) : List Byte := (b.drop 0x60).take 97

/-- Check 3. -/
def keyGood (f : Fuses) (b : List Byte) : Bool :=
  let k := fieldAt b 0x7 1
  k ≤ 3 && !f.revoked.getLsbD k && beNat (sha384 (signingKey b)) = ((f.keyHash[k]?).getD 0).toNat

/-- The signed message (R1012). -/
def signedMessage (b : List Byte) : List Byte := putAt b 0xE0 (List.replicate 96 0#8)

/-- The number of the first check of R1013 that an image fails, 0 where it passes them all. -/
def imageCheck (s : State) (u : Upload) : Nat :=
  match u.image with
  | none => 1
  | some b =>
    if !imageHeaderGood b u.size then 2
    else if !keyGood s.fuses b then 3
    else if !ecdsaVerify (signingKey b) (signedMessage b) ((b.drop 0xE0).take 96) then 4
    else if fieldAt b 0x20 8 < s.fuses.version then 5
    else if u.update && s.mgmt.fwVersion.toNat < fieldAt b 0x18 8 then 6
    else 0

/-- What the device keeps of an image. -/
def imageOf (b : List Byte) : Image :=
  { keySlot := fieldAt b 0x7 1, fwVersion := BitVec.ofNat 64 (fieldAt b 0x10 8), svn := fieldAt b 0x20 8
    advance := bit (fieldAt b 0x28 1) 0, revokeBelow := bit (fieldAt b 0x28 1) 1, hash := sha384 b }

/-- The firmware of an image starts (Boot from the host, step 4). -/
def startFirmware (i : Image) (s : State) : State :=
  { s with mgmt := { s.mgmt with state := 1, image := some i, fwVersion := i.fwVersion } }

/-- A checked update begins to hand over (Live update, step 4). -/
def beginHandover (i : Image) (s : State) : State :=
  sendHandover 0 (markChanged (stepOp 2 4 0 { s with mgmt := { s.mgmt with newImage := some i } }))

/-- FW_COMMIT. -/
def fwCommitCmd : Cmd :=
  { size := fun _ => 16, fields := [], early := true
    act := fun _ _ s =>
      match s.mgmt.upload with
      | none => .error 0x201
      | some u =>
        let n := imageCheck s u
        let i := imageOf (u.image.getD [])
        let s := setUpload none s
        if u.update then
          let s := startOp 2 3 s
          if n = 0 then started (beginHandover i s)
          else started (endOp 2 false n { s with mgmt := { s.mgmt with updating := false } })
        else if n = 0 then done (startFirmware i s)
        else .ok (s, some (0x300, [])) }

def execFwCommit (m : Nat) (s : State) : Host.Outcome State Fault Refusal := serve m (isCode 0x0072) fwCommitCmd s

/-! ## Hand-over (Live update, steps 4 to 6) -/

/-- HANDOVER_ORDER: the order at the front is applied at a step boundary; a controller that cannot run the new image is taken
out of service (R963). -/
def execHandoverOrder (c : Nat) (runs : Bool) (s : State) : Host.Outcome State Fault Refusal :=
  match (s.cluster c).orders with
  | .handover :: _ =>
    let s' := popOrder c s
    let s' := if runs then s'.modCluster c (fun k => { k with newFw := true }) else outOfService c s'
    needs (s.on && atBoundary s c) (sendResult c (.handedOver c) (markChanged s')) s
  | _ => .next s

/-- Every cluster controller has reported that it has handed over or is out of service. -/
def clustersNew (s : State) : Bool := s.mgmt.view.handover.isNone

/-- DISPATCHER_HANDOVER (step 5); fetches, start decisions and completions are single commands. -/
def execDispatcherHandover (s : State) : Host.Outcome State Fault Refusal :=
  needs (s.on && s.mgmt.newImage.isSome && !s.mgmt.dispNew && clustersNew s)
    (markChanged (stepOp 2 6 0 { s with mgmt := { s.mgmt with dispNew := true } })) s

/-- MANTIS_HANDOVER (step 6), between two mailbox messages. -/
def execMantisHandover (s : State) : Host.Outcome State Fault Refusal :=
  match s.mgmt.newImage with
  | none => .next s
  | some i =>
    let s' := markChanged { s with
      mgmt := { s.mgmt with image := some i, newImage := none, fwVersion := i.fwVersion, dispNew := false, updating := false
                            svnTarget := if i.advance && s.fuses.version < i.svn then some i.svn else none }
      clusters := s.clusters.map (fun e => (e.1, { e.2 with newFw := false })) }
    needs (s.on && s.mgmt.dispNew && s.mgmt.boxes.all (fun e => !e.2.busy)) (endOp 2 true 0 (logOwn 14 0 s')) s

/-! ## The security version (R1015 to R1018) -/

/-- A fuse that is being blown: an SVN fuse or a REVOKED fuse. -/
inductive Fuse where
  | svn (n : Nat)
  | revoked (k : Nat)
  deriving DecidableEq, Repr

/-- The fuse in progress.
DEDUCED, log entry 67: REVOKE_BELOW acts without an advance of the security version. -/
def nextFuse (s : State) : Option Fuse :=
  match s.mgmt.image with
  | none => none
  | some i =>
    if s.mgmt.state != 2 then none
    else if i.advance && s.fuses.version < i.svn then some (.svn s.fuses.version)
    else if i.revokeBelow then ((List.range i.keySlot).find? (fun k => !s.fuses.revoked.getLsbD k)).map .revoked
    else none

def blow (x : Fuse) (f : Fuses) : Fuses :=
  match x with
  | .svn n => { f with svn := f.svn ||| BitVec.ofNat 64 (2 ^ n) }
  | .revoked k => { f with revoked := f.revoked ||| BitVec.ofNat 4 (2 ^ k) }

/-- An advance that is complete is no longer pending. -/
def settleAdvance (s : State) : State :=
  match s.mgmt.svnTarget with
  | some t => if t ≤ s.fuses.version then { s with mgmt := { s.mgmt with svnTarget := none } } else s
  | none => s

/-- SVN_FUSE_BLOWN: the fuse in progress has been blown. -/
def execSvnFuseBlown (s : State) : Host.Outcome State Fault Refusal :=
  match nextFuse s with
  | some x => needs s.on (settleAdvance { s with fuses := blow x s.fuses }) s
  | none => .next s

/-- A reset stops the blowing: the fuse in progress ends blown or not (R1018). -/
def stopFuses (s : State) : State :=
  match nextFuse s with
  | none => s
  | some x =>
    let f := if Config.freeBool s.free then blow x s.fuses else s.fuses
    let i := s.mgmt.image.map (fun i => { i with advance := false, revokeBelow := false })
    drawn 1 { s with fuses := f, mgmt := { s.mgmt with image := i } }

/-! ## Attestation -/

/-- The first 0x160 bytes of a report (R1020). -/
def reportBody (s : State) (nonce : List Byte) : List Byte :=
  let i := s.mgmt.image.getD {}
  pack 0x40 [(0x0, 4, 0x54535441), (0x4, 2, 1), (0x6, 2, 448), (0x8, 8, s.fuses.serial.toNat), (0x10, 8, s.fuses.version),
    (0x18, 8, s.mgmt.fwVersion.toNat), (0x20, 8, s.now), (0x28, 1, s.fuses.grade), (0x29, 1, s.mgmt.state),
    (0x2A, 1, s.ent.state.code), (0x2B, 1, i.keySlot),
    (0x2C, 1, natOfBool s.mgmt.updating + 2 * natOfBool s.mgmt.sanitised + 4 * natOfBool s.mgmt.svnTarget.isSome),
    (0x30, 2, deviceWord s),
    (0x32, 2, s.silk.pairPartner + 2 ^ 14 * s.silk.pairRole + 2 ^ 15 * natOfBool s.silk.pairEnable)] ++
  nonce ++ (if i.hash.isEmpty then List.replicate 48 0#8 else i.hash) ++ sha384 (viewImage s) ++
  pointBytes s.mgmt.keyX.toNat s.mgmt.keyY.toNat ++ List.replicate 47 0#8

/-- A signed report. -/
def attestation (s : State) (nonce : List Byte) : List Byte :=
  reportBody s nonce ++ ecdsaSign (identityKey s.fuses.identitySeed) (reportBody s nonce)

/-- ATTEST. -/
def attestCmd : Cmd :=
  { size := fun _ => 72, fields := [(0x10, 48), (0x40, 2)]
    act := fun m b s => do
      let f := fieldAt b 0x40 2
      permit 0x102 (f < 2)
      let nonce := (b.drop 0x10).take 48
      let s := if (s.box m).nonce == some nonce then s
        else s.setBox m { s.box m with nonce := some nonce, report := attestation s nonce }
      report (pack 16 [(0x0, 2, 2), (0x2, 2, f), (0x4, 2, 224)] ++ ((s.box m).report.drop (224 * f)).take 224) s }

def execAttest (m : Nat) (s : State) : Host.Outcome State Fault Refusal := serve m (isCode 0x0090) attestCmd s

/-! ## FIRMWARE_READY (Boot from the host, steps 4 and 5) -/

/-- A trained GDDR7 device: its four channels are in service. -/
def trainGdc (s : State) (e : Nat × Nat) : State :=
  let s := s.setGdc e.2 { s.gdcOf e.2 with rate := e.1, live := if e.1 < 3 then 0xF else 0 }
  if e.1 < 3 then s else modView (fun v => { v with untrained := setInsert v.untrained e.2 }) s

/-- The self-test retires a channel (R553). -/
def testChannel (s : State) (e : Nat × Nat) : State :=
  let g := s.gdcOf e.1
  if !retirable g.retired e.1 e.2 then s else
  let m := BitVec.ofNat 4 (2 ^ e.2)
  noteRetired e.1 e.2 (gdcEvent e.1 2 (s.setGdc e.1 { g with live := g.live &&& ~~~m, retired := g.retired ||| m }))

/-- The self-test retires a slice (R601). Its words are all poison (R581), and those of a slot that nothing has written read as
poison by R542: nothing is copied and the poison list stays empty. -/
def testSlice (s : State) (e : Nat × Nat) : State :=
  match freeSlot s with
  | some k => if (s.cluster e.1).live.getLsbD e.2 then redirectSlice e.1 e.2 k s else s
  | none => memcEvent 5 s

/-- A CXL link has trained. -/
def trainCxl (s : State) (e : Nat × Nat × Nat × Bool) : State :=
  let x := s.cxlOf e.1
  s.setCxl e.1 { x with state := if e.2.1 = 0 then .noLink else .active, lanes := e.2.1, speed := e.2.2.1, switched := e.2.2.2 }

/-- A device found at boot takes the next range of its window, what does not fit being left unused (R557, R558). -/
def enumerate (s : State) (e : Nat × Nat) : State :=
  let x := s.cxlOf e.1
  let off := x.ranges.foldl (fun o r => max o (r.1 + r.2.1)) 0
  let n := min (deviceBytes e.2) (2 ^ 42 - off)
  if n = 0 || 8 ≤ x.ranges.length then s else
  noteDevices e.1 (putRange (off, n, e.2) x.ranges) (s.setCxl e.1 { x with ranges := putRange (off, n, e.2) x.ranges })

/-- The outcome of training and of the self-test; their orders and result records pass within FIRMWARE_READY (DESIGN CHOICE, log entry
84). -/
def applySelfTest (t : SelfTest) (s : State) : State :=
  let s := t.rates.zipIdx.foldl trainGdc s
  let s := t.channels.foldl testChannel s
  let s := t.cores.foldl (fun s e => applyFence e.1 e.2 s) s
  let s := t.slices.foldl testSlice s
  t.expanders.foldl enumerate (t.links.foldl trainCxl s)

/-- STATE reads 2, or 3 where a hub unit has failed; an SVN advance then begins (R1015). -/
def becomeReady (ok : Bool) (s : State) : State :=
  let target := match s.mgmt.image with
    | some i => if ok && i.advance && s.fuses.version < i.svn then some i.svn else none
    | none => none
  { s with mgmt := { s.mgmt with state := if ok then 2 else 3, svnTarget := target } }

def execFirmwareReady (test : SelfTest) (s : State) : Host.Outcome State Fault Refusal :=
  needs (s.on && s.mgmt.state = 1) (becomeReady test.hubOk (applySelfTest test s)) s

end Sys2Proof.Machine
end

