-- ==== Sys2Proof/Machine/Sanitise.lean ====
section
/-! DEFINITION. Sanitise (file 12, R943, R968 to R970). -/

namespace Sys2Proof.Machine

/-- SANITISE, step 1. -/
def sanitiseCmd : Cmd :=
  { size := fun _ => 24, fields := [(0x10, 4)]
    act := fun _ b s => do
      permit 0x102 (fieldAt b 0x10 4 = 0x53414E49)
      permit 0x200 s.mgmt.newImage.isNone
      permit 0x201 (s.quiet && s.disp.queues.all (fun e => e.2.state == .disabled))
      started (startOp 3 1 { s with mgmt := { s.mgmt with sanitising := true, sanitised := false, sanStep := 1, sanFailed := 0 } }) }

def execSanitise (m : Nat) (s : State) : Host.Outcome State Fault Refusal := serve m (isCode 0x0080) sanitiseCmd s

/-! ## The passes -/

/-- The end of the firmware area and the firmware working area, which begin at Config.firmwareArea (R524). -/
def firmwareEnd : Nat := Config.gddrBase + Config.gddrSize

/-- A 4 KiB unit of GDDR7 lies in the two firmware areas. -/
def firmwareUnit (u : Nat) : Bool := (Config.firmwareArea - Config.gddrBase) / 4096 ≤ u

/-- Step 2: all memory is poison or uninitialised but for the firmware areas, and every context is FREE; roots of regions in
the memory of the package are dropped (R916). -/
def wipe (s : State) : State :=
  let m := s.mem.poisonDies
  { s with
    mem := { m with bytes := cellClear m.bytes Config.gddrBase Config.firmwareArea
                    inited := m.inited.filter firmwareUnit
                    gddrPoison := m.gddrPoison.filter (fun b => firmwareUnit (b / 64)) }
    ctxs := [], ctxPoison := [], ctxCache := []
    disp := { s.disp with kept := s.disp.kept.filter (fun k => k.units.all (fun u => Config.cxlBase / 4096 ≤ u)) } }

/-- Cells from lo to hi - 1 all hold byte b. -/
def cellFill (d : Byte) (m : List Host.Cell) (lo hi : Nat) (b : Byte) : List Host.Cell :=
  m.filter (fun e => e.1 < lo) ++ (if b = d then [] else (List.range (hi - lo)).map (fun i => (lo + i, b))) ++
    m.filter (fun e => hi ≤ e.1)

/-- Words of core or stacked memory hold a pattern, with their check bytes. -/
def Mem.fillDies (m : Mem) (lo hi : Nat) (b : Byte) : Mem :=
  { m with bytes := cellFill 0 m.bytes lo hi b
           check := cellFill poisonCheck m.check (lo / 8) (hi / 8) (crc8 (List.replicate 8 b)) }

/-- Units lo to hi - 1 of the initialised maps are set. -/
def setUnits (l : List Nat) (lo hi : Nat) : List Nat :=
  l.filter (fun u => u < lo) ++ (List.range (hi - lo)).map (fun i => lo + i) ++ l.filter (fun u => hi ≤ u)

/-- The end of the bytes of a channel that steps 3 and 4 cover (R968). -/
def coveredEnd (q k : Nat) : Nat := min (channelRange q k).hi Config.firmwareArea

/-- The channels of GDDR7. -/
def channels : List (Nat × Nat) := (List.range 16).flatMap (fun q => (List.range 4).map (fun k => (q, k)))

def fillChannel (b : Byte) (s : State) (e : Nat × Nat) : State :=
  if (s.gdcOf e.1).retired.getLsbD e.2 then s else
  let lo := (channelRange e.1 e.2).lo
  let hi := coveredEnd e.1 e.2
  { s with mem := { s.mem with
      bytes := cellFill 0 s.mem.bytes lo hi b
      inited := setUnits s.mem.inited ((lo - Config.gddrBase) / 4096) ((hi - Config.gddrBase) / 4096)
      gddrPoison := s.mem.gddrPoison.filter (fun x => x < (lo - Config.gddrBase) / 64 || (hi - Config.gddrBase) / 64 ≤ x) } }

/-- Steps 3 and 4: every covered word holds the pattern. -/
def writePattern (b : Byte) (s : State) : State :=
  let m := (s.mem.fillDies 0 Config.stackedSize b).fillDies Config.coreBase (Config.coreBase + Config.coreRegion) b
  channels.foldl (fillChannel b) { s with mem := m }

/-- A pass has ended: the step reached, and the words that failed its comparison. -/
def passed (step failed : Nat) (s : State) : State :=
  stepOp 3 step 0 { s with mgmt := { s.mgmt with sanStep := step, sanFailed := s.mgmt.sanFailed + failed } }

/-- SANITISE_ORDER: the units carry out the next pass; failedWords is what their result records add up to in a pass that
compares. -/
def execSanitiseOrder (failedWords : Nat) (s : State) : Host.Outcome State Fault Refusal :=
  if !(s.on && s.mgmt.sanitising) then .next s else
  match s.mgmt.sanStep with
  | 1 => .next (passed 2 0 (wipe s))
  | 2 => .next (passed 3 failedWords (writePattern 0x55 s))
  | 3 => .next (passed 4 failedWords (writePattern 0xAA s))
  | 4 => .next (passed 5 0 (wipe s))
  | _ => .next s

/-- SANITISE_COMPLETE (step 6). -/
def execSanitiseComplete (s : State) : Host.Outcome State Fault Refusal :=
  let n := s.mgmt.sanFailed
  let s' := { s with mgmt := { s.mgmt with sanitising := false, sanitised := true, sanStep := 0 } }
  needs (s.on && s.mgmt.sanitising && s.mgmt.sanStep = 5) (endOp 3 (n = 0) n (logOwn 15 n s')) s

end Sys2Proof.Machine
end

