-- ==== Sys2Proof/Machine/Events.lean ====
section
/-! DEFINITION. Event records, snapshots, reports and orders between the management processor and the units (file 12, R949,
R951, R952, R958, R959; file 01, R74, R75, R96, R119; file 07, R604; file 08, R652). -/

namespace Sys2Proof.Machine

/-- The period of snapshots and refreshes in ticks (R75, R604, R949).
DEDUCED, log entry 20: commands bound to a time wait for the model's Cricket count. -/
def period : Nat := 1000000

/-- The die whose network has dropped a packet, 4 for the hub crossbar (R652). -/
def dropDie (e : EvRec) : Nat := if e.source < 256 then e.source / 64 else 4

/-- An event record arrives: the management processor learns from one of a cluster (R74), and one of a network drop makes it order
aborts (R652). -/
def receiveRecord (e : EvRec) (s : State) : State :=
  let s := if e.source < 256 then modCluView e.source (fun v => v.learn e.kind e.detail.toNat) s else s
  logRecord e (if e.kind = 16 then orderDispatcher (.abort (dropDie e)) s else s)

/-- The hand-over goes on after the report of a controller (Live update, step 4). -/
def nextHandover (c : Nat) (s : State) : State := if s.mgmt.view.handover = some c then sendHandover (c + 1) s else s

/-- A controller has restarted: its test is ordered (R965, step 3). Hand-over goes on after one that restarted on the new image; an
order that is still owed is sent again, since a restart may have discarded it (R963, R964). -/
def afterRestart (c : Nat) (newFw : Bool) (r : Option Reply) (s : State) : State :=
  let s := sendOrder c (.test r) s
  match s.mgmt.view.handover with
  | none => s
  | some d => if d = c && newFw then sendHandover (c + 1) s else sendHandover d s

/-- Devices have been added on a CXL port, or none could be (R557). -/
def noteAdded (p : Nat) (base : Option Nat) (ranges : List (Nat × Nat × Nat)) (s : State) : State :=
  match base with
  | none => endLink false 0 s
  | some a => endLink true 0 (logRecord { kind := 10, source := hubSource 1, wher := BitVec.ofNat 64 a, detail := BitVec.ofNat 64 p }
      (noteDevices p ranges s))

/-- FIFO count words by the key of TELEMETRY_READ: 256 * unit + FIFO. -/
def noteFifos (u : Nat) (counts : List Nat) (s : State) : State :=
  { s with mgmt := { s.mgmt with fifoCounts := counts.zipIdx.foldl (fun m e => mapSet m (256 * u + e.2) e.1) s.mgmt.fifoCounts } }

/-- A result record or a counter snapshot arrives (R75). -/
def receiveResult (r : Result) (s : State) : State :=
  match r with
  | .order c code reply => answerOrder c code reply s
  | .handedOver c => nextHandover c s
  | .restarted c newFw reply => afterRestart c newFw reply s
  | .tested c passed reply =>
    answerOrder c (if passed then 0 else 0x300) reply (modCluView c (fun v => { v with out := !passed }) s)
  | .draining step left => stepOp 4 step left s
  | .channelRetired q k => endLink true 0 (noteRetired q k s)
  | .deviceAdded p base ranges => noteAdded p base ranges s
  | .deviceRemoved p ranges => endLink true 0 (noteDevices p ranges s)
  | .linkDone p ok => linkDone p ok s
  | .fifos u counts => noteFifos u counts s
  | .counters u values => modView (fun v => { v with counters := mapSet v.counters u values }) s
  | .heat u entries =>
    { s with mgmt := { s.mgmt with heat := s.mgmt.heat.filter (fun e => e.1 != u) ++ entries.map (fun h => (u, h)) } }

/-- The output of the hub crossbar to the management processor (R642, R950). -/
def recordFifo : Nat := fifoNum .hub 1 0

/-- EVENT_RECORD (R951): the record at the head of the path reaches the management processor. -/
def execEventRecord (s : State) : Host.Outcome State Fault Refusal :=
  match s.fifo recordFifo with
  | [] => .next s
  | k :: _ =>
    let t := popFifo s recordFifo
    needs s.on (match k.payload with
      | .event e => receiveRecord e t
      | .result r => receiveResult r t
      | _ => t) s

/-- COUNTER_SNAPSHOT (R75, R949). -/
def execCounterSnapshot (s : State) : Host.Outcome State Fault Refusal :=
  needs (s.on && s.mgmt.snapshotAt + period ≤ s.now) (takeSnapshot s) s

/-- The router port of a translation unit (R572). -/
def unitPort (u : Nat) : Nat := if u < 256 then xbarPort u 0 else if u = dispUnit then hubPort 0 0 else hubPort 6 0

/-- A translation unit sends its heat entries. -/
def sendHeat (s : State) (e : Nat × HeatUnit) : State :=
  s.setFifo (unitPort e.1) (s.fifo (unitPort e.1) ++ [reportPkt (hubSource 0) (.result (.heat e.1 e.2.entries))])

/-- The translation units send their heat entries and clear them; a new period of R605 begins. -/
def takeHeat (s : State) : State :=
  let t := s.memc.heat.foldl sendHeat s
  { t with
    mgmt := { t.mgmt with heatAt := s.now }
    memc := { t.memc with moved := [], heat := s.memc.heat.map (fun u => (u.1, { u.2 with entries := [] })) } }

/-- HEAT_SNAPSHOT (R604). -/
def execHeatSnapshot (s : State) : Host.Outcome State Fault Refusal :=
  needs (s.on && s.mgmt.heatAt + period ≤ s.now) (takeHeat s) s

/-- TELEMETRY_REFRESH (R949): the sensors' values are what the environment gives.
DESIGN CHOICE, log entry 19: sensor values are operands of TELEMETRY_REFRESH. -/
def execTelemetryRefresh (temps : List Int) (supplies powers : List Nat) (s : State) : Host.Outcome State Fault Refusal :=
  needs (s.on && s.mgmt.refreshAt + period ≤ s.now)
    { s with board := { s.board with temps := temps, supplies := supplies, powers := powers }
             mgmt := { s.mgmt with refreshAt := s.now } } s

/-- The orders that answer a report. -/
def sendDecision (c : Nat) (d : Decision) (s : State) : State :=
  match d with
  | .nothing => s
  | .fence p => sendOrder c (.fence p none) s
  | .retireSlice n => sendOrder c (.retireSlice n none) s

/-- The logical index whose step a cluster reruns on the spare at a position (step 6 of Fencing a core in service). -/
def rerunAt (k : Cluster) (p : Nat) : Option Nat := k.rerun.find? (fun l => k.phys l == some p)

/-- FAULT_REPORT (steps 1 and 2 of Fencing a core in service): the report reaches the management processor, which decides. A spare
that faults in the rerun of step 6 is fenced at once by its cluster controller (R115). -/
def execFaultReport (cluster position addr : Nat) (decision : Decision) (s : State) : Host.Outcome State Fault Refusal :=
  let e : EvRec := { kind := 2, source := cluster, wher := BitVec.ofNat 64 addr, detail := BitVec.ofNat 64 position }
  let t := logRecord e s
  needs (s.on && cluster < Config.clusters)
    (match rerunAt (s.cluster cluster) position with
      | some l => fenceIndex cluster position l t
      | none => sendDecision cluster decision t) s

/-- A cluster in service is taken out of it. -/
def failCluster (s : State) (c : Nat) : State := if (s.cluster c).state == .out then s else outOfService c s

/-- CLUSTER_UNIT_FAULT (R119). -/
def execClusterUnitFault (c : Nat) (s : State) : Host.Outcome State Fault Refusal :=
  needs (s.on && c < Config.clusters) (failCluster s c) s

/-- ROUTER_FAULT: every cluster of the die is taken out of service. -/
def execRouterFault (die : Nat) (s : State) : Host.Outcome State Fault Refusal :=
  needs (s.on && die < 4) ((List.range 64).foldl (fun s i => failCluster s (64 * die + i)) s) s

/-- The outcome of a cluster's test (R965, step 3). -/
def testCluster (c : Nat) (passed : Bool) (s : State) : State :=
  let r := (s.cluster c).testReply
  let s := s.modCluster c (fun k => { k with testing := false, testReply := none, state := if passed then .idle else .out })
  let s := if passed then s else logEvent 8 c 0 0 (cluEvent c 4 s)
  sendResult c (.tested c passed r) s

/-- CLUSTER_TEST_ORDER. -/
def execClusterTestOrder (c : Nat) (passed : Bool) (s : State) : Host.Outcome State Fault Refusal :=
  needs (s.on && (s.cluster c).testing) (testCluster c passed s) s

/-- A launch has a cluster on a die; the hub crossbar serves every launch (R652). -/
def Launch.onDie (ln : Launch) (die : Nat) : Bool := die = 4 || (!ln.barrier && ln.clusterList.any (fun c => c / 64 = die))

/-- A launch is aborted: its clusters wait for no acknowledgement and no transaction any more. -/
def abortLaunch (s : State) (ln : Launch) : State :=
  ln.clusterList.foldl (fun s c => if (s.cluster c).launch = some ln.id then
      s.modCluster c (fun k => { k with cores := k.cores.map (fun e => (e.1, { e.2 with acks := 0, sent := [], waiting := [] })) })
      else s) (stopLaunch ln.id 0x102 s)

/-- ABORT_ORDER (R652): the launches that a dropped packet may concern end with UNIT_UNAVAILABLE. -/
def execAbortOrder (die : Nat) (s : State) : Host.Outcome State Fault Refusal :=
  needs (s.on && nextOrder s = some (.abort die))
    ((s.disp.launches.filter (fun l => l.onDie die)).foldl abortLaunch (takeNext s)) s

/-- RAMP_BEGIN (R96, R958). -/
def execRampBegin (s : State) : Host.Outcome State Fault Refusal :=
  needs (s.on && mayRamp s) (stepOp 1 2 0 { s with mgmt := { s.mgmt with ramping := true } }) s

/-- RAMP_END (R959). -/
def execRampEnd (s : State) : Host.Outcome State Fault Refusal := needs (s.on && s.mgmt.ramping) (endRamp s) s

end Sys2Proof.Machine
end

