-- ==== Sys2Proof/Machine/Power.lean ====
section
/-! DEFINITION. Power-good, the reset input and cold power-up (file 14, R1042 to R1054, R1067; file 12, R966), the function-level
reset (R964, R966, R967, R970), and the start-up of the loader (R1008, R1052). -/

namespace Sys2Proof.Machine

/-! ## Cold power-up and the reset input (R966) -/

/-- What keeps its content when the device loses all its state: fuses, pins, the test port, the number of LINK_EPOCHs chosen,
and what stands outside the package. Core and stacked memory are poison, GDDR7 is uninitialised, expanders are unwritten
memory (R581, R543, R1081); every register is at its reset value. -/
def State.cleared (s : State) : State :=
  { pending := s.pending, out := s.out, free := s.free, fuses := s.fuses, tap := s.tap
    board := { s.board with power := .down, temps := [0, 0, 0, 0, 0], supplies := [0, 0, 0, 0, 0], powers := [0, 0, 0, 0, 0] }
    mem := { host := s.mem.host, hostPoison := s.mem.hostPoison, peer := s.mem.peer, peerPoison := s.mem.peerPoison }
    silk := { epochs := s.silk.epochs } }

/-- The device leaves power-good; blowing of fuses stops (R1018). -/
def powerDown (s : State) : State := if s.on then (stopFuses s).cleared else s

/-- The level of RESET_N is low until the next power-good. -/
def assertReset (s : State) : State := { s with board := { s.board with resetLow := true } }

/-- RESET_INPUT (R1047): an assertion of ns nanoseconds; one below 10 µs may act or not. -/
def execResetInput (ns : Nat) (s : State) : Host.Outcome State Fault Refusal :=
  if 10000 ≤ ns then .next (assertReset (powerDown s))
  else if Config.freeBool s.free then .next (powerDown (drawn 1 s))
  else .next (drawn 1 s)

/-- REFCLK_LOSS (R1045). -/
def execRefclkLoss (ns : Nat) (s : State) : Host.Outcome State Fault Refusal := needs (1000 < ns) (powerDown s) s

/-- An input rail is lost: straps and test port hold nothing (R1042, R1069). -/
def loseRail (s : State) : State := { s with tap := {}, board := { s.board with straps := {} } }

/-- COLD_POWER_UP (R1054): a rail out of tolerance for ns nanoseconds, or a regulator out of regulation. -/
def execColdPowerUp (ns : Nat) (regulator : Bool) (s : State) : Host.Outcome State Fault Refusal :=
  if regulator then .next (powerDown s) else needs (1000 < ns) (loseRail (powerDown s)) s

/-- THERMAL_TRIP (R1067): a sensor reads eighths of a degree. -/
def execThermalTrip (sensor : Nat) (eighths : Int) (s : State) : Host.Outcome State Fault Refusal :=
  needs (sensor < 5 && 1000 ≤ eighths) (powerDown s) s

/-! ## POWER_GOOD -/

/-- Q of the unit (R1007). -/
def publicKey (f : Fuses) : Nat × Nat := (curveMul (identityKey f.identitySeed) curveG).getD (0, 0)

/-- The loader trains the host link on OE16, without laser light there on OE17 (R1052).
DEDUCED, log entry 72: no laser light on OE16 and OE17 leaves the host link down. -/
def trainHost (width speed : Nat) (s : State) : State :=
  if s.board.laserOk.getLsbD 16 then
    { s with hostp := { s.hostp with linkUp := width != 0, width := width, speed := speed, engine := 16 } }
  else if s.board.laserOk.getLsbD 17 then
    hostEvent 1 { s with
      hostp := { s.hostp with linkUp := width != 0, width := width, speed := speed, engine := 17 }
      mgmt := { s.mgmt with oe17 := some 16 } }
  else s

/-- Steps 2 and 3 of power-up. -/
def powerUp (straps : Straps) (s : State) : State :=
  let t := s.cleared
  let q := publicKey s.fuses
  { t with
    board := { t.board with power := .good, straps := straps, resetLow := false }
    tap := if straps.complyEn then t.tap else {}
    mgmt := { t.mgmt with keyX := BitVec.ofNat 384 q.1, keyY := BitVec.ofNat 384 q.2 } }

/-- POWER_GOOD (R1046, R1049 to R1053): strap levels, and the lanes and the speed to which the host link trains.
DEDUCED, log entry 74: the only stop: RSVD_A or RSVD_B high at power-good. -/
def execPowerGood (boostEn complyEn rsvdA rsvdB : Bool) (width speed : Nat) (s : State) : Host.Outcome State Fault Refusal :=
  if s.on then .next s
  else if rsvdA || rsvdB then .fault .reservedStrap
  else .next (trainHost (min width 8) (speed % 4)
    (powerUp { boostEn := boostEn, complyEn := complyEn, rsvdA := false, rsvdB := false } s))

/-! ## Function-level reset -/

/-- The mailbox pair after its flush; an attestation report stays (R947). -/
def Box.restart (b : Box) : Box := { nonce := b.nonce, report := b.report }

/-- An order whose requester has been flushed. -/
def Order.silent : Order → Order
  | .fence p _ => .fence p none
  | .retireSlice sl _ => .retireSlice sl none
  | .reset c _ => .reset c none
  | .test _ => .test none
  | o => o

/-- A report whose requester has been flushed. -/
def Result.silent : Result → Result
  | .order c code _ => .order c code none
  | .restarted c newFw _ => .restarted c newFw none
  | .tested c passed _ => .tested c passed none
  | r => r

def Pkt.silent (k : Pkt) : Pkt :=
  match k.payload with
  | .order o => { k with payload := .order o.silent }
  | .result r => { k with payload := .result r.silent }
  | _ => k

/-- An order or a report of a drain. -/
def Pkt.ofDrain (k : Pkt) : Bool :=
  match k.payload with
  | .order (.drainChannel _) => true
  | .order (.retireChannel _ _) => true
  | .order .drainDevice => true
  | .order (.removeDevice _ _) => true
  | .result (.draining _ _) => true
  | _ => false

/-- Packets on their way stay (R679), but for orders and reports of drains, which are discarded (R552, R562). -/
def Net.flr (n : Net) : Net :=
  { n with fifos := (n.fifos.map (fun e => (e.1, (e.2.filter (fun k => !k.ofDrain)).map Pkt.silent))).filter (fun e => !e.2.isEmpty) }

/-- A cluster whose launch has ended without a completion; TRACE_LEVEL is 0. -/
def Cluster.flr (k : Cluster) : Cluster :=
  { k.release with trace := [], testReply := none, orders := k.orders.map Order.silent }

/-- Launches, runs and loads end without completion entries; nothing of them is left. -/
def endAll (s : State) : State :=
  let s := withdraw (fun r => !r.who.isMantis) s
  { s with
    runs := [], loads := [], clusters := s.clusters.map (fun e => (e.1, e.2.flr)), net := s.net.flr, trace := {}
    disp := { nextLaunch := s.disp.nextLaunch }, mem := { s.mem with badWords := [] } }

/-- The HOSTP block at its reset values; the link stays up. -/
def Hostp.flr (h : Hostp) : Hostp :=
  { linkUp := h.linkUp, width := h.width, speed := h.speed, engine := h.engine, moving := h.moving, aer := h.aer }

/-- The SILK block: RW fields at their reset values, links, device number, sync role and pair mode kept; the lost state of
peers ends (R743). -/
def Silk.flr (k : Silk) : Silk :=
  { k with timeout := 1000, winBase := [], winLimit := [], routes := [], routeNext := [], lost := [], strikes := [] }

/-- Drains are discarded: the channels and the devices stay in service (R552, R562). -/
def discardDrains (s : State) : State :=
  let s := { s with
    gdc := s.gdc.map (fun (e : Nat × Gdc) => (e.1, { e.2 with draining := 0#4 }))
    cxlp := s.cxlp.map (fun (e : Nat × Cxlp) => (e.1, { e.2 with state := if e.2.state = CxlState.draining then CxlState.active else e.2.state })) }
  match s.mgmt.link with
  | some (.retireChannel _ _) => endLink false 0 s
  | some (.removeExpander _ _) => endLink false 0 s
  | _ => s

/-- A sanitise ends after step 2 has been repeated (R970). -/
def endSanitise (s : State) : State :=
  if !s.mgmt.sanitising then s else
  let s := wipe { s with mgmt := { s.mgmt with sanitising := false, sanStep := 0 } }
  endOp 3 false s.mgmt.sanFailed s

/-- A boot returns to its step 1, an update in steps 1 to 3 is abandoned (Boot from the host, R964). -/
def abandonUpload (s : State) : State :=
  let m := s.mgmt
  let booting := m.state = 0 || m.state = 1
  { s with mgmt := { m with
      upload := none, updating := m.updating && m.newImage.isSome, state := if booting then 0 else m.state
      image := if booting then none else m.image, fwVersion := if booting then 0 else m.fwVersion } }

/-- FUNCTION_LEVEL_RESET. The dispatcher rolls back migrations and restarts contexts by the tables as they stand (R610, R278,
R420, R1087), then its blocks and MEMC take their reset values.
DEDUCED, log entry 62: order of effects of a function-level reset; retirements end, other link operations go on. -/
def functionReset (s : State) : State :=
  let s := stopFuses s
  let s := s.memc.moves.foldl (fun s m => rollBack m s) s
  let s := discardDrains (endAll (restartContexts s))
  let s := { s with memc := { redirect := s.memc.redirect }, hostp := s.hostp.flr, silk := s.silk.flr }
  let s := abandonUpload (endSanitise s)
  sendSummary { s with mgmt := { s.mgmt with
    sanitised := false, boxes := s.mgmt.boxes.map (fun e => (e.1, e.2.restart)) } }

def execFunctionLevelReset (s : State) : Host.Outcome State Fault Refusal := needs s.host (functionReset s) s

end Sys2Proof.Machine
end

