-- ==== Sys2Proof/Machine/RegWrites.lean ====
section
/-! DEFINITION. Writes of registers by the access types of their fields (file 00, R40 to R44), block by block, and the host
accesses of BAR0 and BAR2 (file 10, R792 to R800; file 07, R1080). -/

namespace Sys2Proof.Machine

/-- A write to one slot of eight bytes: the data, and ones where bytes are written.
DEDUCED, log entry 47: half writes, several bits of MGMT_MB_CTL, and program writes to BAR0-only pages. -/
structure SlotWrite where
  v : Word
  m : Word
  deriving DecidableEq, Repr

/-- RW bits f of a 64-bit register after the write. -/
def SlotWrite.rw (w : SlotWrite) (old f : Word) : Word := (old &&& ~~~(w.m &&& f)) ||| (w.v &&& w.m &&& f)

/-- The ones written: what W1C bits are cleared. -/
def SlotWrite.ones (w : SlotWrite) : Word := w.v &&& w.m

def SlotWrite.low (w : SlotWrite) : Word32 := w.v.setWidth 32
def SlotWrite.high (w : SlotWrite) : Word32 := (w.v >>> 32).setWidth 32

/-- The low or high 32-bit register of the slot is written. -/
def SlotWrite.hitsLow (w : SlotWrite) : Bool := w.m.setWidth 32 != 0#32
def SlotWrite.hitsHigh (w : SlotWrite) : Bool := (w.m >>> 32).setWidth 32 != 0#32

/-- A 32-bit W1C register in the low half after the write. -/
def SlotWrite.w1c (w : SlotWrite) (old : Word32) : Word32 := Sys2Proof.Machine.w1c old (w.ones.setWidth 32)

/-- A counter register after the write. -/
def SlotWrite.ovf (w : SlotWrite) (c : Counter) : Counter := c.clear w.ones

/-! ## Blocks that programs also write -/

def writeClu (c off : Nat) (w : SlotWrite) (s : State) : State :=
  if off = 0x18 then s.modCluster c (fun k => { k with events := w.w1c k.events }) else s

/-- W1C fields of a CORE block (R512); a register of an unbacked index holds nothing (R511). -/
def Core.written (k : Core) (off : Nat) (w : SlotWrite) : Core :=
  match off with
  | 0x08 => { k with events := w.w1c k.events }
  | 0x10 => { k with ops := w.ovf k.ops }
  | 0x18 => { k with fieldHs := w.ovf k.fieldHs }
  | 0x20 => { k with flipHs := w.ovf k.flipHs }
  | 0x28 => { k with vectorHs := w.ovf k.vectorHs }
  | 0x30 => { k with streamHs := w.ovf k.streamHs }
  | 0x38 => { k with recompute := w.ovf k.recompute }
  | _ => k

def writeCore (c l off : Nat) (w : SlotWrite) (s : State) : State :=
  if s.lcores ≤ l || ((s.cluster c).phys l).isNone then s else s.modCore c l (fun k => k.written off w)

def Trace.written (t : Trace) (off : Nat) (w : SlotWrite) : Trace :=
  match off with
  | 0x00 => { t with records := w.ovf t.records }
  | 0x08 => { t with gaps := w.ovf t.gaps }
  | 0x10 => { t with lost := w.ovf t.lost }
  | 0x18 => { t with events := w.w1c t.events }
  | _ => t

def Pace.written (p : Pace) (off : Nat) (w : SlotWrite) : Pace :=
  match off with
  | 0x10 => { p with executions := w.ovf p.executions }
  | 0x18 => { p with slips := w.ovf p.slips }
  | 0x20 => { p with slipTicks := w.ovf p.slipTicks }
  | 0x28 => { p with events := w.w1c p.events }
  | _ => p

def Ent.written (e : Ent) (off : Nat) (w : SlotWrite) : Ent :=
  match off with
  | 0x08 => { e with requests := w.ovf e.requests }
  | 0x10 => { e with reseeds := w.ovf e.reseeds }
  | 0x18 => { e with windows := w.ovf e.windows }
  | 0x28 => { e with events := w.w1c e.events }
  | _ => e

/-- Fields of MEMC without an effect of their own. -/
def Memc.written (m : Memc) (off : Nat) (w : SlotWrite) : Memc :=
  match off with
  | 0x00 => { m with astabBase := w.rw m.astabBase 0x000FFFFFFFFFF001#64 }
  | 0x18 => { m with ignored := m.ignored && !w.ones.getLsbD 1 }
  | 0x28 => { m with fault := m.fault &&& ~~~(w.ones &&& 0x8000000000000000#64) }
  | 0x38 => { m with poison := w.ovf m.poison }
  | 0x40 => { m with recompute := w.ovf m.recompute }
  | 0x48 => { m with migrations := w.ovf m.migrations }
  | 0x50 => { m with events := w.w1c m.events }
  | _ => m

def writeMemc (off : Nat) (w : SlotWrite) (s : State) : State :=
  if off = 0x08 then writeInvalVa (w.rw s.memc.invalVa (BitVec.allOnes 64)) s
  else if off = 0x10 then (if w.hitsLow then writeInval w.low s else s)
  else if off = 0x20 then (if w.hitsLow then writeMigHold w.low s else s)
  else { s with memc := s.memc.written off w }

def Gdc.written (g : Gdc) (off : Nat) (w : SlotWrite) : Gdc :=
  match off with
  | 0x08 => { g with crc := w.ovf g.crc }
  | 0x10 => { g with ecc := w.ovf g.ecc }
  | 0x18 => { g with poison := w.ovf g.poison }
  | 0x20 => { g with events := w.w1c g.events }
  | _ => g

def Cxlp.written (x : Cxlp) (off : Nat) (w : SlotWrite) : Cxlp :=
  match off with
  | 0x10 => { x with poison := w.ovf x.poison }
  | 0x18 => { x with events := w.w1c x.events }
  | _ => x

def Port.written (x : Port) (off : Nat) (w : SlotWrite) : Port :=
  match off with
  | 0x08 => { x with retries := w.ovf x.retries }
  | 0x10 => { x with crc := w.ovf x.crc }
  | 0x18 => { x with events := w.w1c x.events }
  | _ => x

/-- Fields of SILK outside the ports and the routes. -/
def Silk.written (k : Silk) (off : Nat) (w : SlotWrite) : Silk :=
  match off with
  | 0x08 => { k with timeout := (w.rw (k.timeout.setWidth 64) 0xFFFFF#64).setWidth 32 }
  | 0x18 => { k with pairMismatch := k.pairMismatch && !w.ones.getLsbD 2 }
  | 0x20 => { k with events := w.w1c k.events }
  | 0x28 => { k with lostDevice := k.lostDevice &&& ~~~(w.ones.setWidth 32 &&& 0x80000000#32) }
  | 0x30 => { k with late := w.ovf k.late }
  | 0x38 => { k with rejects := w.ovf k.rejects }
  | _ =>
    if 0x100 ≤ off && off < 0x200 then
      let n := (off - 0x100) / 16
      if off % 16 = 0 then { k with winBase := mapSet k.winBase n (w.rw (mapGet 0#64 k.winBase n) 0x000FFFFFFFFFF003#64) }
      else { k with winLimit := mapSet k.winLimit n (w.rw (mapGet 0#64 k.winLimit n) 0x000FFFFFFFFFF000#64) }
    else k

def writeSilk (off : Nat) (w : SlotWrite) (s : State) : State :=
  if 0x800 ≤ off && off < 0xB00 then
    let p := (off - 0x800) / 0x40
    s.setPort p ((s.portOf p).written (off % 0x40) w)
  else if 0x2000 ≤ off && off < 0x6000 then
    let n := (off - 0x2000) / 4
    let s := if w.hitsLow then writeRoute n (w.low.setWidth 12) s else s
    if w.hitsHigh then writeRoute (n + 1) (w.high.setWidth 12) s else s
  else { s with silk := s.silk.written off w }

/-! ## The first 32 MiB of BAR0, which only the host writes (R865, R871, R933) -/

def Hostp.written (h : Hostp) (off : Nat) (w : SlotWrite) : Hostp :=
  match off with
  | 0x10 => { h with aperture := w.rw h.aperture 0x000FFFFFC0000000#64 }
  | 0x18 => { h with regwin := (w.rw (h.regwin.setWidth 64) 0x7#64).setWidth 32 }
  | 0x20 => { h with events := w.w1c h.events }
  | _ => h

def Disp.written (d : Disp) (off : Nat) (w : SlotWrite) : Disp :=
  match off with
  | 0x00 => { d with qtabBase := w.rw d.qtabBase 0x000FFFFFFFFFF001#64 }
  | 0x08 => { d with qctlRefused := d.qctlRefused && !w.ones.getLsbD 33 }
  | 0x18 => { d with events := w.w1c d.events }
  | 0x20 => { d with launchCount := w.ovf d.launchCount }
  | 0x28 => { d with refusalCount := w.ovf d.refusalCount }
  | 0x30 => { d with cycleCount := w.ovf d.cycleCount }
  | _ => d

def writeDisp (off : Nat) (w : SlotWrite) (s : State) : State :=
  if 0x800 ≤ off && off < 0xC00 then
    let g := (off - 0x800) / 4
    let s := if w.hitsLow then setOwner g w.low s else s
    if w.hitsHigh then setOwner (g + 1) w.high s else s
  else
    let s := { s with disp := s.disp.written off w }
    if off = 0x08 && w.hitsLow then queueControl w.low s else s

/-- Bytes of the MSI-X table; the pending-bit array is not written (R791; PRESUMED, log entry 18). -/
def writeMsix (o : Nat) (w : SlotWrite) (s : State) : State :=
  let put := fun (m : Map Byte) i => if w.m.getLsbD (8 * i) then mapSet m (o + i) (BitVec.ofNat 8 (w.v.toNat / 2 ^ (8 * i))) else m
  { s with hostp := { s.hostp with msix := (List.range 8).foldl put s.hostp.msix } }

def writeDoorbell (q off : Nat) (w : SlotWrite) (s : State) : State :=
  if !w.hitsLow then s else
  match off with
  | 0x00 => ringTail q w.low s
  | 0x08 => ringHead q w.low s
  | 0x10 => ringArm q (w.low.getLsbD 0) s
  | 0x20 => if w.low.getLsbD 3 then clearIgnored q s else s
  | _ => s

/-- A sync page: a write of half of VALUE takes the other half as it stands. -/
def writeSync (off : Nat) (w : SlotWrite) (s : State) : State :=
  let n := off / 16
  if off % 16 = 0 then syncRaise n (w.rw (s.sync n).value (BitVec.allOnes 64)) s
  else if w.ones.getLsbD 0 then syncClear n s else s

/-- A mailbox pair (R935, R971); a request word is written whole, the bytes of a 32-bit write being completed by zero. -/
def writeBox (m off : Nat) (w : SlotWrite) (s : State) : State :=
  match off with
  | 0x00 => s.setBox m ((s.box m).append w.ones)
  | 0x08 => if w.hitsLow then mailControl m w.low s else s
  | _ => s

def writeMgmt (off : Nat) (w : SlotWrite) (s : State) : State :=
  if off < 0x800 then writeBox (off / 0x100) (off % 0x100) w s
  else if off = 0x1010 then { s with mgmt := { s.mgmt with events := w.w1c s.mgmt.events } }
  else if off = 0x1018 then { s with mgmt := { s.mgmt with eventLost := w.ovf s.mgmt.eventLost } }
  else s

def writeBar (o : Nat) (w : SlotWrite) (s : State) : State :=
  if o < 0x10000 then { s with hostp := s.hostp.written o w }
  else if o < 0x20000 then writeDisp (o - 0x10000) w s
  else if o < 0x28000 then writeMsix o w s
  else if 0x30000 ≤ o && o < 0x40000 then writeMgmt (o - 0x30000) w s
  else if 0x100000 ≤ o && o < 0x200000 then writeSync (o - 0x100000) w s
  else if 0x1000000 ≤ o && o < 0x2000000 then writeDoorbell ((o - 0x1000000) / 0x1000) (o % 0x1000) w s
  else s

/-! ## The register region -/

/-- A write to a slot of the register region. -/
def writeSlot (src : Source) (a : Nat) (w : SlotWrite) (s : State) : State :=
  let o := a - Config.regBase
  if o < 0x1000000 then s
  else if o < 0x2000000 then writeClu ((o - 0x1000000) / 0x10000) (o % 0x10000) w s
  else if o < 0x2800000 then { s with pace := s.pace.written (o - 0x2000000) w }
  else if o < 0x3000000 then { s with trace := s.trace.written (o - 0x2800000) w }
  else if o < 0x3400000 then writeCore ((o - 0x3000000) / 0x4000) (o % 0x4000 / 0x100) (o % 0x100) w s
  else if o < 0x4000000 then s
  else if o < 0x4800000 then writeMemc (o - 0x4000000) w s
  else if o < 0x4801000 then s.setGdc ((o - 0x4800000) / 0x100) ((s.gdcOf ((o - 0x4800000) / 0x100)).written (o % 0x100) w)
  else if 0x5000000 ≤ o && o < 0x5000400 then
    s.setCxl ((o - 0x5000000) / 0x100) ((s.cxlOf ((o - 0x5000000) / 0x100)).written (o % 0x100) w)
  else if 0x5800000 ≤ o && o < 0x6000000 then writeSilk (o - 0x5800000) w s
  else if 0x6000000 ≤ o && o < 0x8000000 then (if src = .host then writeBar (o - 0x6000000) w s else s)
  else if 0x8000000 ≤ o && o < 0x8001000 then { s with ent := s.ent.written (o - 0x8000000) w }
  else s

/-- An aligned write of 4 or 8 bytes, as a write of its slot. -/
def slotWrite (a size : Nat) (v : Word) : SlotWrite :=
  if size = 8 then { v := v, m := BitVec.allOnes 64 }
  else if a % 8 = 0 then { v := v, m := 0xFFFFFFFF#64 }
  else { v := v <<< 32, m := 0xFFFFFFFF00000000#64 }

def goodAccess (a size : Nat) : Bool := (size = 4 || size = 8) && a % size = 0

/-- A register write that a source makes at an address of the register region. -/
def writeReg (src : Source) (a size : Nat) (v : Word) (s : State) : State :=
  if Config.regBase ≤ a && a < Config.regBase + Config.regSize then writeSlot src (a / 8 * 8) (slotWrite a size v) s else s

/-! ## Commands -/

/-- BAR0_BAD_ACCESS (R792). -/
def execBar0BadAccess (write : Bool) (offset size : Nat) (s : State) : Host.Outcome State Fault Refusal :=
  needs (s.host && !goodAccess offset size) (badAccess write offset size s) s

/-- REGISTER_WRITE: of the host at an offset of BAR0, of a program at a local physical address. -/
def execRegisterWrite (source : Source) (addr size : Nat) (value : Word) (s : State) : Host.Outcome State Fault Refusal :=
  match source with
  | .host =>
    if !s.host || 0x4000000 ≤ addr then .next s
    else if !goodAccess addr size then .next (badAccess true addr size s)
    else .next (writeReg .host (barAddr s addr) size value s)
  | .program => needs (s.on && goodAccess addr size) (writeReg .program addr size value s) s

/-- The place behind a host access through BAR2 (R795, R797): every 4 KiB unit lies in stacked, GDDR7 or CXL memory and in
no area of R524. -/
def apertureOpen (s : State) (a n : Nat) : Bool :=
  !reservedArea a n && (List.range ((a + n - 1) / 4096 - a / 4096 + 1)).all (fun i =>
    match placeOf s ((a / 4096 + i) * 4096) with
    | .stacked _ _ _ => true
    | .gddr _ _ => true
    | .cxl _ _ => true
    | _ => false)

/-- An access through BAR2 that is not performed (R797). -/
def apertureAbort (write : Bool) (a : Nat) (s : State) : State :=
  let s := hostEvent 2 (logAer (.apertureAbort write a) s)
  if write then s else s.emit .completerAbort

def apertureAddr (s : State) (offset : Nat) : Nat := s.hostp.aperture.toNat + offset

/-- What a host read through BAR2 answers (R796). -/
def apertureRead (a n : Nat) (s : State) : State :=
  if !apertureOpen s a n then apertureAbort false a s else
  match physRead s a n with
  | none => apertureAbort false a s
  | some ts =>
    let s := if anyPoison ts then hostEvent 3 s else s
    (noteDelivered a n s).emit (.readData (plain ts) (anyPoison ts))

/-- APERTURE_READ. -/
def execApertureRead (offset size : Nat) (s : State) : Host.Outcome State Fault Refusal :=
  needs (s.host && 0 < size && offset + size ≤ s.hostp.bar2Size) (apertureRead (apertureAddr s offset) size s) s

/-- What a host write through BAR2 does (R796, R797, R1080). -/
def apertureWrite (a : Nat) (data : List Byte) (poisoned : Bool) (s : State) : State :=
  let s := if poisoned then hostEvent 4 s else s
  if apertureOpen s a data.length then physWrite s a (tagged data poisoned) else apertureAbort true a s

/-- APERTURE_WRITE. -/
def execApertureWrite (offset : Nat) (data : List Byte) (poisoned : Bool) (s : State) : Host.Outcome State Fault Refusal :=
  needs (s.host && !data.isEmpty && offset + data.length ≤ s.hostp.bar2Size)
    (apertureWrite (apertureAddr s offset) data poisoned s) s

def execSqTailWrite (q : Nat) (v : Word32) (s : State) : Host.Outcome State Fault Refusal :=
  needs (s.host && q < 4096) (ringTail q v s) s

def execCqHeadWrite (q : Nat) (v : Word32) (s : State) : Host.Outcome State Fault Refusal :=
  needs (s.host && q < 4096) (ringHead q v s) s

def execCqArmWrite (q : Nat) (arm : Bool) (s : State) : Host.Outcome State Fault Refusal :=
  needs (s.host && q < 4096) (ringArm q arm s) s

/-- QUEUE_ENABLE: GO with OP 1. -/
def execQueueEnable (q : Nat) (s : State) : Host.Outcome State Fault Refusal :=
  needs (s.host && q < 4096) (queueControl (BitVec.ofNat 32 (2 ^ 31 + 2 ^ 12 + q)) s) s

/-- QUEUE_DISABLE: GO with OP 2. -/
def execQueueDisable (q : Nat) (s : State) : Host.Outcome State Fault Refusal :=
  needs (s.host && q < 4096) (queueControl (BitVec.ofNat 32 (2 ^ 31 + 2 ^ 13 + q)) s) s

def execSyncValueWrite (n : Nat) (v : Word) (s : State) : Host.Outcome State Fault Refusal :=
  needs (s.host && n < 65536) (syncRaise n v s) s

def execSyncOwnerWrite (g : Nat) (v : Word32) (s : State) : Host.Outcome State Fault Refusal :=
  needs (s.host && g < 256) (setOwner g v s) s

/-- A GO of MEMC_INVAL with a scope. -/
def invalGo (asid : BitVec 12) (scope : Nat) : Word32 := BitVec.ofNat 32 (2 ^ 31 + 2 ^ 12 * scope + asid.toNat)

def execInvalPage (asid : BitVec 12) (s : State) : Host.Outcome State Fault Refusal :=
  needs s.on (writeInval (invalGo asid 0) s) s

def execInvalAddressSpace (asid : BitVec 12) (s : State) : Host.Outcome State Fault Refusal :=
  needs s.on (writeInval (invalGo asid 1) s) s

def execInvalAll (asid : BitVec 12) (s : State) : Host.Outcome State Fault Refusal :=
  needs s.on (writeInval (invalGo asid 2) s) s

def execInvalReservedScope (asid : BitVec 12) (s : State) : Host.Outcome State Fault Refusal :=
  needs s.on (writeInval (invalGo asid 3) s) s

/-- INVALIDATION_COMPLETE (R576). -/
def execInvalidationComplete (s : State) : Host.Outcome State Fault Refusal := needs s.on (endInval s) s

/-- A write of MEMC_MIG_HOLD. -/
def migHoldWord (asid : BitVec 12) (all hold : Bool) : Word32 :=
  BitVec.ofNat 32 (asid.toNat + 2 ^ 12 * natOfBool all + 2 ^ 13 * natOfBool hold)

def execMigHoldRequest (asid : BitVec 12) (all : Bool) (s : State) : Host.Outcome State Fault Refusal :=
  needs s.on (writeMigHold (migHoldWord asid all true) s) s

def execMigHoldRelease (asid : BitVec 12) (all : Bool) (s : State) : Host.Outcome State Fault Refusal :=
  needs s.on (writeMigHold (migHoldWord asid all false) s) s

/-- MIG_HOLD_HELD (R618). -/
def execMigHoldHeld (s : State) : Host.Outcome State Fault Refusal :=
  needs (s.on && s.memc.migHold.getLsbD 13 && s.memc.moves.all (fun m => !s.memc.holds m.asid))
    { s with memc := { s.memc with held := true } } s

def execSilkRouteWrite (n : Nat) (ports : BitVec 12) (s : State) : Host.Outcome State Fault Refusal :=
  needs (s.on && n < 4096) (writeRoute n ports s) s

def execMbReqWrite (m : Nat) (w : Word) (s : State) : Host.Outcome State Fault Refusal :=
  needs (s.host && m < 8) (s.setBox m ((s.box m).append w)) s

/-- MB_COMMIT; whether a word of the packet fails parity is the environment's (R683, DESIGN CHOICE, log entry 16). -/
def execMbCommit (m : Nat) (poison : Bool) (s : State) : Host.Outcome State Fault Refusal :=
  needs (s.host && m < 8) (mailCommit m poison s) s

def execMbAbort (m : Nat) (s : State) : Host.Outcome State Fault Refusal :=
  needs (s.host && m < 8) (s.setBox m (s.box m).rewind) s

def execMbFlush (m : Nat) (s : State) : Host.Outcome State Fault Refusal :=
  needs (s.host && m < 8) (s.setBox m (s.box m).flush) s

/-- MB_RSP_READ: the word goes to the host (R937). -/
def execMbRspRead (m : Nat) (s : State) : Host.Outcome State Fault Refusal :=
  needs (s.host && m < 8)
    ((s.setBox m (s.box m).read).emit (.readData (leBytes 8 (s.box m).front.toNat) false)) s

/-- MB_RESPONSE_WRITE (R940). -/
def execMbResponseWrite (m : Nat) (s : State) : Host.Outcome State Fault Refusal :=
  needs (s.on && m < 8) (s.setBox m (s.box m).respond) s

end Sys2Proof.Machine
end

