-- ==== Sys2Proof/Machine/Routing.lean ====
section
/-! DEFINITION. How routers move packets and units take them (file 08): ROUTER_PACKET, MCAST_PACKET_ACCEPT and
REDUCTION_PARTIAL_ARRIVAL, with the orders that units receive (file 01, R75, R76). -/

namespace Sys2Proof.Machine

/-! ## A unit takes a packet -/

/-- A cluster controller takes an order (R76, R648): it restarts at once, begins its test, or keeps the order for its next step
boundary. -/
def takeOrder (c : Nat) (k : Pkt) (s : State) : State :=
  match k.payload with
  | .order (.reset _ r) => restartCluster c r s
  | .order (.test r) => s.modCluster c (fun x => { x with testing := true, testReply := r })
  | .order o => s.modCluster c (fun x => { x with orders := x.orders ++ [o] })
  | _ => s

/-- The dispatcher takes an order that no command of its own takes. -/
def takeDispatcher (k : Pkt) (s : State) : Option State :=
  match k.payload with
  | .order (.reset c r) => some (passReset c r s)
  | .order (.removeDevice p base) => some (receiveRemove p base s)
  | _ => none

/-- A memory port takes a request. -/
def takeRequest (q : Nat) (k : Pkt) (s : State) : State := s.setArbiter q ((s.arbiter q).take k)

/-- A GDDR7 controller takes a request or an order. -/
def takeGddr (q : Nat) (k : Pkt) (s : State) : State :=
  match k.payload with
  | .order (.drainChannel ch) => markDraining q ch s
  | _ => takeRequest q k s

/-- A CXL port takes a request or an order. -/
def takeCxl (d : Nat) (k : Pkt) (s : State) : State :=
  match k.payload with
  | .order .addDevices => s.setCxl d { s.cxlOf d with adding := true }
  | .order .drainDevice => markPort d s
  | _ => pumpCxlPort d (takeRequest (16 + d) k s)

/-- A Silk port takes a request or an order. -/
def takeSilk (p : Nat) (k : Pkt) (s : State) : State :=
  match k.payload with
  | .order (.retrainLane lane) => halfWidth p lane s
  | .order (.moveLink e) => stopFrames p e s
  | _ => pumpSilkPort p (takeRequest (20 + p) k s)

/-- The unit behind a router output takes a packet; none where another command takes it: a reduction node's partials, the
records for the management processor, the dispatcher's orders of ABORT_ORDER, CHANNEL_RETIRE_ORDER and PAGE_RETIRE_ORDER. -/
def takePacket (s : State) (node : RNode) (o : Nat) (k : Pkt) : Option State :=
  match node with
  | .core c p => some (deliverCore s c p k)
  | .clu c =>
    if o = 8 then some (takeOrder c k s)
    else if o = 10 then some (serveCrossbar c k s)
    else if o = 11 then (findIdx (fun q => gddrAttach q = c) (List.range 16) 0).map (fun q => takeGddr q k s)
    else none
  | .hub =>
    if o = 0 then takeDispatcher k s
    else if 2 ≤ o && o ≤ 5 then some (takeCxl (o - 2) k s)
    else if 6 ≤ o && o ≤ 17 then some (takeSilk (o - 6) k s)
    else none
  | .bridge _ => none

/-- The head packet of a FIFO moves on: into the output FIFOs of the next router when its input is next there, or into the unit
behind the output. -/
def movePacket (s : State) (n : Nat) (k : Pkt) (bad : BitVec 17) : Option State :=
  let k' := poisonFlits k bad
  match takenBy n with
  | some node =>
    let bs := branches s node k'
    if mayPlace s k' bs && admitsInput s n bs then some (pushAll (noteServed n bs (countBad (popFifo s n) n (badCount k bad))) bs) else none
  | none =>
    match fifoOwner n with
    | some (node, o, _) => takePacket (countBad (popFifo s n) n (badCount k bad)) node o k'
    | none => none

/-- A packet that a command of its own takes: a multicast packet for a router (R664), a partial for a reduction node (R1094). -/
def awaitsCommand (n : Nat) (k : Pkt) : Bool :=
  (k.typ = 5 && (takenBy n).isSome) || (match fifoOwner n with
    | some (.clu _, 9, _) => true
    | _ => false)

/-- The reader of a packet that awaits its command checks its words; those that fail parity keep a poison tag and are counted
(R676; DEDUCED, log entry 82). -/
def readHead (s : State) (n : Nat) (k : Pkt) (bad : BitVec 17) : State :=
  if bad = 0 then s else countBad (s.setFifo n (poisonFlits k bad :: (s.fifo n).tail)) n (badCount k bad)

/-- A router or unit reads a committed packet (ROUTER_PACKET, R635, R643, R646, R647, R652, R657) and takes it. Of a multicast
packet for a router, which MCAST_PACKET_ACCEPT takes, and of a packet for a reduction node, which REDUCTION_PARTIAL_ARRIVAL takes,
it checks the parity only; a record waits for EVENT_RECORD. -/
def execRouterPacket (fifo : Nat) (badMain badCopy : BitVec 8) (badFlits : BitVec 17) (s : State) :
    Host.Outcome State Fault Refusal :=
  match s.fifo fifo with
  | [] => .next s
  | k :: _ =>
    if !s.on || !itsTurn s fifo then .next s
    else if (readRoute k badMain badCopy).isNone then .next (dropPacket s fifo)
    else if awaitsCommand fifo k then .next (readHead s fifo k (badWords badMain badCopy badFlits))
    else .next ((movePacket s fifo k (badWords badMain badCopy badFlits)).getD s)

/-- A router accepts a waiting multicast packet into all its branch buffers at once (R664). -/
def execMcastPacketAccept (fifo : Nat) (s : State) : Host.Outcome State Fault Refusal :=
  match s.fifo fifo, takenBy fifo with
  | k :: _, some _ =>
    if !s.on || !itsTurn s fifo || k.typ != 5 then .next s else .next ((movePacket s fifo k 0).getD s)
  | _, _ => .next s

/-! ## Partials at a reduction node (R202, R474, R475, R660, R1094) -/

/-- The FIFO of a cluster router's output to its reduction node, request channel (R634). -/
def nodeFifo (c : Nat) : Nat := fifoNum (.clu c) 9 1

/-- The acknowledgements of a last packet set out to every source core it covers (R651). -/
def ackSources (s : State) (c : Nat) (k : Pkt) : State :=
  if k.last then pushPort (nodePort c 2) (k.targets.map (ackPkt k .node c k.destIndex)) s else s

/-- A partial that a node combines: of the launch that runs on its cluster (R1096). A poisoned one never reaches an accumulator
(R187); its launch ends with POISON_CONSUMED without a rerun, since no step of the node's cluster can make it good: the spec
names no other effect (DEDUCED, log entry 83). -/
def takePartial (c : Nat) (k : Pkt) (s : State) : State :=
  match (s.cluster c).launch with
  | some id =>
    if id % 65536 != k.launch then s
    else if k.bad then stopLaunch id 0x301 (logEvent 1 c 0 0 (memcPoison s))
    else s.modCluster c (fun x => { x with
      node := mapModify {} x.node k.destIndex (fun t => absorbPartial t (k.srcCluster != c) k) })
  | none => s

/-- A partial arrives at a reduction node (REDUCTION_PARTIAL_ARRIVAL). -/
def execReductionPartialArrival (c : Nat) (s : State) : Host.Outcome State Fault Refusal :=
  let n := nodeFifo c
  match s.fifo n with
  | [] => .next s
  | k :: _ => if !s.on || !itsTurn s n then .next s else .next (takePartial c k (ackSources (popFifo s n) c k))

end Sys2Proof.Machine
end

