-- ==== Sys2Proof/Machine/SilkTxn.lean ====
section
/-! DEFINITION. Silk transactions (file 09): requests of peers at the ingress (R722 to R731), responses to the device's own
transactions and their timeouts (R726, R731, R738 to R744). -/

namespace Sys2Proof.Machine

/-! ## The ingress -/

/-- The local part of a global address. -/
def localPart (g : Nat) : Nat := g % 2 ^ 52

/-- A packet goes to a device by its route, if a port is up (R719, R720). -/
def sendTo (dev : Nat) (k : SilkPkt) (s : State) : State :=
  match egressPort s dev k.addr with
  | some p => emitSilk p k s
  | none => s

/-- The ingress takes requests of peers (R717). -/
def State.ingress (s : State) : Bool := s.on && s.silk.device.isSome

/-- A response packet to a request; STATUS 0 OK, 1 REJECTED. -/
def responsePacket (s : State) (typ src tag addr status : Nat) (last : Bool) : SilkPkt :=
  { typ := typ, vc := 2, status := status, src := s.silk.device.getD 0, dest := src, tag := tag, addr := addr, last := last }

/-- A request is refused (R724).
DEDUCED, log entry 66: malformed requests of peers are refused and counted. -/
def refuse (typ src tag addr : Nat) (last : Bool) (s : State) : State :=
  sendTo src (responsePacket s typ src tag addr 1 last) (countReject s)

/-- The response packets of a read, at most 1 KiB each (R726). -/
def readPackets (s : State) (src tag addr : Nat) (ts : List Tagged) : List SilkPkt :=
  let ps := chunks 1024 ts
  ps.zipIdx.map (fun e => { responsePacket s 2 src tag (addr + 1024 * e.2) 0 (e.2 + 1 == ps.length) with
    length := e.1.length, poisonMap := poisonMapOf e.1, payload := plain e.1 })

/-- A read request that R725 and R726 allow. -/
def readShape (addr length : Nat) : Bool := addr % 64 = 0 && length % 64 = 0 && 64 ≤ length && length ≤ 4096

def performRead (src tag addr length : Nat) (s : State) : State :=
  match (if readShape addr length && ingressAllows s (localPart addr) length false then physRead s (localPart addr) length else none) with
  | none => refuse 2 src tag addr true s
  | some ts => (readPackets s src tag addr ts).foldl (fun s k => sendTo src k s) (noteDelivered (localPart addr) length s)

/-- SILK_READ_REQUEST (R722 to R726). -/
def execSilkReadRequest (src tag : Nat) (addr length : Nat) (s : State) : Host.Outcome State Fault Refusal :=
  needs s.ingress (performRead src tag addr length (peerBack src s)) s

def performWrite (src tag addr : Nat) (data : List Byte) (last : Bool) (s : State) : State :=
  if !data.isEmpty && data.length ≤ 1024 && ingressAllows s (localPart addr) data.length true then
    let s := physWrite s (localPart addr) (untagged data)
    sendTo src { responsePacket s 3 src tag addr 0 last with length := data.length } s
  else refuse 3 src tag addr last s

/-- SILK_WRITE: one packet of a write transaction (R731). -/
def execSilkWrite (src tag : Nat) (addr : Nat) (data : List Byte) (last : Bool) (s : State) : Host.Outcome State Fault Refusal :=
  needs s.ingress (performWrite src tag addr data last (peerBack src s)) s

def performPeerAtomic (src tag kind addr : Nat) (a b : Word) (s : State) : State :=
  if kind < 8 && addr % 8 = 0 && ingressAllows s (localPart addr) 8 true then
    let x := atomicRead s (localPart addr)
    let s := performAtomic kind (localPart addr) a b s
    sendTo src { responsePacket s 5 src tag addr 0 true with
      length := 8, kind := kind, a := x.1, poisonMap := BitVec.ofNat 128 (natOfBool x.2) } s
  else refuse 5 src tag addr true s

/-- SILK_ATOMIC (R728 to R730). -/
def execSilkAtomic (src tag : Nat) (kind : Nat) (addr : Nat) (a b : Word) (s : State) : Host.Outcome State Fault Refusal :=
  needs s.ingress (performPeerAtomic src tag kind addr a b (peerBack src s)) s

/-! ## Responses -/

/-- The poisoned words of response data, as 8-byte words of global addresses. -/
def poisonedWords (g : Nat) (n : Nat) (m : BitVec 128) : List Nat :=
  ((List.range (ceilDiv n 8)).filter m.getLsbD).map (fun i => g / 8 + i)

/-- What the device has last seen of a peer's memory. -/
def showPeer (g : Nat) (data : List Byte) (m : BitVec 128) (s : State) : State :=
  let bad := poisonedWords g data.length m
  let fresh := s.mem.peerPoison.filter (fun w => w < g / 8 || ceilDiv (g + data.length) 8 ≤ w)
  { s with mem := { s.mem with peer := showBytes s.mem.peer g data, peerPoison := bad.foldl setInsert fresh } }

/-- Response data with the tags of its poison map. -/
def mapTagged (data : List Byte) (m : BitVec 128) : List Tagged := data.zipIdx.map (fun e => (e.1, m.getLsbD (e.2 / 8)))

/-- The on-chip packet that carries a response on to the Stream engine that waits for it (R635, R644). -/
def replyFrom (t : Txn) (c l typ : Nat) (g : Nat) (data : List Tagged) (last : Bool) : Pkt :=
  { typ := typ, vc := 2, flits := 1 + ceilDiv data.length 64, last := last, destUnit := .core, destCluster := c, destIndex := l
    srcUnit := .hub, srcIndex := 6 + t.port, txn := t.num, launch := t.launch % 65536, addr := g, length := data.length
    payload := .bytes data, targets := [64 * c + l] }

/-- The word that a barrier's transaction returned, and its poison. -/
def Txn.word (t : Txn) (data : List Byte) (m : BitVec 128) : Nat × Bool :=
  match t.kind with
  | .atomic => (leNat (data.take 8), m.getLsbD 0)
  | _ => (fieldAt data (t.addr - t.base) 8, m.getLsbD ((t.addr - t.base) / 8))

/-- The data of one response packet: that of a Stream engine goes on to its core. -/
def takeData (t : Txn) (data : List Byte) (m : BitVec 128) (last : Bool) (s : State) : State :=
  let g := t.base + t.done
  match t.kind, t.issuer with
  | .read, .stream c l =>
    pushPort (hubPort (6 + t.port) 2) [replyFrom t c l 2 g (mapTagged data m) last] (showPeer g data m s)
  | .read, .unit => showPeer g data m s
  | _, _ => s

/-- The last packet of a transaction has arrived (R726, R731). -/
def endTxn (t : Txn) (data : List Byte) (m : BitVec 128) (s : State) : State :=
  let s := dropTxn t s
  let s := match t.kind with
    | .write => { s with mem := { s.mem with peer := showBytes s.mem.peer t.addr t.data } }
    | _ => s
  let s := match t.issuer, t.kind with
    | .barrier, _ => barrierAnswer t.launch (t.word data m).1 (t.word data m).2 s
    | .stream c l, .write => pushPort (hubPort (6 + t.port) 2) [replyFrom t c l 3 t.addr [] true] s
    | _, _ => s
  afterTxn t s

/-- A packet with STATUS OK. -/
def takeResponse (t : Txn) (data : List Byte) (m : BitVec 128) (last : Bool) (s : State) : State :=
  let s := takeData t data m last s
  if last then endTxn t data m s
  else { s with silk := { s.silk with txns := s.silk.txns.map (fun x =>
      if x.tag = t.tag then { x with done := x.done + data.length } else x) } }

/-- A refused transaction (R744). -/
def refusedTxn (t : Txn) (s : State) : State := afterTxn t (rejected t.launch (closeTxn t s))

/-- The transaction that a response from a device names. -/
def txnOf (s : State) (src tag : Nat) : Option Txn := s.silk.txns.find? (fun t => t.tag = tag && t.device = src)

/-- A response arrives (R738 to R741, R744). -/
def respondTxn (src tag status : Nat) (data : List Byte) (m : BitVec 128) (last : Bool) (s : State) : State :=
  match txnOf s src tag with
  | none => silkCount Silk.late (fun k c => { k with late := c }) 0x30 s
  | some t =>
    match status with
    | 1 => refusedTxn t (unstrike t.device s)
    | 2 => failTxn t (unstrike t.device s)
    | _ => takeResponse t data m last (if last then unstrike t.device s else s)

/-- SILK_RESPONSE: data is the payload of a read response, or the old value that an atomic returns. -/
def execSilkResponse (src tag : Nat) (status : Nat) (data : List Byte) (poisonMap : BitVec 128) (last : Bool) (s : State) :
    Host.Outcome State Fault Refusal :=
  needs s.ingress (respondTxn src tag status data poisonMap last (peerBack src s)) s

/-! ## Timeouts (R739, R742) -/

/-- SILK_TIMEOUT in Cricket ticks (R773). -/
def timeoutTicks (s : State) : Nat := 1000 * max (s.silk.timeout.toNat % 2 ^ 20) 1

/-- A transaction has timed out: the third to a device in succession loses the peer. -/
def timeOut (t : Txn) (s : State) : State :=
  let n := mapGet 0 s.silk.strikes t.device + 1
  let s := { s with silk := { s.silk with strikes := mapSet s.silk.strikes t.device n } }
  failTxn t (if 3 ≤ n && !s.silk.lost.contains t.device then declareLost t.device t.port s else s)

/-- SILK_TRANSACTION_TIMEOUT. -/
def execSilkTransactionTimeout (tag : Nat) (s : State) : Host.Outcome State Fault Refusal :=
  match s.silk.txns.find? (fun t => t.tag = tag) with
  | none => .next s
  | some t => needs (s.on && t.issued + timeoutTicks s ≤ s.now) (timeOut t s) s

end Sys2Proof.Machine
end

