-- ==== Sys2Proof/Machine/StreamOps.lean ====
section
/-! DEFINITION. The Stream engine (file 06, R471 to R475, R484; file 07; file 08, R649 to R667): block moves between
virtual memory and core memory, and the packets of SEND, MCAST and REDUCE. -/

namespace Sys2Proof.Machine

/-! ## The bytes of a tensor -/

/-- The ranges of the element plane and the exponent plane of a tensor, row by row: address and length. -/
def Desc.ranges (d : Desc) (a x : Nat) : List (Nat × Nat) :=
  (List.range d.rows).map (fun r => (a + r * d.rowStride, d.rowBytes)) ++
    (if d.plane then (List.range d.rows).map (fun r => (x + r * d.expStride, d.groups)) else [])

def Desc.coreRanges (d : Desc) : List (Nat × Nat) := d.ranges d.addr d.expAddr

def rangeBytes (rs : List (Nat × Nat)) : Nat := (rs.map (·.2)).sum

/-- Bytes of a tensor (the Bytes of R463). -/
def tensorBytes (s : State) (c i : Nat) : Nat := rangeBytes (s.desc c i).coreRanges

/-- Ranges of core memory as one run of tagged bytes. -/
def readRanges (s : State) (c l : Nat) (rs : List (Nat × Nat)) : List Tagged := rs.flatMap (fun r => coreRead s c l r.1 r.2)

/-- The poisoned words of ranges of core memory. -/
def rangePoison (s : State) (c l : Nat) (rs : List (Nat × Nat)) : List Nat :=
  rs.flatMap (fun r => poisonPlaces (window c l r.1) (coreRead s c l r.1 r.2))

/-! ## LOAD (R463, R577, R583, R727) -/

/-- A range cut into Stream transactions (R381). -/
def cutFuel : Nat → Nat → Nat → List (Nat × Nat)
  | 0, _, _ => []
  | fuel + 1, a, n =>
    if n = 0 then [] else
    let m := min n (4096 - a % 4096)
    (a, m) :: cutFuel fuel (a + m) (n - m)

def cut (a n : Nat) : List (Nat × Nat) := cutFuel (n / 4096 + 2) a n

/-- The transaction of an access through a leaf, of a core whose cluster's crossbar does not reach it (R70, R570). -/
def netTxn (s : State) (ln : Launch) (c l : Nat) (kind : TxnKind) (lf : Leaf) (va n : Nat) : Option Txn :=
  let t : Txn := { kind := kind, device := lf.at va / 2 ^ 52, addr := lf.at va, bytes := n, issuer := .stream c l, launch := ln.id
                   asid := ln.asid, page := va / lf.bytes * lf.bytes, pageBytes := lf.bytes }
  if lf.target = 1 then (if s.silk.device = some (lf.at va / 2 ^ 52) then none else some { t with unit := .hub, unitNo := 6 })
  else if lf.target = 0 then (accessUnit s c (lf.at va)).map (fun u => { t with device := 0, unit := u.1, unitNo := u.2 })
  else none

/-- One transaction of a LOAD: bytes at va land at a core-memory offset; those that come over the on-chip network follow as
they arrive. -/
def loadPiece (ln : Launch) (c l : Nat) (va n off : Nat) (acc : State × List Txn) : Except CoreStop (State × List Txn) :=
  let r := translate c ln.asid va false acc.1
  let s := heatCount c ln.asid va n r.1
  match r.2 with
  | .error e => .error (.halt (.access false (.fault e.1 e.2 va)))
  | .ok lf =>
    if lf.mig then .error (.halt (.access false .held)) else
    let s := throughEgress ln.asid lf va n s
    match netTxn s ln c l .read lf va n with
    | some t => .ok (s, acc.2 ++ [{ t with dest := off }])
    | none =>
      match leafRead s lf va n with
      | .error e => .error (.halt (.access false e))
      | .ok ts =>
        if anyPoison ts then .error (.poison (poisonPlaces (lf.place s va) ts))
        else .ok (coreWrite (readThrough ln.asid lf va n s) c l off ts, acc.2)

def loadPieces (ln : Launch) (c l : Nat) : List ((Nat × Nat) × Nat) → State × List Txn → Except CoreStop (State × List Txn)
  | [], acc => .ok acc
  | p :: ps, acc =>
    match loadPiece ln c l p.1.1 p.1.2 p.2 acc with
    | .error e => .error e
    | .ok acc => loadPieces ln c l ps acc

/-- Ranges that follow one another on both sides of a move are one. -/
def joinRanges : List ((Nat × Nat) × Nat) → List ((Nat × Nat) × Nat)
  | [] => []
  | e :: es =>
    match joinRanges es with
    | [] => [e]
    | f :: fs =>
      if e.1.1 + e.1.2 = f.1.1 && e.2 + e.1.2 = f.2 then ((e.1.1, e.1.2 + f.1.2), e.2) :: fs else e :: f :: fs

/-- The transactions of a move between ranges of equal lengths: the cut of the virtual range (R381), and the other offset. -/
def movePieces (vs cs : List (Nat × Nat)) : List ((Nat × Nat) × Nat) :=
  (joinRanges ((vs.zip cs).map (fun e => (e.1, e.2.1)))).flatMap (fun e => (cut e.1.1 e.1.2).map (fun p => (p, e.2 + (p.1 - e.1.1))))

def execLoad (c : Nat) (s : State) : Host.Outcome State Fault Refusal :=
  engineOp s c 0x30 .stream (fun o => ceilDiv (tensorBytes s c o.d) 64 + 8) (fun ln o s l => do
    let a := s.desc c o.a
    let d ← needDesc s c o.d
    require (a.valid && a.isVirtual && a.sameShape d)
    let va ← planeVas ln a
    let r ← loadPieces ln c l (movePieces (a.ranges va.1 va.2) d.coreRanges) (s, [])
    return startTxns c l r.2 r.1)

/-! ## STORE (R463, R577, R583, R651) -/

/-- One transaction of a STORE. -/
def storePiece (ln : Launch) (c l va off n : Nat) (acc : State × List Txn) : Except CoreStop (State × List Txn) :=
  let r := translate c ln.asid va true acc.1
  let s := heatCount c ln.asid va n r.1
  let ts := coreRead s c l off n
  match r.2 with
  | .error e => .error (.halt (.access true (.fault e.1 e.2 va)))
  | .ok lf =>
    if lf.mig then .error (.halt (.access true .held)) else
    let s := throughEgress ln.asid lf va n s
    match netTxn s ln c l .write lf va n with
    | some t => .ok (s, acc.2 ++ [{ t with data := plain ts }])
    | none =>
      match leafWrite s lf ln.asid va ts with
      | .error e => .error (.halt (.access true e))
      | .ok s => .ok (s, acc.2)

def storePieces (ln : Launch) (c l : Nat) : List ((Nat × Nat) × Nat) → State × List Txn → Except CoreStop (State × List Txn)
  | [], acc => .ok acc
  | p :: ps, acc =>
    match storePiece ln c l p.1.1 p.2 p.1.2 acc with
    | .error e => .error e
    | .ok acc => storePieces ln c l ps acc

def execStore (c : Nat) (s : State) : Host.Outcome State Fault Refusal :=
  engineOp s c 0x31 .stream (fun o => ceilDiv (tensorBytes s c o.a) 64 + 8) (fun ln o s l => do
    let a ← needDesc s c o.a
    let d := s.desc c o.d
    require (d.valid && d.isVirtual && d.sameShape a)
    let va ← planeVas ln d
    let bad := rangePoison s c l a.coreRanges
    if !bad.isEmpty then .error (.poison bad) else
    let r ← storePieces ln c l (movePieces (d.ranges va.1 va.2) a.coreRanges) (s, [])
    return startTxns c l r.2 r.1)

/-! ## SEND and MCAST (R471, R472, R640, R651) -/

/-- The first n bytes of ranges, and the rest. -/
def splitRanges : List (Nat × Nat) → Nat → List (Nat × Nat) × List (Nat × Nat)
  | [], _ => ([], [])
  | r :: rs, n =>
    if n = 0 then ([], r :: rs)
    else if r.2 ≤ n then
      let x := splitRanges rs (n - r.2)
      (r :: x.1, x.2)
    else ([(r.1, n)], (r.1 + n, r.2 - n) :: rs)

/-- Tagged bytes and the ranges they land in, cut into packets of 1 KiB (R640). -/
def packetsFuel : Nat → List Tagged → List (Nat × Nat) → List (List Tagged × List (Nat × Nat))
  | 0, _, _ => []
  | fuel + 1, data, rs =>
    if data.isEmpty then [] else
    let x := splitRanges rs 1024
    (data.take 1024, x.1) :: packetsFuel fuel (data.drop 1024) x.2

/-- The packets of a transfer to cores; targets as 64 * cluster + logical index. -/
def transferPackets (typ c l id tag : Nat) (targets : List Nat) (mask lo hi : Nat) (data : List Tagged)
    (dest : List (Nat × Nat)) : List Pkt :=
  let ps := packetsFuel (data.length / 1024 + 1) data dest
  ps.zipIdx.map (fun e =>
    { typ := typ, vc := 1, flits := 1 + ceilDiv e.1.1.length 64, last := e.2 + 1 == ps.length
      destUnit := .core, destCluster := targets.headD 0 / 64, destIndex := targets.headD 0 % 64
      srcUnit := .core, srcCluster := c, srcIndex := l, txn := tag, launch := id % 65536
      addr := (e.1.2.headD (0, 0)).1, mask := mask, cLo := lo, cHi := hi
      payload := .bytes e.1.1, targets := targets, pieces := e.1.2 })

/-- A Stream engine hands packets to its router and waits for acknowledgements (R651).
DESIGN CHOICE, log entry 23: packet tags are free numbers; Silk tags count from 0. -/
def sendPackets (c l acks : Nat) (ps : List Pkt) (s : State) : State :=
  let port := corePort c (physOf s c l) 1
  let s := s.setFifo port (s.fifo port ++ ps)
  s.modCore c l (fun k => { k with acks := k.acks + acks })

/-- Clusters and indices that a SEND, MCAST or REDUCE may name (R1096). -/
def takesPart (ln : Launch) (c : Nat) : Bool := bit ln.header.clusters c

/-- The destination of R471. -/
def sendShape (a d : Desc) : Bool := d.inCore && d.sameShape a

/-- What SEND and MCAST share: the source is read whole, without poison. -/
def sendData (s : State) (c l : Nat) (o : OpWord) : Except CoreStop (List Tagged × List (Nat × Nat)) := do
  let a ← needDesc s c o.a
  let d := s.desc c o.d
  require (sendShape a d)
  let bad := rangePoison s c l a.coreRanges
  if !bad.isEmpty then .error (.poison bad) else
  return (readRanges s c l a.coreRanges, d.coreRanges)

def execSend (c : Nat) (s : State) : Host.Outcome State Fault Refusal :=
  engineOp s c 0x32 .stream (fun o => ceilDiv (tensorBytes s c o.a) 64 + 8) (fun ln o s l => do
    let v := immOf ln o 0
    require (takesPart ln (bits v 0 8) && bits v 8 6 < ln.header.lcores)
    let x ← sendData s c l o
    return sendPackets c l 1
      (transferPackets 4 c l ln.id (Config.freeNat s.free % 65536) [64 * bits v 0 8 + bits v 8 6] 0 0 0 x.1 x.2) (drawn 1 s))

def execMcast (c : Nat) (s : State) : Host.Outcome State Fault Refusal :=
  engineOp s c 0x33 .stream (fun o => ceilDiv (tensorBytes s c o.a) 64 + 8) (fun ln o s l => do
    let mask := immOf ln o 0
    let r := immOf ln o 1
    let lo := bits r 0 8
    let hi := bits r 8 8
    let cs := (List.range (hi + 1 - lo)).map (fun i => lo + i)
    require (lo ≤ hi && cs.all (takesPart ln) && mask < 2 ^ ln.header.lcores)
    let x ← sendData s c l o
    let targets := cs.flatMap (fun c' => ((List.range 64).filter (bit mask)).map (fun i => 64 * c' + i))
    if targets.isEmpty then return s else
    return sendPackets c l targets.length
      (transferPackets 5 c l ln.id (Config.freeNat s.free % 65536) targets mask lo hi x.1 x.2) (drawn 1 s))

/-! ## REDUCE (R473 to R475, R653 to R655, R1093) -/

/-- The packets of a REDUCE: eight of 32 wide records, or two of 128 FP64 values with NETRED in Open order (R653, R654). -/
def reducePackets (c l id : Nat) (v : Nat) (netred fixed : Bool) (ws : List WideRec) : List Pkt :=
  let open' := netred && !fixed
  let n := if open' then 128 else 32
  (chunks n ws).zipIdx.map (fun e =>
    { typ := 6, vc := 1, flits := 17, netred := netred, fixed := fixed, last := e.2 + 1 == (if open' then 2 else 8)
      destUnit := .node, destCluster := bits v 0 8, destIndex := bits v 8 4, srcUnit := .core, srcCluster := c
      srcIndex := l, launch := id % 65536, elem := n * e.2
      level := if netred && fixed then bits v 16 4 else 0xF, node := if netred && fixed then bits v 20 24 else 0
      sources := 1, targets := [64 * c + l]
      payload := if open' then .f64 (e.1.map toF64) else .wides e.1 })

/-- A REDUCE whose first packet an earlier execution of the step has committed is not sent again (R1093). -/
def execReduce (c : Nat) (s : State) : Host.Outcome State Fault Refusal :=
  engineOp s c 0x34 .stream (fun _ => 136) (fun ln o s l => do
    let v := immOf ln o 0
    let d ← needDesc s c o.a
    require (d.format = 10 && d.rows = 16 && d.cols = 16 && takesPart ln (bits v 0 8))
    let w := readWides s c l d
    if !w.2.isEmpty then .error (.poison w.2) else
    let key := 64 * (s.cluster c).pos + l
    if (s.cluster c).reduced.contains key then return s else
    let s := s.modCluster c (fun k => { k with reduced := setInsert k.reduced key })
    return sendPackets c l 1 (reducePackets c l ln.id v (bit o.oflags 1) (ln.lflags.testBit 0) w.1) s)

/-! ## COUNTERS (R484) -/

/-- The 128 bytes of COUNTERS. -/
def counterBytes (k : Core) : List Byte :=
  leBytes 8 k.events.toNat ++
    [k.ops, k.fieldHs, k.flipHs, k.vectorHs, k.streamHs, k.recompute].flatMap (fun x => leBytes 8 x.reg) ++
    List.replicate 72 0#8

def execCounters (c : Nat) (s : State) : Host.Outcome State Fault Refusal :=
  engineOp s c 0x35 .stream (fun _ => 24) (fun _ o s l => do
    let d ← needDesc s c o.d
    require (!d.plane && d.rows * d.rowBytes = 128)
    return writeRows s c l d (counterBytes (s.core c l)))

end Sys2Proof.Machine
end

