-- ==== Sys2Proof/Machine/Tap.lean ====
section
/-! DEFINITION. The test port (file 14, R1069 to R1076). -/

namespace Sys2Proof.Machine

/-- The test port is enabled (R1046, R1069). -/
def State.tapOn (s : State) : Bool := s.board.straps.complyEn

/-- An instruction is in the instruction register and its data register has been shifted out. -/
def shifted (code : BitVec 8) (t : Tap) (bits width : Nat) (s : State) : State :=
  ({ s with tap := { t with ir := code } } : State).emit (.tdo bits width)

/-- TAP_RESET (R1073): the instruction register selects the identification register. -/
def execTapReset (s : State) : Host.Outcome State Fault Refusal :=
  needs s.tapOn { s with tap := { s.tap with ir := 0x02, loopback := 0 } } s

/-- The boundary register captures the pins; its cell nearest TDO, RESET_N, is bit 0, then REFCLK, RSVD_B, RSVD_A, COMPLY_EN and
BOOST_EN (R1071).
DEDUCED, log entry 68: bit order of the boundary register; what a rail loss clears. -/
def captureBoundary (code : BitVec 8) (pins : BitVec 6) (s : State) : State :=
  shifted code { s.tap with boundary := pins } pins.toNat 6 s

def execExtest (pins : BitVec 6) (s : State) : Host.Outcome State Fault Refusal :=
  needs s.tapOn (captureBoundary 0x00 pins s) s

def execSamplePreload (pins : BitVec 6) (s : State) : Host.Outcome State Fault Refusal :=
  needs s.tapOn (captureBoundary 0x01 pins s) s

/-- The device identification register (R1072). -/
def idRegister (f : Fuses) : Nat := 1 + 2 * f.manufacturer.toNat + 2 ^ 12 * 0x9600 + 2 ^ 28 * (f.revision.toNat % 16)

def execIdcode (s : State) : Host.Outcome State Fault Refusal :=
  needs s.tapOn (shifted 0x02 { s.tap with id := BitVec.ofNat 32 (idRegister s.fuses) } (idRegister s.fuses) 32 s) s

/-- OPT_LOOP (R1073, R1074, R1076): Update-DR takes effect only while RESET_N is asserted; it clears ERRORS. -/
def execOptLoop (value : BitVec 72) (s : State) : Host.Outcome State Fault Refusal :=
  needs s.tapOn { s with tap :=
    if s.board.resetLow then { s.tap with ir := 0x10, loopback := value, errors := [] } else { s.tap with ir := 0x10 } } s

/-- The pattern checker of an engine runs (R1074). -/
def prbsOn (s : State) (e : Nat) : Bool := s.board.resetLow && s.tap.loopback.getLsbD (4 * e + 2)

/-- ERRORS of the engines after more bit errors; each stops at 2^22 - 1 (R1076). -/
def errorsWith (s : State) (new : List Nat) : Map Nat :=
  new.zipIdx.foldl (fun m e => if e.2 < 18 && prbsOn s e.2 then mapModify 0 m e.2 (fun n => min (n + e.1) (2 ^ 22 - 1)) else m)
    s.tap.errors

/-- The 24 bits of an engine in the optical result register. -/
def resultField (s : State) (locked : BitVec 18) (errors : Map Nat) (e : Nat) : Nat :=
  natOfBool (prbsOn s e && locked.getLsbD e) + 2 * natOfBool (s.board.laserOk.getLsbD e) + 4 * (mapGet 0 errors e % 2 ^ 22)

/-- The optical result register. -/
def resultRegister (s : State) (locked : BitVec 18) (errors : Map Nat) : Nat :=
  ((List.range 18).map (fun e => 2 ^ (24 * e) * resultField s locked errors e)).sum

/-- OPT_RESULT (R1076): which checkers have locked, and the bit errors of each engine since the last capture. -/
def execOptResult (locked : BitVec 18) (errors : List Nat) (s : State) : Host.Outcome State Fault Refusal :=
  let es := errorsWith s errors
  let r := resultRegister s locked es
  needs s.tapOn (shifted 0x11 { s.tap with errors := es, locked := locked, result := BitVec.ofNat 432 r } r 432 s) s

/-- BYPASS: the register captures 0, which leaves first; the bit shifted in follows. -/
def execBypass (tdi : Bool) (s : State) : Host.Outcome State Fault Refusal :=
  needs s.tapOn (shifted 0xFF { s.tap with bypass := BitVec.ofBool tdi } 0 1 s) s

end Sys2Proof.Machine
end

