-- ==== Sys2Proof/Machine/TimeSync.lean ====
section
/-! DEFINITION. Cricket across devices (file 09, R748 to R755). -/

namespace Sys2Proof.Machine

/-- A launch is outstanding that fixes Cricket to 8 ticks (R752). -/
def State.timedLaunch (s : State) : Bool :=
  s.disp.launches.any (fun l => l.lflags.testBit 1 || l.lflags.testBit 2 || l.lflags.testBit 3)

/-- A follower of a time master. -/
def State.followsMaster (s : State) : Bool := s.on && s.silk.role = 2 && s.silk.device.isSome

def setSync3 (f : Sync3 → Sync3) (s : State) : State := { s with silk := { s.silk with sync := f s.silk.sync } }

/-- TIME_REQUEST_SEND (R749): t1 is the count at sending. -/
def execTimeRequestSend (s : State) : Host.Outcome State Fault Refusal :=
  let t := sendControl s.silk.master 1 0 (leBytes 8 s.now) s
  needs (s.followsMaster && s.silk.sync.asked.isNone && s.silk.sync.lastAt + 1000000 ≤ s.now)
    (setSync3 (fun y => { y with asked := some (BitVec.ofNat 64 s.now), lastAt := s.now }) t) s

/-- TIME_REQUEST (R749, R753): the master answers with t1, t2 and t3. -/
def execTimeRequest (src : Nat) (t1 t2 : Word) (s : State) : Host.Outcome State Fault Refusal :=
  needs (s.on && s.silk.role = 1 && s.silk.device.isSome)
    (sendControl src 2 0 (leBytes 8 t1.toNat ++ leBytes 8 t2.toNat ++ leBytes 8 s.now) (peerBack src s)) s

/-- θ and d (R750). -/
def offsetOf (t1 t2 t3 t4 : Word) : Word := ((t4 - t3) - (t2 - t1)).sshiftRight 1
def delayOf (t1 t2 t3 t4 : Word) : Word := ((t4 - t3) + (t2 - t1)).sshiftRight 1

/-- Cricket is held or stepped (R751). -/
def correct (th : Int) (s : State) : State :=
  if 2 < th then { s with pace := { s.pace with hold := s.pace.hold + th.toNat } }
  else if th < -2 then { s with pace := { s.pace with cricket := (s.pace.cricket + (-th).toNat) % 2 ^ 64 } }
  else s

/-- LOCKED is cleared and SYNC_LOST set (R752, R755). -/
def loseSync (s : State) : State := silkEvent 5 { s with silk := { s.silk with locked := false } }

/-- OFFSET and DELAY (R774); a negative d is held as no rule says: a free value. -/
def setOffsets (th d : Int) (s : State) : State :=
  drawn 1 { s with silk := { s.silk with
    offset := BitVec.ofInt 16 (max (-32768) (min th 32767))
    delay := if d < 0 then BitVec.ofNat 16 (freePick s 65536) else BitVec.ofNat 16 (min d.toNat 65535)
    locked := -4 ≤ th && th ≤ 4 } }

/-- The measurement is over; the correction is made, or deferred (R751, R752). -/
def applyOffset (th : Int) (s : State) : State :=
  if (th < -8 || 8 < th) && s.timedLaunch then loseSync (setSync3 (fun y => { y with deferred := some th }) s) else correct th s

/-- TIME_RESPONSE: the four stamps of the measurement in progress. -/
def execTimeResponse (t1 t2 t3 t4 : Word) (s : State) : Host.Outcome State Fault Refusal :=
  let th := (offsetOf t1 t2 t3 t4).toInt
  let t := setSync3 (fun y => { y with asked := none, missed := 0, deferred := none }) (peerBack s.silk.master s)
  needs (s.followsMaster && s.silk.sync.asked == some t1)
    (applyOffset th (setOffsets th (delayOf t1 t2 t3 t4).toInt t)) s

/-- A measurement is discarded (R755). -/
def missMeasurement (s : State) : State :=
  let s := setSync3 (fun y => { y with asked := none, missed := y.missed + 1 }) s
  if 3 ≤ s.silk.sync.missed then loseSync s else s

/-- TIME_MEASUREMENT_TIMEOUT. -/
def execTimeMeasurementTimeout (s : State) : Host.Outcome State Fault Refusal :=
  needs (s.followsMaster && s.silk.sync.asked.any (fun t => t.toNat + 100000 ≤ s.now)) (missMeasurement s) s

/-- DEFERRED_CRICKET_CORRECTION (R752). -/
def execDeferredCricketCorrection (s : State) : Host.Outcome State Fault Refusal :=
  match s.silk.sync.deferred with
  | none => .next s
  | some th =>
    needs (s.followsMaster && !s.timedLaunch) (correct th (setSync3 (fun y => { y with deferred := none }) s)) s

end Sys2Proof.Machine
end

