-- ==== Sys2Proof/Machine/Vfunc.lean ====
section
/-! DEFINITION. The functions of VFUNC (R477). A result that is no dyadic number is held to 640 fractional bits with its
last bit set, so that the one rounding to FP32 sees on which side of a tie it lies (DEDUCED, log entry 15). -/

namespace Sys2Proof.Machine

/-- Fractional bits of the fixed-point work. -/
def fixP : Nat := 640

def fixOne : Int := 2 ^ fixP

/-- Σ z^(2n+1) / (2n+1) from a term on: the series of atanh, and of atan where the sign alternates. -/
def atanSeries (alternate : Bool) : Nat → Nat → Int → Int → Int
  | 0, _, _, _ => 0
  | fuel + 1, n, term, z2 =>
    let t := term / (2 * n + 1 : Int)
    (if alternate && n % 2 = 1 then -t else t) + atanSeries alternate fuel (n + 1) (term * z2 / fixOne) z2

/-- ln 2 = 2 atanh (1/3). -/
def fixLn2 : Int := 2 * atanSeries false 220 0 (fixOne / 3) (fixOne / 9)

/-- π by Machin's formula. -/
def fixPi : Int :=
  16 * atanSeries true 150 0 (fixOne / 5) (fixOne / 25) - 4 * atanSeries true 60 0 (fixOne / 239) (fixOne / 57121)

/-- Σ r^n / n! from a term on. -/
def expSeries : Nat → Nat → Int → Int → Int
  | 0, _, _, _ => 0
  | fuel + 1, n, term, r => term + expSeries fuel (n + 1) (term * r / fixOne / (n + 1 : Int)) r

/-- A finite value on the fixed-point grid, rounded down. -/
def toFix (neg : Bool) (m : Nat) (e : Int) : Int :=
  let v : Int := if 0 ≤ e + fixP then (m * 2 ^ (e + fixP).toNat : Nat) else (m / 2 ^ (-(e + fixP)).toNat : Nat)
  if neg then -v else v

/-- A fixed-point number with its sticky last bit, times 2^k. -/
def sticky (v : Int) (k : Int) : Val := .fin (v < 0) (2 * v.natAbs + 1) (k - fixP - 1)

/-- e^x as a fixed-point mantissa and a power of two. -/
def expParts (neg : Bool) (m : Nat) (e : Int) : Int × Int :=
  let x := toFix neg m e
  let k := x / fixLn2
  (expSeries 130 0 fixOne (x - k * fixLn2), k)

/-- e^x on the fixed-point grid, for |x| below 256. -/
def expFix (neg : Bool) (m : Nat) (e : Int) : Int :=
  let p := expParts neg m e
  if 0 ≤ p.2 then p.1 * 2 ^ p.2.toNat else p.1 / 2 ^ (-p.2).toNat

/-- The integer square root, from bit n down. -/
def isqrtFuel : Nat → Nat → Nat → Nat
  | 0, x, r => if (r + 1) * (r + 1) ≤ x then r + 1 else r
  | n + 1, x, r =>
    let c := r + 2 ^ (n + 1)
    isqrtFuel n x (if c * c ≤ x then c else r)

def isqrt (x : Nat) : Nat := isqrtFuel (Nat.log2 x / 2 + 1) x 0

/-- A value a little smaller in magnitude than a finite one. -/
def justBelow (neg : Bool) (m : Nat) (e : Int) : Val := .fin neg (m * 2 ^ 200 - 1) (e - 200)

/-- A finite value lies below 2^k in magnitude. -/
def magBelow (m : Nat) (e k : Int) : Bool := m = 0 || (Nat.log2 m : Int) + e < k

def funRelu : Val → Val
  | .nan => .nan
  | .inf neg => if neg then Val.zero else .inf false
  | .fin neg m e => if neg || m = 0 then Val.zero else .fin false m e

def funSigmoid : Val → Val
  | .nan => .nan
  | .inf neg => if neg then Val.zero else .fin false 1 0
  | .fin neg m e =>
    if m = 0 then .fin false 1 (-1)
    else if !magBelow m e 8 then (if neg then .fin false 1 (-400) else justBelow false 1 0)
    else sticky (fixOne * fixOne / (fixOne + expFix (!neg) m e)) 0

def funTanh : Val → Val
  | .nan => .nan
  | .inf neg => .fin neg 1 0
  | .fin neg m e =>
    if m = 0 then .fin neg 0 e
    else if magBelow m e (-40) then justBelow neg m e
    else if !magBelow m e 6 then justBelow neg 1 0
    else
      let x2 := expFix false m (e + 1)
      let t := (x2 - fixOne) * fixOne / (x2 + fixOne)
      sticky (if neg then -t else t) 0

def funExp : Val → Val
  | .nan => .nan
  | .inf neg => if neg then Val.zero else .inf false
  | .fin neg m e =>
    if m = 0 then .fin false 1 0
    else
      let p := expParts neg m e
      sticky p.1 p.2

def funLn : Val → Val
  | .nan => .nan
  | .inf neg => if neg then .nan else .inf false
  | .fin neg m e =>
    if m = 0 then .inf true
    else if neg then .nan
    else
      let top := Nat.log2 m
      let f := toFix false m (-(top : Int))
      let k : Int := (top : Int) + e
      if m = 2 ^ top ∧ k = 0 then Val.zero
      else
        let z := (f - fixOne) * fixOne / (f + fixOne)
        sticky (k * fixLn2 + 2 * atanSeries false 220 0 z (z * z / fixOne)) 0

def funRecip : Val → Val
  | .nan => .nan
  | .inf neg => .fin neg 0 0
  | .fin neg m e =>
    if m = 0 then .inf neg
    else
      let k := Nat.log2 m + 80
      let q := 2 ^ k / m
      .fin neg (2 * q + natOfBool (q * m != 2 ^ k)) (-e - k - 1)

def funRsqrt : Val → Val
  | .nan => .nan
  | .inf neg => if neg then .nan else Val.zero
  | .fin neg m e =>
    if m = 0 then .inf neg
    else if neg then .nan
    else
      let m' := if e % 2 = 0 then m else 2 * m
      let h := (if e % 2 = 0 then e else e - 1) / 2
      let k := Nat.log2 m' + 80
      let s := isqrt (2 ^ (2 * k) / m')
      .fin false (2 * s + natOfBool (s * s * m' != 2 ^ (2 * k))) (-h - k - 1)

/-- √(2/π) · Σ (-1)^n (x²/2)^n / (n! (2n+1)). -/
def erfSeries : Nat → Nat → Int → Int → Int
  | 0, _, _, _ => 0
  | fuel + 1, n, term, y =>
    let t := term / (2 * n + 1 : Int)
    (if n % 2 = 1 then -t else t) + erfSeries fuel (n + 1) (term * y / fixOne / (n + 1 : Int)) y

def funGelu : Val → Val
  | .nan => .nan
  | .inf neg => if neg then .fin true 0 0 else .inf false
  | .fin neg m e =>
    if m = 0 then .fin neg 0 e
    else if magBelow m e (-60) then
      -- x/2 + x²/√(2π): the second term only breaks ties
      (Val.fin neg m (e - 1)).add (.fin false (m * m * 0x66208902) (2 * e - 32))
    else if !magBelow m e 4 then (if neg then .fin true 1 (-400) else justBelow false m e)
    else
      let x := toFix neg m e
      let y := x * x / fixOne / 2
      let c := (isqrt ((2 * fixOne * fixOne / fixPi * fixOne).toNat) : Int)
      let erf := c * (x * erfSeries 1000 0 fixOne y / fixOne) / fixOne
      sticky (x * (fixOne + erf) / fixOne / 2) 0

/-- The exact value of a function of R477 at a widened operand; none for a reserved function. -/
def vfunc (f : Nat) (x : Val) : Option Val :=
  match f with
  | 0 => some (funRelu x)
  | 1 => some (funSigmoid x)
  | 2 => some (funTanh x)
  | 3 => some (funExp x)
  | 4 => some (funLn x)
  | 5 => some (funRecip x)
  | 6 => some (funRsqrt x)
  | 7 => some (funGelu x)
  | 8 => some x.absolute
  | 9 => some x.negate
  | _ => none

end Sys2Proof.Machine
end

