-- ==== Sys2Proof/Machine/VectorOps.lean ====
section
/-! DEFINITION. The Vector engine (file 06, R476 to R482; file 02, R216 to R220). -/

namespace Sys2Proof.Machine

/-! ## What the operations share -/

/-- A format that the Vector engine reads or writes element by element. -/
def vectorFormat (f : Nat) : Bool := f ≤ 8

/-- Worst-case handshakes on E elements (R463). -/
def elements (s : State) (c : Nat) (o : OpWord) : Nat := (s.desc c o.a).rows * (s.desc c o.a).cols
def vectorNhp (s : State) (c : Nat) (o : OpWord) : Nat := ceilDiv (elements s c o) 16 + 8

/-- A result saturated: CONV_SAT, and the report of the step execution (R515, R220). -/
def convSat (c l : Nat) (b : Bool) (s : State) : State :=
  if b then s.modCore c l (fun k => { k with events := raise k.events 0, stepSat := true }) else s

/-- Rows of results are written with their exponent bytes (R482). -/
def writeResult (c l : Nat) (d : Desc) (mode : Nat) (rows : List (List Val)) (sat : Bool) (s : State) : State :=
  let r := convertRows d mode rows
  convSat c l (sat || r.2) (writeTensor s c l d r.1)

/-- An element-wise operation: exact for integers, through FP32 where an operand is a float (R216, R217); a zero of integers is +0
(R176). -/
def elementwise (float : Bool) (rows : List (List Val)) : List (List Val) × Bool :=
  if float then
    let rs := rows.map (fun r => r.map toFp32)
    (rs.map (fun r => r.map (·.1)), rs.any (fun r => r.any (·.2)))
  else (rows.map (fun r => r.map Val.unsigned0), false)

def zipRows {α β γ : Type} (f : α → β → γ) (a : List (List α)) (b : List (List β)) : List (List γ) :=
  a.zipWith (fun x y => x.zipWith f y) b

/-- Operand and destination of a shape. -/
def likeShape (a d : Desc) : Bool := a.rows = d.rows && a.cols = d.cols && vectorFormat a.format && vectorFormat d.format

/-! ## VCONV and VQUANT (R169, R171, R482) -/

def execVconv (c : Nat) (s : State) : Host.Outcome State Fault Refusal :=
  engineOp s c 0x20 .vector (vectorNhp s c) (fun _ o s l => do
    let da ← needDesc s c o.a
    let d ← needDesc s c o.d
    require (likeShape da d && o.aux ≤ 3)
    let a ← needTensor s c l da
    return writeResult c l d o.aux a.values false s)

/-- The groups of a row, each quantised (R169): contents, exponent bytes and saturation. -/
def quantiseRow (w : Nat) (smin : Int) (r : List Val) : List Nat × List Nat × Bool :=
  let gs := (chunks 32 r).map (fun g => quantise (g ++ List.replicate (32 - g.length) Val.zero) w smin)
  (((gs.flatMap (·.2.1)).take r.length).map (wrap w), gs.map (·.1), gs.any (·.2.2))

def execVquant (c : Nat) (s : State) : Host.Outcome State Fault Refusal :=
  engineOp s c 0x21 .vector
    (fun o => ceilDiv (elements s c o) 16 + 2 * ceilDiv (elements s c o) 32 + 16)
    (fun ln o s l => do
      let da ← needDesc s c o.a
      let d ← needDesc s c o.d
      require (likeShape da d && d.plane)
      let a ← needTensor s c l da
      let rs := a.values.map (quantiseRow (elementBits d.format) (immI8 (immOf ln o 0) 0))
      return convSat c l (rs.any (·.2.2)) (writeTensor s c l d (rs.map (fun r => (r.1, r.2.1)))))

/-! ## VBIN, VFMA and VFUNC (R216, R217, R219, R476 to R479) -/

/-- The greater of two; a NaN wins, and +0 over -0 (R219). -/
def valMax (a b : Val) : Val :=
  if a.isNan || b.isNan then .nan
  else if a.isZero && b.isZero then (if a.neg? then b else a)
  else if a.lt b then b else a

/-- The lesser of two; a NaN wins, and -0 over +0 (R219). -/
def valMin (a b : Val) : Val :=
  if a.isNan || b.isNan then .nan
  else if a.isZero && b.isZero then (if a.neg? then a else b)
  else if b.lt a then b else a

/-- The functions of VBIN. -/
def vbinFunction : Nat → Option (Val → Val → Val)
  | 0 => some Val.add
  | 1 => some (fun a b => a.add b.negate)
  | 2 => some Val.mul
  | 3 => some valMax
  | 4 => some valMin
  | _ => none

def execVbin (c : Nat) (s : State) : Host.Outcome State Fault Refusal :=
  engineOp s c 0x22 .vector (vectorNhp s c) (fun ln o s l => do
    let da ← needDesc s c o.a
    let db ← needDesc s c o.b
    let d ← needDesc s c o.d
    require (likeShape da d && likeShape db d && o.aux ≤ 3)
    match vbinFunction (immOf ln o 0) with
    | none => .error .invalid
    | some f =>
      let a ← needTensor s c l da
      let b ← needTensor s c l db
      let r := elementwise (isFloat da.format || isFloat db.format) (zipRows f a.values b.values)
      return writeResult c l d o.aux r.1 r.2 s)

def execVfma (c : Nat) (s : State) : Host.Outcome State Fault Refusal :=
  engineOp s c 0x23 .vector (vectorNhp s c) (fun _ o s l => do
    let da ← needDesc s c o.a
    let db ← needDesc s c o.b
    let dc ← needDesc s c o.c
    let d ← needDesc s c o.d
    require (likeShape da d && likeShape db d && likeShape dc d && o.aux ≤ 3)
    let a ← needTensor s c l da
    let b ← needTensor s c l db
    let x ← needTensor s c l dc
    let r := elementwise (isFloat da.format || isFloat db.format || isFloat dc.format)
      (zipRows Val.add (zipRows Val.mul a.values b.values) x.values)
    return writeResult c l d o.aux r.1 r.2 s)

def execVfunc (c : Nat) (s : State) : Host.Outcome State Fault Refusal :=
  engineOp s c 0x24 .vector (fun o => 4 * ceilDiv (elements s c o) 16 + 24) (fun ln o s l => do
    let da ← needDesc s c o.a
    let d ← needDesc s c o.d
    let f := immOf ln o 0
    require (likeShape da d && o.aux ≤ 3 && f ≤ 9 && (isFloat da.format || f = 0 || f = 8 || f = 9))
    let a ← needTensor s c l da
    let r := elementwise (isFloat da.format) (a.values.map (fun row => row.map (fun x => (vfunc f x).getD .nan)))
    return writeResult c l d o.aux r.1 r.2 s)

/-! ## VRED (R218, R219, R480) -/

/-- The sum of a row in wide form with binary point F (R218). -/
def rowSumWide (fmt : Nat) (F : Int) (row : List (Nat × Nat)) : Wide :=
  let e := row.zipIdx.foldl (fun (e : Elem) x =>
    e.push F x.2 (if isFloat fmt then .float (elementValue fmt x.1.1 x.1.2) (.fin false 1 0)
      else .int (sext (elementBits fmt) x.1.1) ((x.1.2 : Int) - 127) (x.1.2 = 0xFF))) {}
  (e.close F).wide

/-- The conditions of R480. -/
def vredValid (kind : Nat) (F : Int) (w : DrainWord) (a d : Desc) : Bool :=
  kind ≤ 2 && w.valid 1 && !w.clear && w.format = d.format && d.rows = a.rows && d.cols = 1 && vectorFormat a.format &&
  (if kind = 0 then goodPoint F else F = 0 && w.shift = 0 && w.format != 10)

/-- The row results of a VRED as elements of D, and their saturation.
DEDUCED, log entry 89: a VRED whose drain sets TILE_SAT by a row of R205 sets CONV_SAT, as R220 has it for R174, R175 and R177. -/
def vredRow (kind : Nat) (F : Int) (w : DrainWord) (fmt : Nat) (row : List (Nat × Nat)) : List Nat × Bool :=
  if kind = 0 then
    let x := rowSumWide fmt F row
    if w.format = 10 then ([leNat (wideBytes { w := x, f := F })], false)
    else let r := drainElement w.format w.round w.shift F x; ([r.1], r.2)
  else
    let vs := row.map (fun e => elementValue fmt e.1 e.2)
    let v := (vs.drop 1).foldl (if kind = 1 then valMax else valMin) (vs.headD .nan)
    let r := convert w.format w.round v
    ([r.1], r.2)

def execVred (c : Nat) (s : State) : Host.Outcome State Fault Refusal :=
  engineOp s c 0x25 .vector (fun o => ceilDiv (elements s c o) 16 + 24) (fun ln o s l => do
    let da ← needDesc s c o.a
    let d ← needDesc s c o.d
    let m := immOf ln o 0
    let F := immI8 m 8
    let w := drainWordOf (immOf ln o 1)
    require (vredValid (bits m 0 8) F w da d)
    let a ← needTensor s c l da
    let rs := a.rows.map (vredRow (bits m 0 8) F w da.format)
    return convSat c l (rs.any (·.2)) (writeTensor s c l d (rs.map (fun r => (r.1, List.replicate d.groups 0x7F)))))

/-! ## VBITS (R263, R481) -/

/-- A row of bits unpacked to INT8. -/
def unpackBits (bitConvention : Bool) (n : Nat) (bs : List Byte) : List Byte :=
  let v := leNat bs
  (List.range n).map (fun i => if bit v i then 1#8 else if bitConvention then 0#8 else 0xFF#8)

/-- A row of INT8 packed to bits. -/
def packBits (es : List Byte) : List Byte :=
  (chunks 8 es).map (fun g => BitVec.ofNat 8 ((g.zipIdx.map (fun e => if 0 < e.1.toInt then 2 ^ e.2 else 0)).sum))

/-- A descriptor of the bit-row side, whose COLS counts bits. -/
def bitRows (d : Desc) : Desc := { d with cols := ceilDiv d.cols 8 }

def execVbits (c : Nat) (s : State) : Host.Outcome State Fault Refusal :=
  engineOp s c 0x26 .vector (fun o => ceilDiv (elements s c o) 64 + 8) (fun _ o s l => do
    let da := s.desc c o.a
    let d := s.desc c o.d
    require ((if bit o.aux 0 then da else bitRows da).inCore && (if bit o.aux 0 then bitRows d else d).inCore &&
      da.format = 5 && d.format = 5 && !da.plane && !d.plane && da.rows = d.rows && da.cols = d.cols && o.aux ≤ 3)
    let n := if bit o.aux 0 then da.cols else ceilDiv da.cols 8
    let rows := (List.range da.rows).map (fun r => coreRead s c l (da.addr + r * da.rowStride) n)
    let bad := rows.zipIdx.flatMap (fun e => poisonPlaces (window c l (da.addr + e.2 * da.rowStride)) e.1)
    if !bad.isEmpty then .error (.poison bad) else
    return writePlane s c l d (rows.map (fun r =>
      if bit o.aux 0 then packBits (plain r) else unpackBits (bit o.aux 1) da.cols (plain r))))

end Sys2Proof.Machine
end

