-- ==== Sys2Proof/Machine/Dispatch.lean ====
section
/-! DEFINITION. The meaning of every command: one arm per row of the table, each one call of its meaning. -/

namespace Sys2Proof.Machine

/-- The effect of a command on everything but the queue.
DEDUCED, log entry 77: each command is one indivisible step. -/
def exec (i : Instr) (s : State) : Host.Outcome State Fault Refusal :=
  match i with
  | .powerGood boostEn complyEn rsvdA rsvdB width speed => Sys2Proof.Machine.execPowerGood boostEn complyEn rsvdA rsvdB width speed s
  | .resetInput ns => Sys2Proof.Machine.execResetInput ns s
  | .refclkLoss ns => Sys2Proof.Machine.execRefclkLoss ns s
  | .coldPowerUp ns regulator => Sys2Proof.Machine.execColdPowerUp ns regulator s
  | .thermalTrip sensor eighths => Sys2Proof.Machine.execThermalTrip sensor eighths s
  | .functionLevelReset => Sys2Proof.Machine.execFunctionLevelReset s
  | .laserLoss engine => Sys2Proof.Machine.execLaserLoss engine s
  | .tapReset => Sys2Proof.Machine.execTapReset s
  | .extest pins => Sys2Proof.Machine.execExtest pins s
  | .samplePreload pins => Sys2Proof.Machine.execSamplePreload pins s
  | .idcode => Sys2Proof.Machine.execIdcode s
  | .optLoop value => Sys2Proof.Machine.execOptLoop value s
  | .optResult locked errors => Sys2Proof.Machine.execOptResult locked errors s
  | .bypass tdi => Sys2Proof.Machine.execBypass tdi s
  | .bar0BadAccess write offset size => Sys2Proof.Machine.execBar0BadAccess write offset size s
  | .apertureRead offset size => Sys2Proof.Machine.execApertureRead offset size s
  | .apertureWrite offset data poisoned => Sys2Proof.Machine.execApertureWrite offset data poisoned s
  | .registerWrite source addr size value => Sys2Proof.Machine.execRegisterWrite source addr size value s
  | .sqTailWrite q v => Sys2Proof.Machine.execSqTailWrite q v s
  | .cqHeadWrite q v => Sys2Proof.Machine.execCqHeadWrite q v s
  | .cqArmWrite q arm => Sys2Proof.Machine.execCqArmWrite q arm s
  | .queueEnable q => Sys2Proof.Machine.execQueueEnable q s
  | .queueDisable q => Sys2Proof.Machine.execQueueDisable q s
  | .syncValueWrite n v => Sys2Proof.Machine.execSyncValueWrite n v s
  | .syncOwnerWrite g v => Sys2Proof.Machine.execSyncOwnerWrite g v s
  | .invalPage asid => Sys2Proof.Machine.execInvalPage asid s
  | .invalAddressSpace asid => Sys2Proof.Machine.execInvalAddressSpace asid s
  | .invalAll asid => Sys2Proof.Machine.execInvalAll asid s
  | .invalReservedScope asid => Sys2Proof.Machine.execInvalReservedScope asid s
  | .invalidationComplete => Sys2Proof.Machine.execInvalidationComplete s
  | .migHoldRequest asid all => Sys2Proof.Machine.execMigHoldRequest asid all s
  | .migHoldRelease asid all => Sys2Proof.Machine.execMigHoldRelease asid all s
  | .migHoldHeld => Sys2Proof.Machine.execMigHoldHeld s
  | .silkRouteWrite n ports => Sys2Proof.Machine.execSilkRouteWrite n ports s
  | .mbReqWrite m w => Sys2Proof.Machine.execMbReqWrite m w s
  | .mbCommit m poison => Sys2Proof.Machine.execMbCommit m poison s
  | .mbAbort m => Sys2Proof.Machine.execMbAbort m s
  | .mbFlush m => Sys2Proof.Machine.execMbFlush m s
  | .mbRspRead m => Sys2Proof.Machine.execMbRspRead m s
  | .mbResponseWrite m => Sys2Proof.Machine.execMbResponseWrite m s
  | .identify m => Sys2Proof.Machine.execIdentify m s
  | .configSet m => Sys2Proof.Machine.execConfigSet m s
  | .oppointGet m => Sys2Proof.Machine.execOppointGet m s
  | .oppointSet m => Sys2Proof.Machine.execOppointSet m s
  | .admissionRead m => Sys2Proof.Machine.execAdmissionRead m s
  | .coreMapReport m => Sys2Proof.Machine.execCoreMapReport m s
  | .coreMapFence m => Sys2Proof.Machine.execCoreMapFence m s
  | .coreMapRetireSlice m => Sys2Proof.Machine.execCoreMapRetireSlice m s
  | .coreMapClusterReset m => Sys2Proof.Machine.execCoreMapClusterReset m s
  | .tierPolicySet m => Sys2Proof.Machine.execTierPolicySet m s
  | .tierPolicyGet m => Sys2Proof.Machine.execTierPolicyGet m s
  | .framePoolAdd m => Sys2Proof.Machine.execFramePoolAdd m s
  | .framePoolRemove m => Sys2Proof.Machine.execFramePoolRemove m s
  | .framePoolQuery m => Sys2Proof.Machine.execFramePoolQuery m s
  | .topologyRead m => Sys2Proof.Machine.execTopologyRead m s
  | .telemetryRead m => Sys2Proof.Machine.execTelemetryRead m s
  | .eventRead m => Sys2Proof.Machine.execEventRead m s
  | .linkRetireChannel m => Sys2Proof.Machine.execLinkRetireChannel m s
  | .linkAddExpander m => Sys2Proof.Machine.execLinkAddExpander m s
  | .linkRemoveExpander m => Sys2Proof.Machine.execLinkRemoveExpander m s
  | .linkRetrainLane m => Sys2Proof.Machine.execLinkRetrainLane m s
  | .linkOe17Takeover m => Sys2Proof.Machine.execLinkOe17Takeover m s
  | .linkOe17Handback m => Sys2Proof.Machine.execLinkOe17Handback m s
  | .linkSetSyncRole m => Sys2Proof.Machine.execLinkSetSyncRole m s
  | .fwBegin m => Sys2Proof.Machine.execFwBegin m s
  | .fwData m => Sys2Proof.Machine.execFwData m s
  | .fwCommit m => Sys2Proof.Machine.execFwCommit m s
  | .fwAbort m => Sys2Proof.Machine.execFwAbort m s
  | .sanitise m => Sys2Proof.Machine.execSanitise m s
  | .attest m => Sys2Proof.Machine.execAttest m s
  | .pairSet m => Sys2Proof.Machine.execPairSet m s
  | .opStatus m => Sys2Proof.Machine.execOpStatus m s
  | .eventRecord => Sys2Proof.Machine.execEventRecord s
  | .counterSnapshot => Sys2Proof.Machine.execCounterSnapshot s
  | .heatSnapshot => Sys2Proof.Machine.execHeatSnapshot s
  | .telemetryRefresh temps supplies powers => Sys2Proof.Machine.execTelemetryRefresh temps supplies powers s
  | .faultReport cluster position addr decision => Sys2Proof.Machine.execFaultReport cluster position addr decision s
  | .fenceOrder c => Sys2Proof.Machine.execFenceOrder c s
  | .clusterUnitFault c => Sys2Proof.Machine.execClusterUnitFault c s
  | .routerFault die => Sys2Proof.Machine.execRouterFault die s
  | .retireSliceOrder c => Sys2Proof.Machine.execRetireSliceOrder c s
  | .channelRetireOrder q k => Sys2Proof.Machine.execChannelRetireOrder q k s
  | .channelRetireComplete q k => Sys2Proof.Machine.execChannelRetireComplete q k s
  | .cxlDeviceAdded port capacity switched lanes speed => Sys2Proof.Machine.execCxlDeviceAdded port capacity switched lanes speed s
  | .cxlDeviceRemoved port base => Sys2Proof.Machine.execCxlDeviceRemoved port base s
  | .pageRetireOrder asid va tier => Sys2Proof.Machine.execPageRetireOrder asid va tier s
  | .migrationComplete asid va => Sys2Proof.Machine.execMigrationComplete asid va s
  | .handoverOrder c runs => Sys2Proof.Machine.execHandoverOrder c runs s
  | .dispatcherHandover => Sys2Proof.Machine.execDispatcherHandover s
  | .mantisHandover => Sys2Proof.Machine.execMantisHandover s
  | .firmwareReady test => Sys2Proof.Machine.execFirmwareReady test s
  | .svnFuseBlown => Sys2Proof.Machine.execSvnFuseBlown s
  | .clusterTestOrder c passed => Sys2Proof.Machine.execClusterTestOrder c passed s
  | .sanitiseOrder failedWords => Sys2Proof.Machine.execSanitiseOrder failedWords s
  | .sanitiseComplete => Sys2Proof.Machine.execSanitiseComplete s
  | .abortOrder die => Sys2Proof.Machine.execAbortOrder die s
  | .rampBegin => Sys2Proof.Machine.execRampBegin s
  | .rampEnd => Sys2Proof.Machine.execRampEnd s
  | .launchFetch q => Sys2Proof.Machine.execLaunchFetch q s
  | .dependencyCycle launches => Sys2Proof.Machine.execDependencyCycle launches s
  | .preload c => Sys2Proof.Machine.execPreload c s
  | .launchStart id => Sys2Proof.Machine.execLaunchStart id s
  | .barrierComplete id => Sys2Proof.Machine.execBarrierComplete id s
  | .launchComplete id => Sys2Proof.Machine.execLaunchComplete id s
  | .pacedStepStart c => Sys2Proof.Machine.execPacedStepStart c s
  | .launchWideStepEnd id => Sys2Proof.Machine.execLaunchWideStepEnd id s
  | .stepBoundExpiry id => Sys2Proof.Machine.execStepBoundExpiry id s
  | .stepRecompute c => Sys2Proof.Machine.execStepRecompute c s
  | .nop c => Sys2Proof.Machine.execNop c s
  | .stepEnd c => Sys2Proof.Machine.execStepEnd c s
  | .sync c => Sys2Proof.Machine.execSync c s
  | .time c => Sys2Proof.Machine.execTime c s
  | .entropy c => Sys2Proof.Machine.execEntropy c s
  | .rclear c => Sys2Proof.Machine.execRclear c s
  | .rdrain c => Sys2Proof.Machine.execRdrain c s
  | .clear c => Sys2Proof.Machine.execClear c s
  | .mma c => Sys2Proof.Machine.execMma c s
  | .drain c => Sys2Proof.Machine.execDrain c s
  | .vconv c => Sys2Proof.Machine.execVconv c s
  | .vquant c => Sys2Proof.Machine.execVquant c s
  | .vbin c => Sys2Proof.Machine.execVbin c s
  | .vfma c => Sys2Proof.Machine.execVfma c s
  | .vfunc c => Sys2Proof.Machine.execVfunc c s
  | .vred c => Sys2Proof.Machine.execVred c s
  | .vbits c => Sys2Proof.Machine.execVbits c s
  | .load c => Sys2Proof.Machine.execLoad c s
  | .store c => Sys2Proof.Machine.execStore c s
  | .send c => Sys2Proof.Machine.execSend c s
  | .mcast c => Sys2Proof.Machine.execMcast c s
  | .reduce c => Sys2Proof.Machine.execReduce c s
  | .counters c => Sys2Proof.Machine.execCounters c s
  | .anneal c => Sys2Proof.Machine.execAnneal c s
  | .gibbs c => Sys2Proof.Machine.execGibbs c s
  | .loadimg c => Sys2Proof.Machine.execLoadimg c s
  | .ctxread c => Sys2Proof.Machine.execCtxread c s
  | .release c => Sys2Proof.Machine.execRelease c s
  | .annealPhase ctx => Sys2Proof.Machine.execAnnealPhase ctx s
  | .sweepEnd ctx => Sys2Proof.Machine.execSweepEnd ctx s
  | .rotationStart ctx => Sys2Proof.Machine.execRotationStart ctx s
  | .checkpointWrite ctx => Sys2Proof.Machine.execCheckpointWrite ctx s
  | .traceRingWrite c => Sys2Proof.Machine.execTraceRingWrite c s
  | .reportPacket ctx sender => Sys2Proof.Machine.execReportPacket ctx sender s
  | .reportTimeout ctx => Sys2Proof.Machine.execReportTimeout ctx s
  | .reductionPartialArrival c => Sys2Proof.Machine.execReductionPartialArrival c s
  | .routerPacket fifo badMain badCopy badFlits => Sys2Proof.Machine.execRouterPacket fifo badMain badCopy badFlits s
  | .mcastPacketAccept fifo => Sys2Proof.Machine.execMcastPacketAccept fifo s
  | .gddr7Burst addr write crcFails ecc => Sys2Proof.Machine.execGddr7Burst addr write crcFails ecc s
  | .gddr7Refresh q k tempC => Sys2Proof.Machine.execGddr7Refresh q k tempC s
  | .channelFailed q k => Sys2Proof.Machine.execChannelFailed q k s
  | .cxlLinkDown port => Sys2Proof.Machine.execCxlLinkDown port s
  | .silkFrameReceive p frame => Sys2Proof.Machine.execSilkFrameReceive p frame s
  | .silkReplayTimeout p => Sys2Proof.Machine.execSilkReplayTimeout p s
  | .silkTrainingDone p lanes partnerEpoch partnerAck partner => Sys2Proof.Machine.execSilkTrainingDone p lanes partnerEpoch partnerAck partner s
  | .silkPortDownTimeout p => Sys2Proof.Machine.execSilkPortDownTimeout p s
  | .laneRetrainDone p ok => Sys2Proof.Machine.execLaneRetrainDone p ok s
  | .oe17SubstitutionDone p ok => Sys2Proof.Machine.execOe17SubstitutionDone p ok s
  | .hostLinkMoveDone ok recovered => Sys2Proof.Machine.execHostLinkMoveDone ok recovered s
  | .silkReadRequest src tag addr length => Sys2Proof.Machine.execSilkReadRequest src tag addr length s
  | .silkWrite src tag addr data last => Sys2Proof.Machine.execSilkWrite src tag addr data last s
  | .silkAtomic src tag kind addr a b => Sys2Proof.Machine.execSilkAtomic src tag kind addr a b s
  | .silkResponse src tag status data poisonMap last => Sys2Proof.Machine.execSilkResponse src tag status data poisonMap last s
  | .silkTransactionTimeout tag => Sys2Proof.Machine.execSilkTransactionTimeout tag s
  | .timeRequestSend => Sys2Proof.Machine.execTimeRequestSend s
  | .timeRequest src t1 t2 => Sys2Proof.Machine.execTimeRequest src t1 t2 s
  | .timeResponse t1 t2 t3 t4 => Sys2Proof.Machine.execTimeResponse t1 t2 t3 t4 s
  | .timeMeasurementTimeout => Sys2Proof.Machine.execTimeMeasurementTimeout s
  | .deferredCricketCorrection => Sys2Proof.Machine.execDeferredCricketCorrection s
  | .barrierPoll id => Sys2Proof.Machine.execBarrierPoll id s
  | .barrierTimeout id => Sys2Proof.Machine.execBarrierTimeout id s
  | .digestPacket src tag seq sweep digest => Sys2Proof.Machine.execDigestPacket src tag seq sweep digest s
  | .digestTimeout id => Sys2Proof.Machine.execDigestTimeout id s
  | .entropySample counts => Sys2Proof.Machine.execEntropySample counts s
  | .healthWindowEnd => Sys2Proof.Machine.execHealthWindowEnd s
  | .generateRequest requester bits => Sys2Proof.Machine.execGenerateRequest requester bits s
  | .generateDeliver => Sys2Proof.Machine.execGenerateDeliver s
  | .badCommand m => Sys2Proof.Machine.execBadCommand m s
  | .cxlReadResponse port addr data poison => Sys2Proof.Machine.execCxlReadResponse port addr data poison s
  | .hostReadCompletion addr data outcome => Sys2Proof.Machine.execHostReadCompletion addr data outcome s
  | .hostLinkDown => Sys2Proof.Machine.execHostLinkDown s
  | .laserReady engine => Sys2Proof.Machine.execLaserReady engine s

end Sys2Proof.Machine
end

