-- ==== Sys2Proof/Safety.lean ====
section
/-! DEFINITION. What the statements speak of: the canonical form of memory, the loss of all state, mailbox requests, and the
invariants that every step keeps. -/

namespace Sys2Proof.Machine

/-! ## Memory -/

/-- The canonical form of the device's memories: rising addresses, no byte at the default of an unlisted one. -/
def Mem.wf (m : Mem) : Bool := cellsWf 0 m.bytes && cellsWf poisonCheck m.check

/-- A word of the physical map that holds what is written to it: its slice is not retired, its channel answers, its link is not
lost. -/
def Writable (s : State) (a : Nat) : Prop :=
  match placeOf s a with
  | .stacked c sl _ => redirectSlot s c sl = none
  | .core _ _ _ => True
  | .gddr q k => (s.gdcOf q).failed.getLsbD k = false
  | .cxl d _ => (s.cxlOf d).state ≠ .lost
  | _ => False

/-- The place at which the word of an address is stored: that of its redirect slot, of its physical core, or its own. -/
def storedAt (s : State) (a : Nat) : Nat :=
  match placeOf s a with
  | .stacked c sl off => ((redirectSlot s c sl).map (fun k => Config.redirectArea + k * Config.sliceBytes + off)).getD a
  | .core c p off => Config.coreBase + (c * 64 + p) * Config.coreSize + off
  | _ => a

/-- The word lies in core memory or in a slice that is not retired. -/
def Checked (s : State) (a : Nat) : Prop :=
  match placeOf s a with
  | .stacked c sl _ => redirectSlot s c sl = none
  | .core _ _ _ => True
  | _ => False

/-! ## Invariants of every step -/

/-- Operating point 2 (Boost) is neither current, nor asked for, nor recorded, without power or while BOOST_EN is low (R94,
R1041). -/
def BoostNeedsItsPin (s : State) : Prop :=
  s.on = false ∨ s.board.straps.boostEn = false →
    s.mgmt.point ≠ 2 ∧ s.mgmt.target ≠ 2 ∧ s.mgmt.nextTarget ≠ some 2 ∧ s.mgmt.record.point ≠ 2

/-! ## Resets -/

/-- What the loss of power-good leaves (R966, columns Cold power-up and Reset input; R1053): every block is at its reset value
and waits for power-good; the queue, the outputs, the environment's memories and the pins stand; a fuse that was being blown
may have been blown (R1018). -/
def LosesState (s t : State) : Prop :=
  t = { State.reset with
        pending := s.pending, out := s.out, free := t.free, fuses := t.fuses, tap := t.tap, board := t.board
        mem := { host := s.mem.host, hostPoison := s.mem.hostPoison, peer := s.mem.peer, peerPoison := s.mem.peerPoison }
        silk := { epochs := s.silk.epochs } } ∧
  t.board.power = .down ∧ t.board.laserOk = s.board.laserOk ∧
  (t.fuses = s.fuses ∨ ∃ x, nextFuse s = some x ∧ t.fuses = blow x s.fuses)

/-! ## Control packets (file 01, R73 to R76; file 08, R640 to R644) -/

/-- A control packet with an order of the management processor, hub unit 1 of R642: to a cluster controller, a GDDR7 controller,
or the hub unit of a number. -/
def orderPkt (unit : UnitKind) (cluster index : Nat) (o : Order) : Pkt :=
  { typ := 7, vc := 0, flits := 2, last := true, destUnit := unit, destCluster := cluster, destIndex := index, srcUnit := .hub
    srcIndex := 1, payload := .order o }

/-- Packets have joined one FIFO or router port; every other one holds what it held. -/
def Queued (s t : State) (n : Nat) (ps : List Pkt) : Prop := t.fifo n = s.fifo n ++ ps ∧ ∀ m, m ≠ n → t.fifo m = s.fifo m

/-- Orders of the management processor have set out (R75, R76), and nothing else is on its way that was not. -/
def Ordered (s t : State) (ps : List Pkt) : Prop := Queued s t (hubPort 1 0) ps

/-- A record of a cluster controller or a hub unit has set out to the management processor (R74, R75). -/
def Reported (s t : State) (source : Nat) (ps : List Payload) : Prop := Queued s t (recordPort source) (ps.map (reportPkt source))

/-- The SOURCE of the event of a packet that the reader of a FIFO drops (R652): the cluster of the router that reads it, or whose
unit does; a bridge's is an attach cluster of its die (DESIGN CHOICE, log entry 35). -/
def droppedBy (n : Nat) : Nat :=
  match takenBy n, fifoCluster n with
  | some (.core c _), _ => c
  | some (.clu c), _ => c
  | none, some c => c
  | some (.bridge d), _ => 64 * d + 39
  | _, _ => hubSource 0

/-- An event record with no Cricket count yet (R952). -/
def eventOf (kind source wher detail : Nat) : Payload :=
  .event { kind := kind, source := source, wher := BitVec.ofNat 64 wher, detail := BitVec.ofNat 64 detail }

/-- The report of an order that has been applied; none where no request awaits it (R948). -/
def outcomeOf (c code : Nat) (r : Option Reply) : List Payload :=
  match r with
  | none => []
  | some r => [.result (.order c code (some r))]

/-- A record has joined the log of the management processor with the Cricket count of its arrival, or has been dropped and counted
while the log holds 4,096 (R951, R977). -/
def LogsRecord (s t : State) (e : EvRec) : Prop :=
  (s.mgmt.log.length < 4096 →
    t.mgmt.log = s.mgmt.log ++ [{ e with cricket := BitVec.ofNat 64 s.pace.cricket }] ∧
    t.mgmt.eventLost = s.mgmt.eventLost ∧ t.mgmt.events = s.mgmt.events ||| 1#32) ∧
  (4096 ≤ s.mgmt.log.length → t.mgmt.log = s.mgmt.log ∧ t.mgmt.events.getLsbD 1 = true ∧
    (s.mgmt.eventLost.count < 2 ^ 48 - 1 → t.mgmt.eventLost.count = s.mgmt.eventLost.count + 1))

/-! ## Accesses through translation units (file 07, R570 to R576, R603) -/

/-- A state in which, beside what its own fields say, accesses through translation units may have left their traces: cached entries and
page heat (R572, R603), poison counted by CXL ports (R559), bad words noted (R591), read requests to peers and to the host and packets
on their way (R570, R571). The traces are those of t. -/
def accessed (s t : State) : State :=
  { s with
    memc := { s.memc with tlb := t.memc.tlb, heat := t.memc.heat }
    cxlp := t.cxlp, out := t.out
    mem := { s.mem with badWords := t.mem.badWords }
    silk := { s.silk with ports := t.silk.ports, nextTag := t.silk.nextTag, txns := t.silk.txns }
    net := { s.net with fifos := t.net.fifos } }

/-! ## Mailbox commands (file 12, R938 to R943) -/

/-- A request message (R938): the header with IFVER 1 and RESULT zero, then the body. -/
def requestMessage (code tag : Nat) (body : List Byte) : List Byte :=
  pack 16 [(0x0, 2, code), (0x2, 2, tag), (0x4, 1, 1)] ++ body

/-- It is pair m's turn, the device serves every command, and the request at the front of the pair is the given one, without a
poison tag (R939, R942, R943, R960). -/
def Requests (s : State) (m code tag : Nat) (body : List Byte) : Prop :=
  s.on = true ∧ s.mgmt.state = 2 ∧ s.mgmt.sanitising = false ∧ tag < 65536 ∧
    ∃ p, nextRequest s m = some p ∧ p.poison = false ∧ p.bytes = requestMessage code tag body

/-- The request has been taken from pair m and its answer waits to be written; no other pair is touched. -/
def Answered (s t : State) (m code tag result : Nat) (body : List Byte) : Prop :=
  t.box m = { s.box m with
    requests := (s.box m).requests.drop 1, waiting := some (message code tag result body), busy := false } ∧
  ∀ k, k ≠ m → t.box k = s.box k

/-- The request has been taken from pair m and its answer is owed (R948); no other pair is touched. -/
def AnswerOwed (s t : State) (m : Nat) : Prop :=
  t.box m = { s.box m with requests := (s.box m).requests.drop 1, busy := true } ∧ ∀ k, k ≠ m → t.box k = s.box k

/-- A LINK command of pair m has begun a link operation (R943, R948): OP_STATUS KIND 4 shows its first step, and beside the
management processor's own state at most the host link's move and the packets on their way have changed. -/
def LinkRuns (s t : State) (m : Nat) (o : LinkOp) : Prop :=
  t.mgmt.link = some o ∧ t.op 4 = { state := 1, step := 1 } ∧ (∀ k, k ≠ 4 → t.op k = s.op k) ∧
  t = { s with
        hostp := t.hostp, net := { s.net with fifos := t.net.fifos }
        mgmt := { s.mgmt with
          boxes := t.mgmt.boxes, nextBox := (m + 1) % 8, link := some o, oe17 := t.mgmt.oe17, ops := t.mgmt.ops } }

/-! ## Operations of a step (file 06) -/

/-- The handshake counter of an engine (R516). -/
def engineHs (e : Engine) (k : Core) : Counter :=
  match e with
  | .field => k.fieldHs
  | .flip => k.flipHs
  | .vector => k.vectorHs
  | .stream => k.streamHs

/-- No two of the cores are bound to one position. -/
def Apart (s : State) (c : Nat) (cores : List Nat) : Prop :=
  ∀ l ∈ cores, ∀ k ∈ cores, (s.cluster c).phys l = (s.cluster c).phys k → l = k

/-- An operation of an engine has ended on the cores of a cluster it was issued to (R446, R516, R859): the program position
moves on, each core counts one operation and up to the worst case of handshakes of that engine, the launch counts the
handshakes, and no other core, cluster or launch is touched. -/
def OpCounted (s t : State) (c : Nat) (cores : List Nat) (e : Engine) (id worst : Nat) : Prop :=
  (t.cluster c).pos = (s.cluster c).pos + 1 ∧
  (∀ d, d ≠ c → t.cluster d = s.cluster d) ∧
  (∀ l, l ∉ cores → t.core c l = s.core c l) ∧
  (∀ l ∈ cores, (t.core c l).ops = (s.core c l).ops.add 1 ∧ (t.core c l).recompute = (s.core c l).recompute ∧
    (∃ n, n ≤ worst ∧ engineHs e (t.core c l) = (engineHs e (s.core c l)).add n) ∧
    ∀ x, x ≠ e → engineHs x (t.core c l) = engineHs x (s.core c l)) ∧
  (∀ x, x ≠ id → t.launch x = s.launch x) ∧
  ∃ n, n ≤ worst * cores.length ∧ ∀ ln, s.launch id = some ln →
    ∃ h, h % 2 ^ 64 = (ln.handshakes + n) % 2 ^ 64 ∧ t.launch id = some { ln with handshakes := h }

/-- Such an operation of an engine that reaches nothing beyond its cores (R447): the whole frame. The records that its
counters are full set out from the cluster controller (R74), its writes are logged for the snapshot (R585) and end preloads and
kept roots (R845, R916), and a copied line found bad for the second time brings an order of the management processor (R591). -/
def EngineEnded (s t : State) (c : Nat) (cores : List Nat) (e : Engine) (id worst : Nat) : Prop :=
  OpCounted s t c cores e id worst ∧
  t = { s with
        clusters := t.clusters, mem := t.mem, free := t.free, net := { s.net with fifos := t.net.fifos }
        disp := { s.disp with launches := t.disp.launches, preloads := t.disp.preloads, kept := t.disp.kept } } ∧
  (∀ n, n ≠ recordPort c → n ≠ hubPort 1 0 → t.fifo n = s.fifo n) ∧
  t.cluster c = { s.cluster c with
    pos := (s.cluster c).pos + 1, cores := (t.cluster c).cores, poisonList := (t.cluster c).poisonList
    snap := { (s.cluster c).snap with logged := (t.cluster c).snap.logged, written := (t.cluster c).snap.written } }

end Sys2Proof.Machine
end

