-- ==== Sys2Proof/Certificates/Slice0/Obligations.lean ====
section
/-! DEFINITION. The statements: what the rules of the spec say that commands and the block do. -/

open Sys2Proof Sys2Proof.Machine

/-! ## Power, reset and test port (file 14, file 12) -/

/-- POWER_GOOD (R1046, R1049, R1052, and steps 2 to 4 of power-up): the straps are sampled, Cricket starts at 0, all of core
and stacked memory is poison, and the host link trains on OE16, without laser light there on OE17. With RSVD_A or RSVD_B high
the step stops: R1046 puts that outside the specification.
RESET_INPUT, REFCLK_LOSS, COLD_POWER_UP and THERMAL_TRIP (R1045, R1047, R1054, R1067): all of the device's state is lost.
RESET_N and the reference clock leave the straps and the test port as they stand; the loss of a rail does not. An assertion
of RESET_N below 10 µs acts so or has no effect.
The model starts before power-good (log entry 1); a short assertion of RESET_N acts or not by a free value (log entry 6). -/
def Obligations.PowerGoodAndItsLoss : Prop :=
  (∀ (s : State) (boost comply : Bool) (width speed : Nat), s.board.power = .down →
      (∀ a b, (a || b) = true → exec (.powerGood boost comply a b width speed) s = .fault .reservedStrap) ∧
      ∃ t, exec (.powerGood boost comply false false width speed) s = .next t ∧
        t = { State.reset with
              pending := s.pending, out := s.out, free := s.free, fuses := s.fuses, tap := if comply then s.tap else {}
              board := { power := .good, straps := ⟨boost, comply, false, false⟩, resetLow := false, laserOk := s.board.laserOk }
              mem := { host := s.mem.host, hostPoison := s.mem.hostPoison, peer := s.mem.peer, peerPoison := s.mem.peerPoison }
              silk := { epochs := s.silk.epochs }, hostp := t.hostp, mgmt := t.mgmt } ∧
        t.mgmt.state = 0 ∧ t.mgmt.log = [] ∧ t.mgmt.boxes = [] ∧
        (s.board.laserOk.getLsbD 16 = true →
          t.hostp.engine = 16 ∧ t.hostp.width = min width 8 ∧ t.hostp.linkUp = (min width 8 != 0) ∧ t.hostp.events = 0#32) ∧
        (s.board.laserOk.getLsbD 16 = false → s.board.laserOk.getLsbD 17 = true →
          t.hostp.engine = 17 ∧ t.hostp.width = min width 8 ∧ t.hostp.linkUp = (min width 8 != 0) ∧ t.hostp.events = 2#32) ∧
        (s.board.laserOk.getLsbD 16 = false → s.board.laserOk.getLsbD 17 = false → t.hostp = {})) ∧
  (∀ s : State, s.board.power = .good →
      (∀ ns, 10000 ≤ ns → ∃ t, exec (.resetInput ns) s = .next t ∧ LosesState s t ∧ t.board.resetLow = true ∧
        t.board.straps = s.board.straps ∧ t.tap = s.tap) ∧
      (∀ ns, ns < 10000 → ∃ t, exec (.resetInput ns) s = .next t ∧ (LosesState s t ∨ t = { s with free := s.free + 1 })) ∧
      (∀ ns, 1000 < ns → ∃ t, exec (.refclkLoss ns) s = .next t ∧ LosesState s t ∧ t.board.straps = s.board.straps ∧
        t.tap = s.tap) ∧
      (∀ ns, 1000 < ns → ∃ t, exec (.coldPowerUp ns false) s = .next t ∧ LosesState s t ∧ t.board.straps = {} ∧ t.tap = {}) ∧
      (∀ ns, ∃ t, exec (.coldPowerUp ns true) s = .next t ∧ LosesState s t) ∧
      (∀ sensor eighths, sensor < 5 → 1000 ≤ eighths → ∃ t, exec (.thermalTrip sensor eighths) s = .next t ∧ LosesState s t))

/-- FUNCTION_LEVEL_RESET (R964, R966, R969, R970): queues, launches, runs and loads are gone without completion entries; HOSTP,
DISP, MEMC and TRACE are at their reset values; no context is LOADING or RUNNING (R278, R420); PACE, the straps, the Silk role, pair mode and device number stay.
The order of these effects is the model's reading (log entry 62). -/
def Obligations.FunctionLevelResetEndsEverything : Prop :=
  ∀ s : State, s.board.power = .good → s.hostp.linkUp = true → ∃ t, exec .functionLevelReset s = .next t ∧
    t.pending = s.pending ∧ t.board = s.board ∧ t.pace = s.pace ∧ t.tap = s.tap ∧
    t.disp = { nextLaunch := s.disp.nextLaunch } ∧ t.trace = {} ∧ t.runs = [] ∧ t.loads = [] ∧
    t.memc = { redirect := s.memc.redirect } ∧
    t.hostp.linkUp = true ∧ t.hostp.events = 0#32 ∧ t.hostp.aperture = 0x002000000000#64 ∧ t.hostp.regwin = 0#32 ∧
    t.silk.device = s.silk.device ∧ t.silk.role = s.silk.role ∧ t.silk.pairEnable = s.silk.pairEnable ∧
    t.silk.timeout = 1000#32 ∧ t.silk.winBase = [] ∧ t.silk.winLimit = [] ∧ t.silk.routes = [] ∧
    t.mgmt.sanitised = false ∧ t.mgmt.sanitising = false ∧
    (∀ n, (t.ctx n).state ≠ .loading ∧ (t.ctx n).state ≠ .running) ∧
    (∀ m, (t.box m).requests = [] ∧ (t.box m).responses = [] ∧ (t.box m).reqSeq = 0#16)

/-- LASER_READY and LASER_LOSS (R1060, R1061): the engine's laser-ready level, and for a running device an event record of kind
10 with SOURCE 0x101 and DETAIL equal to the engine number.
TAP_RESET, EXTEST, SAMPLE_PRELOAD, IDCODE, OPT_LOOP and BYPASS (R1070 to R1074, R1076) while the test port is enabled: the
instruction in the instruction register, what its data register captures and what leaves TDO. An Update-DR of the loopback
register takes effect only while RESET_N is asserted.
OPT_RESULT (R1076): the 24 bits of each engine e at bits [24e + 23:24e] of what leaves TDO: LOCKED, LASER_OK, and ERRORS,
which has counted the new bit errors of a checker that runs and stops at 2^22 - 1.
The bit order of the boundary register is the model's reading (log entry 68). -/
def Obligations.LaserEventsAndTheTestPort : Prop :=
  (∀ (s : State) (e : Nat), e < 18 →
      (∃ t, exec (.laserReady e) s = .next t ∧ t = { s with board := { s.board with laserOk := t.board.laserOk } } ∧
        ∀ k, t.board.laserOk.getLsbD k = (k == e || s.board.laserOk.getLsbD k)) ∧
      (∃ t, exec (.laserLoss e) s = .next t ∧
        t = { s with board := { s.board with laserOk := t.board.laserOk }, mgmt := t.mgmt, silk := t.silk } ∧
        (∀ k, t.board.laserOk.getLsbD k = (k != e && s.board.laserOk.getLsbD k)) ∧
        (s.board.power = .good → s.mgmt.log.length < 4096 →
          t.mgmt = { s.mgmt with
            log := s.mgmt.log ++ [{ cricket := BitVec.ofNat 64 s.pace.cricket, kind := 10, source := 0x101
                                    detail := BitVec.ofNat 64 e }]
            events := s.mgmt.events ||| 1#32 }) ∧
        (s.board.power = .down → t.mgmt = s.mgmt ∧ t.silk = s.silk))) ∧
  (∀ s : State, s.board.straps.complyEn = true →
      exec .tapReset s = .next { s with tap := { s.tap with ir := 0x02#8, loopback := 0#72 } } ∧
      (∀ pins, exec (.extest pins) s =
        .next { s with tap := { s.tap with ir := 0x00#8, boundary := pins }, out := s.out ++ [.tdo pins.toNat 6] }) ∧
      (∀ pins, exec (.samplePreload pins) s =
        .next { s with tap := { s.tap with ir := 0x01#8, boundary := pins }, out := s.out ++ [.tdo pins.toNat 6] }) ∧
      (∃ t id, exec .idcode s = .next t ∧
        t = { s with tap := { s.tap with ir := 0x02#8, id := BitVec.ofNat 32 id }, out := s.out ++ [.tdo id 32] } ∧
        id < 2 ^ 32 ∧ id % 2 = 1 ∧ id / 2 % 2 ^ 11 = s.fuses.manufacturer.toNat ∧ id / 2 ^ 12 % 2 ^ 16 = 0x9600 ∧
        id / 2 ^ 28 = s.fuses.revision.toNat % 16) ∧
      (∀ v, s.board.resetLow = true →
        exec (.optLoop v) s = .next { s with tap := { s.tap with ir := 0x10#8, loopback := v, errors := [] } }) ∧
      (∀ v, s.board.resetLow = false → exec (.optLoop v) s = .next { s with tap := { s.tap with ir := 0x10#8 } }) ∧
      (∀ tdi, exec (.bypass tdi) s =
        .next { s with tap := { s.tap with ir := 0xFF#8, bypass := BitVec.ofBool tdi }, out := s.out ++ [.tdo 0 1] })) ∧
  (∀ (s : State) (locked : BitVec 18) (new : List Nat), s.board.straps.complyEn = true → s.tap.errors = [] → new.length = 18 →
      ∃ t r, exec (.optResult locked new) s = .next t ∧ t = { s with tap := t.tap, out := s.out ++ [.tdo r 432] } ∧
        t.tap.ir = 0x11#8 ∧ t.tap.result = BitVec.ofNat 432 r ∧
        ∀ e, e < 18 →
          r / 2 ^ (24 * e) % 2 = natOfBool (s.board.resetLow && s.tap.loopback.getLsbD (4 * e + 2) && locked.getLsbD e) ∧
          r / 2 ^ (24 * e + 1) % 2 = natOfBool (s.board.laserOk.getLsbD e) ∧
          r / 2 ^ (24 * e + 2) % 2 ^ 22 =
            (if s.board.resetLow && s.tap.loopback.getLsbD (4 * e + 2) then min ((new[e]?).getD 0) (2 ^ 22 - 1) else 0))

/-! ## Host accesses and registers (file 10, file 07, file 09) -/

/-- BAR0_BAD_ACCESS (R792): a read completes with Unsupported Request, a write is discarded; both are logged through AER.
APERTURE_READ and APERTURE_WRITE (R795 to R797, R1080): offset o addresses HOSTP_APERTURE.BASE + o. An open range is read
with its poison tags or written word by word as physWrite writes it; any other access is not performed, sets APERTURE_ABORT
and is logged. A bad word that a read delivers counts as one that has failed for the launches that run (R591). -/
def Obligations.HostAccessesReachWhatTheyName : Prop :=
  (∀ (s : State) (off size : Nat), s.board.power = .good → s.hostp.linkUp = true →
      ¬((size = 4 ∨ size = 8) ∧ off % size = 0) →
      exec (.bar0BadAccess false off size) s =
        .next { s with hostp := { s.hostp with aer := s.hostp.aer ++ [.badSize false off size] }
                       out := s.out ++ [.unsupportedRequest] } ∧
      exec (.bar0BadAccess true off size) s =
        .next { s with hostp := { s.hostp with aer := s.hostp.aer ++ [.badSize true off size] } }) ∧
  (∀ (s : State) (off : Nat), s.board.power = .good → s.hostp.linkUp = true →
      (∀ size ts, 0 < size → off + size ≤ s.hostp.bar2Size → apertureOpen s (s.hostp.aperture.toNat + off) size = true →
        physRead s (s.hostp.aperture.toNat + off) size = some ts → ∃ t, exec (.apertureRead off size) s = .next t ∧
          t = { s with hostp := { s.hostp with events := if anyPoison ts then s.hostp.events ||| 8#32 else s.hostp.events }
                       out := s.out ++ [.readData (ts.map (·.1)) (anyPoison ts)]
                       mem := { s.mem with badWords := t.mem.badWords }, net := { s.net with fifos := t.net.fifos } } ∧
          ∀ n, n ≠ hubPort 1 0 → t.fifo n = s.fifo n) ∧
      (∀ size, 0 < size → off + size ≤ s.hostp.bar2Size → apertureOpen s (s.hostp.aperture.toNat + off) size = false →
        exec (.apertureRead off size) s =
          .next { s with hostp := { s.hostp with
                    aer := s.hostp.aer ++ [.apertureAbort false (s.hostp.aperture.toNat + off)]
                    events := s.hostp.events ||| 4#32 }
                         out := s.out ++ [.completerAbort] }) ∧
      (∀ data, data ≠ [] → off + data.length ≤ s.hostp.bar2Size →
        apertureOpen s (s.hostp.aperture.toNat + off) data.length = true →
        exec (.apertureWrite off data false) s =
          .next (physWrite s (s.hostp.aperture.toNat + off) (data.map (fun b => (b, false))))) ∧
      (∀ data poisoned, data ≠ [] → off + data.length ≤ s.hostp.bar2Size →
        apertureOpen s (s.hostp.aperture.toNat + off) data.length = false →
        ∃ t, exec (.apertureWrite off data poisoned) s = .next t ∧ t = { s with hostp := t.hostp } ∧
          t.hostp.aer = s.hostp.aer ++ [.apertureAbort true (s.hostp.aperture.toNat + off)] ∧
          t.hostp.events.getLsbD 2 = true))

/-- REGISTER_WRITE (R43): a write of 4 or 8 bytes to the events register of any block clears the bits written as 1, leaves the
others, and changes nothing else.
REGISTER_WRITE (R40, R41, R43): HOSTP_APERTURE and MEMC_ASTAB_BASE keep the RW bits that are written, and reserved ones stay zero; a
write of PACE_CRICKET or HOSTP_ID, which are RO, is ignored; MEMC_POISON, a counter register, has only its OVF cleared. An
aligned write of 4 or 8 bytes completes at every address, and outside the register region it changes nothing. -/
def Obligations.RegistersKeepTheirAccessTypes : Prop :=
  (∀ (s : State) (v : Word) (n : Nat), s.board.power = .good → n = 4 ∨ n = 8 →
      exec (.registerWrite .program 0x00F004000050 n v) s =
        .next { s with memc := { s.memc with events := s.memc.events &&& ~~~(v.setWidth 32) } } ∧
      exec (.registerWrite .program 0x00F002000028 n v) s =
        .next { s with pace := { s.pace with events := s.pace.events &&& ~~~(v.setWidth 32) } } ∧
      exec (.registerWrite .program 0x00F002800018 n v) s =
        .next { s with trace := { s.trace with events := s.trace.events &&& ~~~(v.setWidth 32) } } ∧
      exec (.registerWrite .program 0x00F008000028 n v) s =
        .next { s with ent := { s.ent with events := s.ent.events &&& ~~~(v.setWidth 32) } } ∧
      exec (.registerWrite .program 0x00F005800020 n v) s =
        .next { s with silk := { s.silk with events := s.silk.events &&& ~~~(v.setWidth 32) } } ∧
      (∀ c, c < 256 → exec (.registerWrite .program (0x00F001000018 + 0x10000 * c) n v) s =
        .next (s.setCluster c { s.cluster c with events := (s.cluster c).events &&& ~~~(v.setWidth 32) })) ∧
      (∀ c l, c < 256 → l < 64 → l < s.lcores → ((s.cluster c).phys l).isSome = true →
        exec (.registerWrite .program (0x00F003000008 + 0x4000 * c + 0x100 * l) n v) s =
          .next (s.modCore c l (fun k => { k with events := k.events &&& ~~~(v.setWidth 32) }))) ∧
      (∀ q, q < 16 → exec (.registerWrite .program (0x00F004800020 + 0x100 * q) n v) s =
        .next (s.setGdc q { s.gdcOf q with events := (s.gdcOf q).events &&& ~~~(v.setWidth 32) })) ∧
      (∀ d, d < 4 → exec (.registerWrite .program (0x00F005000018 + 0x100 * d) n v) s =
        .next (s.setCxl d { s.cxlOf d with events := (s.cxlOf d).events &&& ~~~(v.setWidth 32) })) ∧
      (∀ p, p < 12 → exec (.registerWrite .program (0x00F005800818 + 0x40 * p) n v) s =
        .next (s.setPort p { s.portOf p with events := (s.portOf p).events &&& ~~~(v.setWidth 32) })) ∧
      (s.hostp.linkUp = true →
        exec (.registerWrite .host 0x20 n v) s =
          .next { s with hostp := { s.hostp with events := s.hostp.events &&& ~~~(v.setWidth 32) } } ∧
        exec (.registerWrite .host 0x10018 n v) s =
          .next { s with disp := { s.disp with events := s.disp.events &&& ~~~(v.setWidth 32) } } ∧
        exec (.registerWrite .host 0x31010 n v) s =
          .next { s with mgmt := { s.mgmt with events := s.mgmt.events &&& ~~~(v.setWidth 32) } })) ∧
  (∀ (s : State) (v : Word), s.board.power = .good → s.hostp.linkUp = true →
      (∃ t, exec (.registerWrite .host 0x10 8 v) s = .next t ∧
        t = { s with hostp := { s.hostp with aperture := t.hostp.aperture } } ∧
        t.hostp.aperture &&& 0x000FFFFFC0000000#64 = v &&& 0x000FFFFFC0000000#64 ∧
        (s.hostp.aperture &&& ~~~0x000FFFFFC0000000#64 = 0#64 → t.hostp.aperture &&& ~~~0x000FFFFFC0000000#64 = 0#64)) ∧
      (∃ t, exec (.registerWrite .program 0x00F004000000 8 v) s = .next t ∧
        t = { s with memc := { s.memc with astabBase := t.memc.astabBase } } ∧
        t.memc.astabBase &&& 0x000FFFFFFFFFF001#64 = v &&& 0x000FFFFFFFFFF001#64 ∧
        (s.memc.astabBase &&& ~~~0x000FFFFFFFFFF001#64 = 0#64 → t.memc.astabBase &&& ~~~0x000FFFFFFFFFF001#64 = 0#64)) ∧
      exec (.registerWrite .program 0x00F002000000 8 v) s = .next s ∧
      exec (.registerWrite .host 0x0 8 v) s = .next s ∧
      exec (.registerWrite .program 0x00F004000038 8 v) s =
        .next { s with memc := { s.memc with poison := { s.memc.poison with ovf := s.memc.poison.ovf && !v.getLsbD 63 } } }) ∧
  (∀ (s : State) (addr n : Nat) (v : Word), s.board.power = .good → n = 4 ∨ n = 8 → addr % n = 0 →
      (∃ t, exec (.registerWrite .program addr n v) s = .next t) ∧
      (addr < Config.regBase ∨ Config.regBase + Config.regSize ≤ addr → exec (.registerWrite .program addr n v) s = .next s) ∧
      (s.hostp.linkUp = true → addr < 0x4000000 → ∃ t, exec (.registerWrite .host addr n v) s = .next t ∧ t.hostp.aer = s.hostp.aer))

/-- SQ_TAIL_WRITE (R807, R812, R880): the tail of an enabled queue moves forward within the ring and the queue is active; any
other value sets DOORBELL_IGNORED and keeps T; a queue that is not enabled ignores the write.
CQ_HEAD_WRITE and CQ_ARM_WRITE (R814, R817, R819, R880).
QUEUE_ENABLE (R803, R804, R874): an entry that keeps R802 is copied into the dispatcher with indices zero; an entry that
breaks it, an enabled queue, or a table without ENABLE sets REFUSED and leaves the queue as it is. QUEUE_DISABLE (R805). -/
def Obligations.DoorbellsMoveTheQueues : Prop :=
  (∀ (s : State) (q : Nat) (v : Word32), s.board.power = .good → s.hostp.linkUp = true → q < 4096 →
      ∃ t, exec (.sqTailWrite q v) s = .next t ∧ t = { s with disp := { s.disp with queues := t.disp.queues } } ∧
        (∀ r, r ≠ q → t.queue r = s.queue r) ∧
        (((s.queue q).state = .idle ∨ (s.queue q).state = .active) →
          (v - (s.queue q).f).toNat ≤ (s.queue q).sqEntries → ((s.queue q).t - (s.queue q).f).toNat ≤ (v - (s.queue q).f).toNat →
          t.queue q = { s.queue q with t := v, state := .active }) ∧
        (((s.queue q).state = .idle ∨ (s.queue q).state = .active) →
          ((s.queue q).sqEntries < (v - (s.queue q).f).toNat ∨ (v - (s.queue q).f).toNat < ((s.queue q).t - (s.queue q).f).toNat) →
          t.queue q = { s.queue q with doorbellIgnored := true }) ∧
        ((s.queue q).state ≠ .idle → (s.queue q).state ≠ .active → t.queue q = s.queue q)) ∧
  (∀ (s : State) (q : Nat), s.board.power = .good → s.hostp.linkUp = true → q < 4096 →
      ((s.queue q).state = .idle ∨ (s.queue q).state = .active) →
      (∀ v, ∃ t, exec (.cqHeadWrite q v) s = .next t ∧ t = { s with disp := { s.disp with queues := t.disp.queues } } ∧
        (∀ r, r ≠ q → t.queue r = s.queue r) ∧
        t.queue q = { s.queue q with
          h := v, state := if (s.queue q).t ≠ (s.queue q).f then .active else (s.queue q).state }) ∧
      (∃ t, exec (.cqArmWrite q true) s = .next t ∧
        t = { s with disp := { s.disp with queues := t.disp.queues }, out := t.out } ∧ (∀ r, r ≠ q → t.queue r = s.queue r) ∧
        ((s.queue q).c ≠ (s.queue q).h → t.queue q = { s.queue q with armed := false } ∧
          t.out = s.out ++ (if (s.queue q).vecEn then [.msix (s.queue q).vector] else [])) ∧
        ((s.queue q).c = (s.queue q).h → t.queue q = { s.queue q with armed := true } ∧ t.out = s.out)) ∧
      (∃ t, exec (.cqArmWrite q false) s = .next t ∧ t = { s with disp := { s.disp with queues := t.disp.queues } } ∧
        (∀ r, r ≠ q → t.queue r = s.queue r) ∧ t.queue q = { s.queue q with armed := false })) ∧
  (∀ (s : State) (q : Nat), s.board.power = .good → s.hostp.linkUp = true → s.mgmt.state = 2 → s.mgmt.sanitising = false →
      q < 4096 →
      (∀ ts, (s.queue q).state = .disabled → s.disp.qtabBase.getLsbD 0 = true →
        tablePlace s (bits s.disp.qtabBase.toNat 12 40 * 4096 + 64 * q) = true →
        physRead s (bits s.disp.qtabBase.toNat 12 40 * 4096 + 64 * q) 64 = some ts → anyPoison ts = false →
        entryGood (ts.map (·.1)) = true →
        ∃ t, exec (.queueEnable q) s = .next t ∧
          t = { s with disp := { s.disp with queues := t.disp.queues, qctl := t.disp.qctl } } ∧
          (∀ r, r ≠ q → t.queue r = s.queue r) ∧
          t.queue q = { state := .idle, asid := fieldAt (ts.map (·.1)) 0 2, priority := fieldAt (ts.map (·.1)) 2 1
                        vector := fieldAt (ts.map (·.1)) 4 2 % 2 ^ 11, vecEn := bit (fieldAt (ts.map (·.1)) 4 2) 15
                        sqVa := fieldAt (ts.map (·.1)) 8 8, cqVa := fieldAt (ts.map (·.1)) 0x10 8
                        sqEntries := fieldAt (ts.map (·.1)) 0x18 4, cqEntries := fieldAt (ts.map (·.1)) 0x1C 4 }) ∧
      (∀ ts, (s.queue q).state = .disabled → s.disp.qtabBase.getLsbD 0 = true →
        tablePlace s (bits s.disp.qtabBase.toNat 12 40 * 4096 + 64 * q) = true →
        physRead s (bits s.disp.qtabBase.toNat 12 40 * 4096 + 64 * q) 64 = some ts → anyPoison ts = false →
        entryGood (ts.map (·.1)) = false →
        ∃ t, exec (.queueEnable q) s = .next t ∧ t = { s with disp := { s.disp with qctl := t.disp.qctl, qctlRefused := true } }) ∧
      ((s.queue q).state ≠ .disabled ∨ s.disp.qtabBase.getLsbD 0 = false →
        ∃ t, exec (.queueEnable q) s = .next t ∧ t = { s with disp := { s.disp with qctl := t.disp.qctl, qctlRefused := true } }) ∧
      ((s.queue q).state ≠ .disabled →
        ∃ t, exec (.queueDisable q) s = .next t ∧
          t = { s with disp := { s.disp with queues := t.disp.queues, qctl := t.disp.qctl } } ∧
          (∀ r, r ≠ q → t.queue r = s.queue r) ∧
          t.queue q = { s.queue q with
            state := if s.disp.launches.all (fun l => l.queue != q) then .disabled else .disabling }))

/-- SYNC_VALUE_WRITE and SYNC_OWNER_WRITE (R831, R832, R834): VALUE becomes the larger of VALUE and v, ERROR stays; a write of
the owner sets every object of the group to zero. Each update resolves the wait edges on its object.
SILK_ROUTE_WRITE (R721, R743): the lost state of the device ends; the egress uses the new ports at once when no
transaction to the device is outstanding, and otherwise the change waits. -/
def Obligations.SyncAndRouteWritesTakeEffect : Prop :=
  (∀ s : State, s.board.power = .good → s.hostp.linkUp = true →
      (∀ n v, n < 65536 → ∃ t, exec (.syncValueWrite n v) s = .next t ∧
        t = { s with disp := { s.disp with syncs := t.disp.syncs, launches := s.disp.launches.map (Launch.update n (t.sync n)) } } ∧
        (t.sync n).value = (if (s.sync n).value < v then v else (s.sync n).value) ∧ (t.sync n).error = (s.sync n).error ∧
        ∀ k, k ≠ n → t.sync k = s.sync k) ∧
      (∀ g v, g < 256 → ∃ t, exec (.syncOwnerWrite g v) s = .next t ∧
        t = { s with disp := { s.disp with owner := t.disp.owner, syncs := t.disp.syncs, launches := t.disp.launches } } ∧
        mapGet 0#32 t.disp.owner g = v &&& 0x80000FFF#32 ∧ (∀ h, h ≠ g → mapGet 0#32 t.disp.owner h = mapGet 0#32 s.disp.owner h) ∧
        (∀ k, k / 256 = g → t.sync k = {}) ∧ (∀ k, k / 256 ≠ g → t.sync k = s.sync k))) ∧
  (∀ (s : State) (n : Nat) (ports : BitVec 12), s.board.power = .good → n < 4096 →
      ∃ t, exec (.silkRouteWrite n ports) s = .next t ∧
        t = { s with silk := { s.silk with routes := t.silk.routes, routeNext := t.silk.routeNext, lost := t.silk.lost
                                           strikes := t.silk.strikes } } ∧
        (∀ d, d ∈ t.silk.lost ↔ d ∈ s.silk.lost ∧ d ≠ n) ∧
        (n ∈ s.silk.lost → mapFind t.silk.strikes n = none) ∧ (n ∉ s.silk.lost → t.silk.strikes = s.silk.strikes) ∧
        (∀ d, d ≠ n → mapGet 0#12 t.silk.routes d = mapGet 0#12 s.silk.routes d ∧
          mapFind t.silk.routeNext d = mapFind s.silk.routeNext d) ∧
        ((∀ x ∈ s.silk.txns, x.device ≠ n) → mapGet 0#12 t.silk.routes n = ports ∧ mapFind t.silk.routeNext n = none) ∧
        ((∃ x ∈ s.silk.txns, x.device = n) → mapGet 0#12 t.silk.routes n = mapGet 0#12 s.silk.routes n ∧
          mapFind t.silk.routeNext n = some ports))

/-- INVAL_PAGE, INVAL_ADDRESS_SPACE, INVAL_ALL and INVAL_RESERVED_SCOPE (R616, R617): a GO starts the invalidation of its
scope; with SCOPE 3, or while BUSY is 1, it starts none and sets IGNORED.
INVALIDATION_COMPLETE (R576): once every transaction translated in scope has completed, no translation unit holds a
translation in scope, and BUSY is 0.
MIG_HOLD_REQUEST, MIG_HOLD_RELEASE and MIG_HOLD_HELD (R618): HOLD with its scope is written; HELD reads 1 once no migration
in scope is in progress. -/
def Obligations.InvalidationsAndMigrationHolds : Prop :=
  (∀ (s : State) (a : BitVec 12), s.board.power = .good →
      (s.memc.busy = none →
        (∃ t, exec (.invalPage a) s = .next t ∧ t = { s with memc := { s.memc with inval := t.memc.inval, busy := t.memc.busy } } ∧
          t.memc.inval = a.setWidth 32 ∧ t.memc.busy = some (.page a.toNat s.memc.invalVa.toNat)) ∧
        (∃ t, exec (.invalAddressSpace a) s = .next t ∧
          t = { s with memc := { s.memc with inval := t.memc.inval, busy := t.memc.busy } } ∧
          t.memc.inval = a.setWidth 32 + 0x1000#32 ∧ t.memc.busy = some (.space a.toNat)) ∧
        (∃ t, exec (.invalAll a) s = .next t ∧ t = { s with memc := { s.memc with inval := t.memc.inval, busy := t.memc.busy } } ∧
          t.memc.inval = a.setWidth 32 + 0x2000#32 ∧ t.memc.busy = some .all) ∧
        (∃ t, exec (.invalReservedScope a) s = .next t ∧ t = { s with memc := { s.memc with inval := t.memc.inval, ignored := true } } ∧
          t.memc.inval = a.setWidth 32 + 0x3000#32)) ∧
      (s.memc.busy ≠ none → ∀ i, i = .invalPage a ∨ i = .invalAddressSpace a ∨ i = .invalAll a ∨ i = .invalReservedScope a →
        exec i s = .next { s with memc := { s.memc with ignored := true } })) ∧
  (∀ (s : State) (x : Scope), s.board.power = .good → s.memc.busy = some x → scopeQuiet s x = true →
      ∃ t, exec .invalidationComplete s = .next t ∧
        t = { s with memc := { s.memc with busy := none, tlb := t.memc.tlb }
                     disp := { s.disp with preloads := t.disp.preloads, kept := t.disp.kept } } ∧
        (∀ u e, e ∈ mapGet [] t.memc.tlb u ↔ e ∈ mapGet [] s.memc.tlb u ∧ x.covers e.asid e.va e.bytes = false) ∧
        (∀ p, p ∈ t.disp.preloads → p ∈ s.disp.preloads) ∧ (∀ k, k ∈ t.disp.kept → k ∈ s.disp.kept)) ∧
  (∀ s : State, s.board.power = .good →
      (∀ a all, ∃ t, exec (.migHoldRequest a all) s = .next t ∧
        t = { s with memc := { s.memc with migHold := t.memc.migHold, held := false } } ∧
        t.memc.migHold = a.setWidth 32 ||| (if all then 0x1000#32 else 0#32) ||| 0x2000#32) ∧
      (∀ a all, ∃ t, exec (.migHoldRelease a all) s = .next t ∧
        t = { s with memc := { s.memc with migHold := t.memc.migHold, held := false } } ∧
        t.memc.migHold = a.setWidth 32 ||| (if all then 0x1000#32 else 0#32)) ∧
      (s.memc.migHold.getLsbD 13 = true →
        (∀ m ∈ s.memc.moves, s.memc.migHold.getLsbD 12 = false ∧ bits s.memc.migHold.toNat 0 12 ≠ m.asid) →
        exec .migHoldHeld s = .next { s with memc := { s.memc with held := true } }))

/-- MB_REQ_WRITE, MB_COMMIT and MB_ABORT (R682, R935, R936): words join the open packet while the FIFO has room; a COMMIT gives
the packet the next SEQ; an overrun packet is rewound and sets MB_OVERRUN; a rewound packet takes no SEQ.
MB_FLUSH, MB_RSP_READ and MB_RESPONSE_WRITE (R681, R684, R937, R940): a flush discards what the reader has not begun; a read
removes the word at the read end, or returns zero; an answer enters the response FIFO behind its length word when there is
room. -/
def Obligations.MailboxPacketsPassInOrder : Prop :=
  (∀ (s : State) (m : Nat), s.board.power = .good → s.hostp.linkUp = true → m < 8 →
      (∀ w, (s.box m).reqWords + 2 ≤ 513 → ∃ t, exec (.mbReqWrite m w) s = .next t ∧
        t = { s with mgmt := { s.mgmt with boxes := t.mgmt.boxes } } ∧ (∀ k, k ≠ m → t.box k = s.box k) ∧
        t.box m = { s.box m with openPkt := some ((s.box m).openPkt.getD [] ++ [w]) }) ∧
      (∀ w, 513 ≤ (s.box m).reqWords → ∃ t, exec (.mbReqWrite m w) s = .next t ∧
        t = { s with mgmt := { s.mgmt with boxes := t.mgmt.boxes } } ∧ (∀ k, k ≠ m → t.box k = s.box k) ∧
        t.box m = { s.box m with openPkt := some ((s.box m).openPkt.getD []), overrun := true }) ∧
      (∀ ws poison, (s.box m).openPkt = some ws → (s.box m).overrun = false → (s.box m).flushReq = false →
        ∃ t, exec (.mbCommit m poison) s = .next t ∧
          t = { s with mgmt := { s.mgmt with boxes := t.mgmt.boxes } } ∧ (∀ k, k ≠ m → t.box k = s.box k) ∧
          t.box m = { s.box m with openPkt := none, reqSeq := (s.box m).reqSeq + 1
                                   requests := (s.box m).requests ++ [{ words := ws, seq := (s.box m).reqSeq, poison := poison }] }) ∧
      (∀ ws poison, (s.box m).openPkt = some ws → (s.box m).overrun = true → ∃ t, exec (.mbCommit m poison) s = .next t ∧
        t = { s with mgmt := { s.mgmt with boxes := t.mgmt.boxes, events := s.mgmt.events ||| 32#32 } } ∧
        (∀ k, k ≠ m → t.box k = s.box k) ∧
        t.box m = { s.box m with openPkt := none, overrun := false, flushReq := false }) ∧
      (∀ poison, (s.box m).openPkt = none → ∃ t, exec (.mbCommit m poison) s = .next t ∧
        t = { s with mgmt := { s.mgmt with boxes := t.mgmt.boxes } } ∧ ∀ k, t.box k = s.box k) ∧
      (∃ t, exec (.mbAbort m) s = .next t ∧ t = { s with mgmt := { s.mgmt with boxes := t.mgmt.boxes } } ∧
        (∀ k, k ≠ m → t.box k = s.box k) ∧ t.box m = { s.box m with openPkt := none, overrun := false, flushReq := false })) ∧
  (∀ (s : State) (m : Nat), s.board.power = .good → s.hostp.linkUp = true → m < 8 →
      (∃ t, exec (.mbFlush m) s = .next t ∧ t = { s with mgmt := { s.mgmt with boxes := t.mgmt.boxes } } ∧
        (∀ k, k ≠ m → t.box k = s.box k) ∧ (t.box m).requests = [] ∧
        (t.box m).responses = (if (s.box m).begun then (s.box m).responses.take 1 else []) ∧
        (t.box m).openPkt = (s.box m).openPkt) ∧
      ((s.box m).responses = [] → ∃ t, exec (.mbRspRead m) s = .next t ∧
        t = { s with mgmt := { s.mgmt with boxes := t.mgmt.boxes }, out := s.out ++ [.readData [0, 0, 0, 0, 0, 0, 0, 0] false] } ∧
        ∀ k, t.box k = s.box k) ∧
      (∀ w ws rest, (s.box m).responses = (w :: ws) :: rest → (s.box m).flushRsp = false → ∃ t, exec (.mbRspRead m) s = .next t ∧
        t = { s with mgmt := { s.mgmt with boxes := t.mgmt.boxes }, out := s.out ++ [.readData (leBytes 8 w.toNat) false] } ∧
        (∀ k, k ≠ m → t.box k = s.box k) ∧
        (t.box m).responses = (if ws = [] then rest else ws :: rest) ∧ (t.box m).begun = (ws != [])) ∧
      (∀ bs, (s.box m).waiting = some bs → (s.box m).rspWords + 1 + (bs.length + 7) / 8 ≤ 513 → (s.box m).flushRsp = false →
        ∃ t, exec (.mbResponseWrite m) s = .next t ∧ t = { s with mgmt := { s.mgmt with boxes := t.mgmt.boxes } } ∧
          (∀ k, k ≠ m → t.box k = s.box k) ∧
          t.box m = { s.box m with
            waiting := none, rspSeq := (s.box m).rspSeq + 1
            responses := (s.box m).responses ++
              [BitVec.ofNat 64 (bs.length + 2 ^ 16 * (s.box m).rspSeq.toNat) :: wordsLe bs] }) ∧
      (∀ bs, (s.box m).waiting = some bs → 513 < (s.box m).rspWords + 1 + (bs.length + 7) / 8 →
        ∃ t, exec (.mbResponseWrite m) s = .next t ∧ t = { s with mgmt := { s.mgmt with boxes := t.mgmt.boxes } } ∧
          ∀ k, t.box k = s.box k))

/-! ## Mailbox commands (file 12) -/

/-- IDENTIFY, OPPOINT_GET, ADMISSION_READ, CORE_MAP_REPORT, TIER_POLICY_GET, FRAME_POOL_QUERY and TOPOLOGY_READ (R944, R946,
R948): each is answered with DONE and the body of R944, and changes nothing but its pair. With no cluster in service
SPARES_MIN is a free value (log entry 6).
TELEMETRY_READ, EVENT_READ, OP_STATUS and BAD_COMMAND (R941, R942, R944, R949, R951): EVENT_READ removes the oldest records
that it returns; a request with a poison tag is answered with POISONED and TAG 0, an unknown command code with BAD_COMMAND.
The step of an operating-point change is a free value (log entry 37). -/
def Obligations.QueriesAnswerTheirBody : Prop :=
  (∀ (s : State) (m tag : Nat),
      (Requests s m 0x0001 tag [] → ∃ t spares, exec (.identify m) s = .next t ∧
        t = { s with free := s.free + 1, mgmt := { s.mgmt with boxes := t.mgmt.boxes, nextBox := (m + 1) % 8 } } ∧
        Answered s t m 0x0001 tag 0 (pack 0x20 [(0x0, 8, s.mgmt.fwVersion.toNat), (0x8, 1, s.fuses.grade), (0x9, 1, s.lcores),
          (0xA, 1, 1), (0xB, 1, 2), (0xC, 2, deviceWord s), (0x10, 8, s.fuses.version), (0x18, 1, spares)]) ∧
        (sparesInService s ≠ [] → spares ∈ sparesInService s ∧ ∀ x ∈ sparesInService s, spares ≤ x)) ∧
      (Requests s m 0x0010 tag [] → ∃ t, exec (.oppointGet m) s = .next t ∧
        t = { s with mgmt := { s.mgmt with boxes := t.mgmt.boxes, nextBox := (m + 1) % 8 } } ∧
        Answered s t m 0x0010 tag 0 (pack 8 [(0, 1, s.mgmt.point), (1, 1, s.mgmt.nextTarget.getD s.mgmt.target),
          (2, 1, natOfBool s.mgmt.ramping)])) ∧
      (Requests s m 0x0012 tag [] → ∃ t, exec (.admissionRead m) s = .next t ∧
        t = { s with mgmt := { s.mgmt with boxes := t.mgmt.boxes, nextBox := (m + 1) % 8 } } ∧
        Answered s t m 0x0012 tag 0 s.mgmt.record.bytes) ∧
      (∀ c, c < 256 → Requests s m 0x0020 tag ([0, 0] ++ leBytes 2 c ++ [0, 0, 0, 0]) →
        ∃ t, exec (.coreMapReport m) s = .next t ∧
          t = { s with mgmt := { s.mgmt with boxes := t.mgmt.boxes, nextBox := (m + 1) % 8 } } ∧
          Answered s t m 0x0020 tag 0 (pack 8 [(0, 4, (s.view c).mapGen.toNat), (4, 1, popCount 64 (s.view c).spares.toNat)])) ∧
      (∀ a, a < 4096 → Requests s m 0x0031 tag (leBytes 2 a ++ [0, 0, 0, 0, 0, 0]) →
        ∃ t, exec (.tierPolicyGet m) s = .next t ∧
          t = { s with mgmt := { s.mgmt with boxes := t.mgmt.boxes, nextBox := (m + 1) % 8 } } ∧
          Answered s t m 0x0031 tag 0 (List.replicate 16 0#8 ++ (s.policy a).bytes)) ∧
      (∀ tier base n, tier ≤ 2 →
        Requests s m 0x0032 tag (leBytes 1 tier ++ [2, 0, 0, 0, 0, 0, 0] ++ leBytes 8 base ++ leBytes 8 n) →
        ∃ t, exec (.framePoolQuery m) s = .next t ∧
          t = { s with mgmt := { s.mgmt with boxes := t.mgmt.boxes, nextBox := (m + 1) % 8 } } ∧
          Answered s t m 0x0032 tag 0 (pack 24 [(0x0, 8, 0), (0x8, 8, (s.pool tier).freeBytes), (0x10, 8, (s.pool tier).total)])) ∧
      (∀ off, off < 2 ^ 32 → off % 8 = 0 → Requests s m 0x0040 tag (leBytes 4 off ++ [0, 0, 0, 0]) →
        ∃ t, exec (.topologyRead m) s = .next t ∧
          t = { s with mgmt := { s.mgmt with boxes := t.mgmt.boxes, nextBox := (m + 1) % 8 } } ∧
          Answered s t m 0x0040 tag 0 (pack 16 [(0x0, 4, off), (0x4, 4, min 224 (65600 - off)), (0x8, 4, mapGenSum s)] ++
            topologyBytes s off (min 224 (65600 - off))))) ∧
  (∀ (s : State) (m tag : Nat),
      (∀ unit, unit ≤ 4 → Requests s m 0x0050 tag ([0, 0] ++ leBytes 2 unit ++ [0, 0, 0, 0]) →
        ∃ t, exec (.telemetryRead m) s = .next t ∧
          t = { s with mgmt := { s.mgmt with boxes := t.mgmt.boxes, nextBox := (m + 1) % 8 } } ∧
          Answered s t m 0x0050 tag 0 (pack 8 [(0, 2, wrap 16 ((s.board.temps[unit]?).getD 0)),
            (2, 2, (s.board.supplies[unit]?).getD 0), (4, 4, (s.board.powers[unit]?).getD 0)])) ∧
      (∀ n, 1 ≤ n → n ≤ 7 → Requests s m 0x0051 tag (leBytes 1 n ++ [0, 0, 0, 0, 0, 0, 0]) →
        ∃ t, exec (.eventRead m) s = .next t ∧
          t = { s with mgmt := { s.mgmt with boxes := t.mgmt.boxes, nextBox := (m + 1) % 8, log := s.mgmt.log.drop n } } ∧
          Answered s t m 0x0051 tag 0 (pack 16 [(0x0, 1, min n s.mgmt.log.length), (0x8, 8, s.mgmt.eventLost.reg)] ++
            (s.mgmt.log.take n).flatMap EvRec.bytes)) ∧
      (∀ k, 1 ≤ k → k ≤ 4 → Requests s m 0x00F0 tag (leBytes 1 k ++ [0, 0, 0, 0, 0, 0, 0]) →
        ∃ t step, exec (.opStatus m) s = .next t ∧
          t = { s with free := s.free + 1, mgmt := { s.mgmt with boxes := t.mgmt.boxes, nextBox := (m + 1) % 8 } } ∧
          Answered s t m 0x00F0 tag 0
            (pack 16 [(0x0, 1, (s.op k).state), (0x1, 1, step), (0x2, 2, (s.op k).result), (0x8, 8, (s.op k).detail)]) ∧
          (k ≠ 1 → step = (s.op k).step)) ∧
      (∀ p, s.on = true → nextRequest s m = some p → p.poison = true → ∃ t, exec (.badCommand m) s = .next t ∧
        t = { s with mgmt := { s.mgmt with boxes := t.mgmt.boxes, nextBox := (m + 1) % 8 } } ∧
        Answered s t m 0 0 0x104 []) ∧
      (∀ code body, code < 65536 → code ∉ knownCodes → Requests s m code tag body → ∃ t, exec (.badCommand m) s = .next t ∧
        t = { s with mgmt := { s.mgmt with boxes := t.mgmt.boxes, nextBox := (m + 1) % 8 } } ∧
        Answered s t m code tag 0x100 []))

/-- CONFIG_SET, PAIR_SET and LINK_SET_SYNC_ROLE (R944, R945, R948): with no launch outstanding each takes effect and is answered
with DONE; otherwise it is answered with NOT_PERMITTED and changes nothing.
OPPOINT_SET (R956, R957, R1041): Boost is NOT_PERMITTED while BOOST_EN was low at power-good; the current point with no ramp
pending is answered with DONE; any other point with STARTED, and it is pending, or it waits for the end of the ramp that
runs; a request for the current point cancels a pending change.
Reserved bits of a device number are BAD_ARGUMENT by log entry 45. -/
def Obligations.FabricAndOperatingPointRequests : Prop :=
  (∀ (s : State) (m tag : Nat),
      (∀ d, d < 4096 → Requests s m 0x0002 tag (leBytes 2 d ++ [0, 0, 0, 0, 0, 0]) → ∃ t, exec (.configSet m) s = .next t ∧
        (s.mgmt.summary.outstanding = 0 → Answered s t m 0x0002 tag 0 [] ∧
          t = { s with mgmt := { s.mgmt with boxes := t.mgmt.boxes, nextBox := (m + 1) % 8 }
                       silk := { s.silk with device := some d } }) ∧
        (s.mgmt.summary.outstanding ≠ 0 → Answered s t m 0x0002 tag 0x201 [] ∧
          t = { s with mgmt := { s.mgmt with boxes := t.mgmt.boxes, nextBox := (m + 1) % 8 } })) ∧
      (∀ on role d, role < 2 → d < 4096 →
        Requests s m 0x00A0 tag ([if on then 1 else 0] ++ leBytes 1 role ++ leBytes 2 d ++ [0, 0, 0, 0]) →
        ∃ t, exec (.pairSet m) s = .next t ∧
          (s.mgmt.summary.outstanding = 0 → Answered s t m 0x00A0 tag 0 [] ∧
            t = { s with mgmt := { s.mgmt with boxes := t.mgmt.boxes, nextBox := (m + 1) % 8 }
                         silk := { s.silk with
                           pairEnable := on, pairRole := role, pairPartner := d
                           pairCompared := if on && !s.silk.pairEnable then 0 else s.silk.pairCompared } }) ∧
          (s.mgmt.summary.outstanding ≠ 0 → Answered s t m 0x00A0 tag 0x201 [] ∧
            t = { s with mgmt := { s.mgmt with boxes := t.mgmt.boxes, nextBox := (m + 1) % 8 } })) ∧
      (∀ d role arg, role ≤ 2 → d < 4096 →
        Requests s m 0x0060 tag ([6, 0] ++ leBytes 2 d ++ leBytes 2 role ++ [0, 0] ++ leBytes 8 arg) →
        ∃ t, exec (.linkSetSyncRole m) s = .next t ∧
          (s.mgmt.summary.outstanding = 0 → Answered s t m 0x0060 tag 0 [] ∧
            t = { s with mgmt := { s.mgmt with boxes := t.mgmt.boxes, nextBox := (m + 1) % 8 }
                         silk := { s.silk with role := role, master := if role = 2 then d else 0, locked := false
                                               sync := { lastAt := s.pace.cricket } } }) ∧
          (s.mgmt.summary.outstanding ≠ 0 → Answered s t m 0x0060 tag 0x201 [] ∧
            t = { s with mgmt := { s.mgmt with boxes := t.mgmt.boxes, nextBox := (m + 1) % 8 } }))) ∧
  (∀ (s : State) (m tag pt : Nat), pt ≤ 2 → Requests s m 0x0011 tag (leBytes 1 pt ++ [0, 0, 0, 0, 0, 0, 0]) →
      ∃ t, exec (.oppointSet m) s = .next t ∧ t = { s with mgmt := t.mgmt } ∧ t.mgmt.point = s.mgmt.point ∧
        t.mgmt.ramping = s.mgmt.ramping ∧
        (pt = 2 → s.board.straps.boostEn = false → Answered s t m 0x0011 tag 0x201 [] ∧
          t.mgmt = { s.mgmt with boxes := t.mgmt.boxes, nextBox := (m + 1) % 8 }) ∧
        (¬(pt = 2 ∧ s.board.straps.boostEn = false) →
          (s.mgmt.ramping = true → Answered s t m 0x0011 tag 1 (pointBody t) ∧
            t.mgmt = { s.mgmt with boxes := t.mgmt.boxes, nextBox := (m + 1) % 8, nextTarget := some pt }) ∧
          (s.mgmt.ramping = false → pt ≠ s.mgmt.point → Answered s t m 0x0011 tag 1 (pointBody t) ∧
            t.mgmt.rampPending = true ∧ t.mgmt.target = pt ∧ t.mgmt.record.point = min pt s.mgmt.point ∧
            t.mgmt.record.pending = decide (pt < s.mgmt.point) ∧ (t.op 1).state = 1) ∧
          (s.mgmt.ramping = false → pt = s.mgmt.point → s.mgmt.rampPending = true → Answered s t m 0x0011 tag 1 (pointBody t) ∧
            t.mgmt.rampPending = false ∧ t.mgmt.target = pt ∧ t.mgmt.record.point = pt ∧ t.mgmt.record.pending = false ∧
            (t.op 1).state = 2) ∧
          (s.mgmt.ramping = false → pt = s.mgmt.point → s.mgmt.rampPending = false → Answered s t m 0x0011 tag 0 (pointBody t) ∧
            t.mgmt = { s.mgmt with boxes := t.mgmt.boxes, nextBox := (m + 1) % 8 })))

/-- CORE_MAP_FENCE, CORE_MAP_RETIRE_SLICE and CORE_MAP_CLUSTER_RESET (R76, R948, R965): the request leaves its pair, an order sets
out to the cluster controller, or for a reset to the dispatcher, and the answer is owed; a position that the records of the
cluster have told to be fenced is answered with DONE at once.
TIER_POLICY_SET, FRAME_POOL_ADD and FRAME_POOL_REMOVE (R605, R607, R944): the policy of an address space is set; frames
that lie in the tier and in no frame of the pool join it, and free frames leave it.
What FRAME_POOL accepts is the model's reading (log entry 39). -/
def Obligations.CoreMapPolicyAndPoolCommands : Prop :=
  (∀ (s : State) (m tag c : Nat), c < 256 →
      (∀ p, p < 64 → Requests s m 0x0020 tag ([1, 0] ++ leBytes 2 c ++ leBytes 1 p ++ [0, 0, 0]) →
        ∃ t, exec (.coreMapFence m) s = .next t ∧
          (bit (s.view c).fenced.toNat p = true →
            t = { s with mgmt := { s.mgmt with boxes := t.mgmt.boxes, nextBox := (m + 1) % 8 } } ∧
            Answered s t m 0x0020 tag 0 (mapBody s c)) ∧
          (bit (s.view c).fenced.toNat p = false → AnswerOwed s t m ∧
            Ordered s t [orderPkt .controller c 0 (.fence p (some { pair := m, command := 0x0020, tag := tag }))] ∧
            t = { s with mgmt := { s.mgmt with boxes := t.mgmt.boxes, nextBox := (m + 1) % 8 }
                         net := { s.net with fifos := t.net.fifos } })) ∧
      (∀ sl, sl < 16 → Requests s m 0x0020 tag ([2, 0] ++ leBytes 2 c ++ leBytes 1 sl ++ [0, 0, 0]) →
        ∃ t, exec (.coreMapRetireSlice m) s = .next t ∧ AnswerOwed s t m ∧
          Ordered s t [orderPkt .controller c 0 (.retireSlice sl (some { pair := m, command := 0x0020, tag := tag }))] ∧
          t = { s with mgmt := { s.mgmt with boxes := t.mgmt.boxes, nextBox := (m + 1) % 8 }
                       net := { s.net with fifos := t.net.fifos } }) ∧
      (∀ item, item < 256 → Requests s m 0x0020 tag ([3, 0] ++ leBytes 2 c ++ leBytes 1 item ++ [0, 0, 0]) →
        ∃ t, exec (.coreMapClusterReset m) s = .next t ∧ AnswerOwed s t m ∧
          Ordered s t [orderPkt .hub 0 0 (.reset c (some { pair := m, command := 0x0020, tag := tag }))] ∧
          t = { s with mgmt := { s.mgmt with boxes := t.mgmt.boxes, nextBox := (m + 1) % 8 }
                       net := { s.net with fifos := t.net.fifos } })) ∧
  (∀ (s : State) (m tag : Nat),
      (∀ a record, a < 4096 → record.length = 64 → fieldAt record 0 1 < 2 → fieldAt record 1 1 < 8 → fieldAt record 2 2 = 0 →
        zeroAt record 0x28 24 = true →
        Requests s m 0x0030 tag (leBytes 2 a ++ List.replicate 14 0#8 ++ record) →
        ∃ t, exec (.tierPolicySet m) s = .next t ∧ Answered s t m 0x0030 tag 0 [] ∧
          t = { s with mgmt := { s.mgmt with boxes := t.mgmt.boxes, nextBox := (m + 1) % 8 }
                       memc := { s.memc with policies := t.memc.policies } } ∧
          t.policy a = { enable := decide (fieldAt record 0 1 = 1), tiers := BitVec.ofNat 3 (fieldAt record 1 1)
                         minResidenceUs := fieldAt record 4 4, stackedCap := fieldAt record 8 8
                         gddrCap := fieldAt record 0x10 8, rate := fieldAt record 0x18 8
                         promote := fieldAt record 0x20 4, demote := fieldAt record 0x24 4 } ∧
          ∀ b, b ≠ a → t.policy b = s.policy b) ∧
      (∀ tier base n, tier ≤ 2 → base < 2 ^ 64 → n < 2 ^ 64 →
        Requests s m 0x0032 tag (leBytes 1 tier ++ [0, 0, 0, 0, 0, 0, 0] ++ leBytes 8 base ++ leBytes 8 n) →
        ∃ t, exec (.framePoolAdd m) s = .next t ∧
          (base % 65536 = 0 → n % 65536 = 0 → tierRange s tier base n = true →
            (∀ f ∈ (s.pool tier).frames, base + n ≤ f.1 ∨ f.1 + f.2 ≤ base) →
            t = { s with mgmt := { s.mgmt with boxes := t.mgmt.boxes, nextBox := (m + 1) % 8 }
                         memc := { s.memc with pools := t.memc.pools } } ∧
            Answered s t m 0x0032 tag 0 (poolBody t tier n) ∧ (base, n) ∈ (t.pool tier).frames ∧
            (∀ f ∈ (s.pool tier).frames, f ∈ (t.pool tier).frames) ∧ (t.pool tier).total = (s.pool tier).total + n ∧
            ∀ u, u ≠ tier → t.pool u = s.pool u) ∧
          (base % 65536 ≠ 0 ∨ n % 65536 ≠ 0 ∨ tierRange s tier base n = false →
            Answered s t m 0x0032 tag 0x102 [] ∧
            t = { s with mgmt := { s.mgmt with boxes := t.mgmt.boxes, nextBox := (m + 1) % 8 } })) ∧
      (∀ tier base n, tier ≤ 2 → base < 2 ^ 64 → n < 2 ^ 64 → base % 65536 = 0 → n % 65536 = 0 → tierRange s tier base n = true →
        Requests s m 0x0032 tag (leBytes 1 tier ++ [1, 0, 0, 0, 0, 0, 0] ++ leBytes 8 base ++ leBytes 8 n) →
        ∃ t done, exec (.framePoolRemove m) s = .next t ∧
          t = { s with mgmt := { s.mgmt with boxes := t.mgmt.boxes, nextBox := (m + 1) % 8 }
                       memc := { s.memc with pools := t.memc.pools } } ∧
          Answered s t m 0x0032 tag 0 (poolBody t tier done) ∧
          (∀ f ∈ (t.pool tier).frames, f.1 + f.2 ≤ base ∨ base + n ≤ f.1) ∧
          done = (s.pool tier).freeBytes - (t.pool tier).freeBytes ∧ (t.pool tier).total = (s.pool tier).total - done ∧
          ∀ u, u ≠ tier → t.pool u = s.pool u))

/-- LINK_RETIRE_CHANNEL, LINK_ADD_EXPANDER, LINK_REMOVE_EXPANDER, LINK_RETRAIN_LANE, LINK_OE17_TAKEOVER and LINK_OE17_HANDBACK
(R75, R943, R948): with no link operation running each is answered with STARTED and is the link operation that runs, with
OP_STATUS KIND 4 at STATE 1 and STEP 1; its orders set out to the units concerned: to the GDDR7 controller and the dispatcher, to
the CXL port, to both, or to the Silk port of the link; the host link begins to move itself.
That the host link moves without an order is the model's reading (log entry 84). -/
def Obligations.LinkCommandsStartTheirOperation : Prop :=
  ∀ (s : State) (m tag arg : Nat), s.mgmt.link = none →
    (∀ q k, q < 16 → k < 4 → retirable (mapGet 0#4 s.mgmt.view.retired q) q k = true →
      Requests s m 0x0060 tag ([0, 0] ++ leBytes 2 q ++ leBytes 2 k ++ [0, 0] ++ leBytes 8 arg) →
      ∃ t, exec (.linkRetireChannel m) s = .next t ∧ Answered s t m 0x0060 tag 1 [] ∧ LinkRuns s t m (.retireChannel q k) ∧
        t.hostp = s.hostp ∧
        Ordered s t [orderPkt .attached (gddrAttach q) 0 (.drainChannel k), orderPkt .hub 0 0 (.retireChannel q k)]) ∧
    (∀ p item, p < 4 → item < 65536 → Requests s m 0x0060 tag ([1, 0] ++ leBytes 2 p ++ leBytes 2 item ++ [0, 0] ++ leBytes 8 arg) →
      ∃ t, exec (.linkAddExpander m) s = .next t ∧ Answered s t m 0x0060 tag 1 [] ∧ LinkRuns s t m (.addExpander p) ∧
        t.hostp = s.hostp ∧ Ordered s t [orderPkt .hub 0 (2 + p) .addDevices]) ∧
    (∀ p item, p < 4 → item < 65536 → arg < 2 ^ 64 →
      (∃ r ∈ mapGet [] s.mgmt.view.devices p, Config.cxlBase + p * 2 ^ 42 + r.1 = arg) →
      Requests s m 0x0060 tag ([2, 0] ++ leBytes 2 p ++ leBytes 2 item ++ [0, 0] ++ leBytes 8 arg) →
      ∃ t, exec (.linkRemoveExpander m) s = .next t ∧ Answered s t m 0x0060 tag 1 [] ∧ LinkRuns s t m (.removeExpander p arg) ∧
        t.hostp = s.hostp ∧
        Ordered s t [orderPkt .hub 0 (2 + p) .drainDevice, orderPkt .hub 0 0 (.removeDevice p arg)]) ∧
    (∀ p lane, p < 12 → lane < 8 →
      Requests s m 0x0060 tag ([3, 0] ++ leBytes 2 p ++ leBytes 2 lane ++ [0, 0] ++ leBytes 8 arg) →
      ∃ t, exec (.linkRetrainLane m) s = .next t ∧ Answered s t m 0x0060 tag 1 [] ∧ LinkRuns s t m (.retrainLane p lane) ∧
        t.hostp = s.hostp ∧ Ordered s t [orderPkt .hub 0 (6 + p) (.retrainLane lane)]) ∧
    (∀ e item, (e < 12 ∨ e = 16) → item < 65536 → s.mgmt.oe17 = none →
      Requests s m 0x0060 tag ([4, 0] ++ leBytes 2 e ++ leBytes 2 item ++ [0, 0] ++ leBytes 8 arg) →
      ∃ t, exec (.linkOe17Takeover m) s = .next t ∧ Answered s t m 0x0060 tag 1 [] ∧ LinkRuns s t m (.takeover e) ∧
        t.mgmt.oe17 = some e ∧ (e < 12 → t.hostp = s.hostp ∧ Ordered s t [orderPkt .hub 0 (6 + e) (.moveLink 17)]) ∧
        (e = 16 → t.hostp = { s.hostp with moving := some 17 } ∧ t.net = s.net)) ∧
    (∀ unit item e, unit < 65536 → item < 65536 → s.mgmt.oe17 = some e →
      Requests s m 0x0060 tag ([5, 0] ++ leBytes 2 unit ++ leBytes 2 item ++ [0, 0] ++ leBytes 8 arg) →
      ∃ t, exec (.linkOe17Handback m) s = .next t ∧ Answered s t m 0x0060 tag 1 [] ∧ LinkRuns s t m .handback ∧
        t.mgmt.oe17 = some e ∧ (e ≠ 16 → t.hostp = s.hostp ∧ Ordered s t [orderPkt .hub 0 (6 + e) (.moveLink e)]) ∧
        (e = 16 → t.hostp = { s.hostp with moving := some 16 } ∧ t.net = s.net))

/-- FW_BEGIN, FW_DATA, FW_COMMIT and FW_ABORT (R944, R962, R964, R1013): an upload of SIZE bytes opens, takes bytes at offsets,
and is checked at FW_COMMIT: an update that passes is STARTED and the first cluster controller is ordered to hand over, one that
fails leaves the running firmware; FW_ABORT abandons the upload.
SANITISE and ATTEST (R944, R947, step 1 of Sanitise): SANITISE needs CONFIRM, every queue disabled, no launch outstanding and
no live update that hands over; ATTEST builds a report for a new nonce and answers with a fragment of the pair's report.
The result codes of the FW commands are the model's reading (log entry 46), and the cryptography stands in published standards (log entry 13). -/
def Obligations.FirmwareAndTrustCommands : Prop :=
  (∀ (s : State) (m tag : Nat),
      (∀ size, 1 ≤ size → size ≤ 2 ^ 27 → s.mgmt.updating = false →
        Requests s m 0x0070 tag ([1, 0, 0, 0, 0, 0, 0, 0] ++ leBytes 8 size) → ∃ t, exec (.fwBegin m) s = .next t ∧
          Answered s t m 0x0070 tag 0 [] ∧
          t = { s with mgmt := { s.mgmt with boxes := t.mgmt.boxes, nextBox := (m + 1) % 8, updating := true
                                             upload := some { update := true, size := size, bytes := [] } } }) ∧
      (∀ size, 2 ^ 27 < size → size < 2 ^ 64 → Requests s m 0x0070 tag ([1, 0, 0, 0, 0, 0, 0, 0] ++ leBytes 8 size) →
        ∃ t, exec (.fwBegin m) s = .next t ∧ Answered s t m 0x0070 tag 0x102 [] ∧
          t = { s with mgmt := { s.mgmt with boxes := t.mgmt.boxes, nextBox := (m + 1) % 8 } }) ∧
      (∀ u off data, s.mgmt.upload = some u → off % 8 = 0 → data.length % 8 = 0 → 8 ≤ data.length → data.length ≤ 224 →
        off + data.length ≤ (u.size + 7) / 8 * 8 → off < 2 ^ 64 →
        Requests s m 0x0071 tag (leBytes 8 off ++ leBytes 2 data.length ++ [0, 0, 0, 0, 0, 0] ++ data) →
        ∃ t v, exec (.fwData m) s = .next t ∧ Answered s t m 0x0071 tag 0 [] ∧
          t = { s with mgmt := { s.mgmt with boxes := t.mgmt.boxes, nextBox := (m + 1) % 8, upload := some v } } ∧
          v.update = u.update ∧ v.size = u.size ∧
          ∀ k, mapFind v.bytes k = if off ≤ k ∧ k < off + data.length then data[k - off]? else mapFind u.bytes k) ∧
      (∀ u, s.mgmt.upload = some u → u.update = true → imageCheck s u ≠ 0 → Requests s m 0x0072 tag [] →
        ∃ t, exec (.fwCommit m) s = .next t ∧ Answered s t m 0x0072 tag 1 [] ∧ t = { s with mgmt := t.mgmt } ∧
          t.mgmt.upload = none ∧ t.mgmt.updating = false ∧ t.mgmt.image = s.mgmt.image ∧ t.mgmt.fwVersion = s.mgmt.fwVersion ∧
          (t.op 2).state = 3 ∧ (t.op 2).detail = imageCheck s u) ∧
      (∀ u, s.mgmt.upload = some u → u.update = true → imageCheck s u = 0 → Requests s m 0x0072 tag [] →
        ∃ t, exec (.fwCommit m) s = .next t ∧ Answered s t m 0x0072 tag 1 [] ∧ t.mgmt.upload = none ∧
          t.mgmt.newImage = some (imageOf (u.image.getD [])) ∧ t.mgmt.image = s.mgmt.image ∧
          Ordered s t [orderPkt .controller 0 0 .handover] ∧ t.clusters = s.clusters ∧ (t.op 2).state = 1) ∧
      (∀ u, s.mgmt.upload = some u → Requests s m 0x0073 tag [] → ∃ t, exec (.fwAbort m) s = .next t ∧
        Answered s t m 0x0073 tag 0 [] ∧
        t = { s with mgmt := { s.mgmt with boxes := t.mgmt.boxes, nextBox := (m + 1) % 8, upload := none, updating := false } })) ∧
  (∀ (s : State) (m tag : Nat),
      (s.mgmt.newImage = none → Requests s m 0x0080 tag (leBytes 4 0x53414E49 ++ [0, 0, 0, 0]) →
        ∃ t, exec (.sanitise m) s = .next t ∧ t = { s with mgmt := t.mgmt } ∧
          (s.mgmt.summary.outstanding = 0 → (∀ e ∈ s.disp.queues, e.2.state = .disabled) →
            Answered s t m 0x0080 tag 1 [] ∧ t.mgmt.sanitising = true ∧ t.mgmt.sanitised = false ∧ (t.op 3).state = 1) ∧
          (s.mgmt.summary.outstanding ≠ 0 ∨ (∃ e ∈ s.disp.queues, e.2.state ≠ .disabled) →
            Answered s t m 0x0080 tag 0x201 [] ∧ t.mgmt.sanitising = false ∧ t.mgmt.sanitised = s.mgmt.sanitised)) ∧
      (∀ nonce fragment, nonce.length = 48 → fragment < 2 →
        Requests s m 0x0090 tag (nonce ++ leBytes 2 fragment ++ [0, 0, 0, 0, 0, 0]) → ∃ t report, exec (.attest m) s = .next t ∧
          t = { s with mgmt := { s.mgmt with boxes := t.mgmt.boxes, nextBox := (m + 1) % 8 } } ∧
          (t.box m).waiting = some (message 0x0090 tag 0
            (pack 16 [(0x0, 2, 2), (0x2, 2, fragment), (0x4, 2, 224)] ++ (report.drop (224 * fragment)).take 224)) ∧
          (t.box m).requests = (s.box m).requests.drop 1 ∧ (t.box m).nonce = some nonce ∧ (t.box m).report = report ∧
          ((s.box m).nonce = some nonce → report = (s.box m).report) ∧
          ((s.box m).nonce ≠ some nonce → report = attestation s nonce) ∧ ∀ k, k ≠ m → t.box k = s.box k))

/-! ## Events and orders (file 01, file 07, file 12) -/

/-- EVENT_RECORD (R74, R75, R951, R977): the packet at the hub crossbar's output to the management processor is taken. An event
record joins the log with the Cricket count of its arrival, or while the log is full is dropped and counted in
MGMT_EVENT_LOST; a record of a network drop makes the management processor order aborts. The result of an order answers the
request that awaits it.
COUNTER_SNAPSHOT and HEAT_SNAPSHOT (R75, R604, R949), each once its period of 1,000,000 ticks has passed: the units send their
count words, counters and heat entries to the management processor; heat entries start again at zero.
TELEMETRY_REFRESH (R949), once its period has passed, takes the readings.
How result and snapshot records travel is the model's reading (log entry 84). -/
def Obligations.EventsAreLoggedAndSnapshotsTaken : Prop :=
  (∀ (s : State) (k : Pkt) (ks : List Pkt), s.board.power = .good → s.fifo (fifoNum .hub 1 0) = k :: ks →
      (∀ e, k.payload = .event e → e.kind ≠ 16 → ∃ t, exec .eventRecord s = .next t ∧
        t = { s with mgmt := t.mgmt, net := { s.net with fifos := t.net.fifos } } ∧ t.fifo (fifoNum .hub 1 0) = ks ∧
        (∀ n, n ≠ fifoNum .hub 1 0 → t.fifo n = s.fifo n) ∧ LogsRecord s t e) ∧
      (∀ e die, k.payload = .event e → e.kind = 16 → die = (if e.source < 256 then e.source / 64 else 4) →
        ∃ t, exec .eventRecord s = .next t ∧ t = { s with mgmt := t.mgmt, net := { s.net with fifos := t.net.fifos } } ∧
        t.fifo (hubPort 1 0) = s.fifo (hubPort 1 0) ++ [orderPkt .hub 0 0 (.abort die)] ∧ LogsRecord s t e) ∧
      (∀ c code r, k.payload = .result (.order c code (some r)) → ∃ t, exec .eventRecord s = .next t ∧
        t = { s with mgmt := { s.mgmt with boxes := t.mgmt.boxes }, net := { s.net with fifos := t.net.fifos } } ∧
        t.box r.pair = { s.box r.pair with waiting := some (message r.command r.tag code (mapBody s c)), busy := false } ∧
        ∀ m, m ≠ r.pair → t.box m = s.box m)) ∧
  (∀ s : State, s.board.power = .good →
      (s.mgmt.snapshotAt + 1000000 ≤ s.pace.cricket → ∃ t, exec .counterSnapshot s = .next t ∧
        t = { s with mgmt := { s.mgmt with snapshotAt := s.pace.cricket }, net := { s.net with fifos := t.net.fifos } } ∧
        (∀ d, d < 4 → ∃ k, t.fifo (fifoNum (.bridge d) 0 0) = s.fifo (fifoNum (.bridge d) 0 0) ++ [k] ∧
          ∃ counts, k.payload = .result (.fifos d counts) ∧ counts.length = 15 ∧ ∀ f, f < 15 →
            counts[f]? = some (((s.fifo (254976 + 15 * d + f)).map (·.flits)).sum + 128 * (s.fifo (254976 + 15 * d + f)).length)) ∧
        (∃ k, t.fifo (fifoNum .hub 1 0) = s.fifo (fifoNum .hub 1 0) ++ [k] ∧
          ∃ counts, k.payload = .result (.fifos 4 counts) ∧ counts.length = 66 ∧ ∀ f, f < 66 →
            counts[f]? = some (((s.fifo (255036 + f)).map (·.flits)).sum + 128 * (s.fifo (255036 + f)).length)) ∧
        (∀ c, c < 256 → t.fifo (ctlPort c 0) = s.fifo (ctlPort c 0) ++ [reportPkt c (.result (.counters c
          [(s.cluster c).netPoison.reg, (s.cluster c).netDrops.reg, (s.cluster c).netMerges.reg]))]) ∧
        ∀ q, q < 16 → ∃ k, t.fifo (attPort q 0) = s.fifo (attPort q 0) ++ [k] ∧
          k.payload = .result (.counters (256 + q) [(s.gdcOf q).crc.reg, (s.gdcOf q).ecc.reg, (s.gdcOf q).poison.reg])) ∧
      (s.mgmt.heatAt + 1000000 ≤ s.pace.cricket → ∃ t, exec .heatSnapshot s = .next t ∧
        t = { s with mgmt := { s.mgmt with heatAt := s.pace.cricket }, net := { s.net with fifos := t.net.fifos }
                     memc := { s.memc with moved := [], heat := t.memc.heat } } ∧
        t.memc.heat = s.memc.heat.map (fun u => (u.1, { u.2 with entries := [] })) ∧
        (∀ e ∈ s.memc.heat, ∃ k ∈ t.fifo (unitPort e.1), k.payload = .result (.heat e.1 e.2.entries)) ∧
        ∀ n, (∀ e ∈ s.memc.heat, n ≠ unitPort e.1) → t.fifo n = s.fifo n) ∧
      (∀ temps supplies powers, s.mgmt.refreshAt + 1000000 ≤ s.pace.cricket →
        exec (.telemetryRefresh temps supplies powers) s =
          .next { s with board := { s.board with temps := temps, supplies := supplies, powers := powers }
                         mgmt := { s.mgmt with refreshAt := s.pace.cricket } }))

/-- FAULT_REPORT (Fencing a core in service, steps 1 and 2; R115): a fault record is logged, and the order that the management
processor decides on sets out to the cluster, unless the position is a spare that faults in the rerun of step 6.
FENCE_ORDER on a cluster at a step boundary that no running launch uses (R104, R107, R116, R117, R1084): a fenced spare leaves
the spares; a fenced position that backs a logical index hands it to the nearest spare, or leaves it unbacked; CLU_MAP_GEN moves,
the events register and the event records tell, and the outcome of an order that came from a request is reported.
The decision on a fault is an operand (log entry 16). -/
def Obligations.FaultsBringOrdersThatChangeTheMap : Prop :=
  (∀ (s : State) (c pos addr : Nat) (d : Decision), s.board.power = .good → c < 256 →
      (∀ l ∈ (s.cluster c).rerun, (s.cluster c).phys l ≠ some pos) →
      ∃ t, exec (.faultReport c pos addr d) s = .next t ∧
        t = { s with mgmt := t.mgmt, net := { s.net with fifos := t.net.fifos } } ∧
        LogsRecord s t { kind := 2, source := c, wher := BitVec.ofNat 64 addr, detail := BitVec.ofNat 64 pos } ∧
        Ordered s t (match d with
          | .nothing => []
          | .fence p => [orderPkt .controller c 0 (.fence p none)]
          | .retireSlice n => [orderPkt .controller c 0 (.retireSlice n none)])) ∧
  (∀ (s : State) (c p : Nat) (r : Option Reply) (rest : List Order), s.board.power = .good → c < 256 →
      (s.cluster c).orders = .fence p r :: rest → (s.cluster c).state = .idle → (s.cluster c).launch = none → boundFor s c p = false →
      p < 64 → bit (s.cluster c).fenced.toNat p = false →
      (bit (s.cluster c).spares.toNat p = true → ∃ t, exec (.fenceOrder c) s = .next t ∧
        t = { s with clusters := t.clusters, net := { s.net with fifos := t.net.fifos } } ∧ (∀ d, d ≠ c → t.cluster d = s.cluster d) ∧
        t.cluster c = { s.cluster c with
          orders := rest, fenced := (t.cluster c).fenced, spares := (t.cluster c).spares
          events := (s.cluster c).events ||| 1#32, mapGen := (s.cluster c).mapGen + 1 } ∧
        (∀ k, k < 64 → bit (t.cluster c).fenced.toNat k = (k == p || bit (s.cluster c).fenced.toNat k)) ∧
        (∀ k, k < 64 → bit (t.cluster c).spares.toNat k = (k != p && bit (s.cluster c).spares.toNat k)) ∧
        Reported s t c ([eventOf 3 c 0 p] ++ outcomeOf c 0 r)) ∧
      (∀ l q, bit (s.cluster c).spares.toNat p = false → findIdx (fun e => e == some p) (s.cluster c).map 0 = some l →
        nearestSpare l (s.cluster c).spares.toNat = some q → ∃ t, exec (.fenceOrder c) s = .next t ∧
        t = { s with clusters := t.clusters, net := { s.net with fifos := t.net.fifos } } ∧ (∀ d, d ≠ c → t.cluster d = s.cluster d) ∧
        t.cluster c = { s.cluster c with
          orders := rest, fenced := (t.cluster c).fenced, spares := (t.cluster c).spares, map := (t.cluster c).map
          events := (s.cluster c).events ||| 1#32 ||| 2#32, mapGen := (s.cluster c).mapGen + 1 } ∧
        (∀ k, k < (s.cluster c).map.length →
          (t.cluster c).map[k]? = if k = l then some (some q) else (s.cluster c).map[k]?) ∧
        (∀ k, k < 64 → bit (t.cluster c).fenced.toNat k = (k == p || bit (s.cluster c).fenced.toNat k)) ∧
        (∀ k, k < 64 → bit (t.cluster c).spares.toNat k = (k != q && bit (s.cluster c).spares.toNat k)) ∧
        Reported s t c ([eventOf 3 c 0 p, eventOf 4 c 0 q] ++ outcomeOf c 0 r)) ∧
      (∀ l, bit (s.cluster c).spares.toNat p = false → findIdx (fun e => e == some p) (s.cluster c).map 0 = some l →
        nearestSpare l (s.cluster c).spares.toNat = none →
        (∀ x ∈ s.disp.launches, x.phase = .armed → bit x.header.clusters c = false) → ∃ t, exec (.fenceOrder c) s = .next t ∧
        t = { s with clusters := t.clusters, net := { s.net with fifos := t.net.fifos } } ∧ (∀ d, d ≠ c → t.cluster d = s.cluster d) ∧
        (t.cluster c).phys l = none ∧ (t.cluster c).events = (s.cluster c).events ||| 1#32 ||| 4#32 ∧
        (t.cluster c).mapGen = (s.cluster c).mapGen + 1 ∧ (t.cluster c).orders = rest ∧
        Reported s t c ([eventOf 3 c 0 p, eventOf 5 c 0 l] ++ outcomeOf c 0 r)))

/-- RETIRE_SLICE_ORDER on an idle cluster (R596, R598, Slice retirement): with a redirect slot free and room in the poison list, the
slice leaves service, its slot takes it, its poisoned words are listed; otherwise the order fails and sets SLOTS_EXHAUSTED; a
slice already retired stays as it is. The outcome of an order that came from a request is reported.
CLUSTER_UNIT_FAULT, ROUTER_FAULT and CLUSTER_TEST_ORDER (R119, R965): a faulty cluster, or every cluster of a faulty die, is
out of service, its launches end with UNIT_UNAVAILABLE, and a record of kind 8 is sent; a cluster that passes its test is
idle, one that fails stays out of service with another such record. -/
def Obligations.SlicesAndClustersLeaveService : Prop :=
  (∀ (s : State) (c sl : Nat) (r : Option Reply) (rest : List Order), s.board.power = .good → c < 256 → sl < 16 →
      (s.cluster c).orders = .retireSlice sl r :: rest → (s.cluster c).state = .idle →
      (∀ k, (s.cluster c).live.getLsbD sl = true → freeSlot s = some k →
        (s.cluster c).poisonList.length + (slicePoison s c sl).length ≤ 256 →
        ∃ t, exec (.retireSliceOrder c) s = .next t ∧
          t = { s with clusters := t.clusters, mem := t.mem, memc := t.memc, net := { s.net with fifos := t.net.fifos } } ∧
          t.memc = { s.memc with redirect := t.memc.redirect, events := s.memc.events ||| 16#32 } ∧
          mapFind t.memc.redirect k = some (c, sl) ∧ (∀ j, j ≠ k → mapFind t.memc.redirect j = mapFind s.memc.redirect j) ∧
          (∀ d, d ≠ c → t.cluster d = s.cluster d) ∧
          t.cluster c = { s.cluster c with
            orders := rest, live := (t.cluster c).live, poisonList := (t.cluster c).poisonList
            events := (s.cluster c).events ||| 8#32, mapGen := (s.cluster c).mapGen + 1 } ∧
          (t.cluster c).live.getLsbD sl = false ∧ (∀ j, j ≠ sl → (t.cluster c).live.getLsbD j = (s.cluster c).live.getLsbD j) ∧
          (∀ a, a ∈ (t.cluster c).poisonList ↔ a ∈ (s.cluster c).poisonList ∨ a ∈ slicePoison s c sl) ∧
          Reported s t c ([eventOf 6 c 0 sl] ++ outcomeOf c 0 r)) ∧
      ((s.cluster c).live.getLsbD sl = true →
        (freeSlot s = none ∨ 256 < (s.cluster c).poisonList.length + (slicePoison s c sl).length) →
        ∃ t, exec (.retireSliceOrder c) s = .next t ∧
          t = { s with clusters := t.clusters, memc := { s.memc with events := s.memc.events ||| 32#32 }
                       net := { s.net with fifos := t.net.fifos } } ∧
          (∀ d, d ≠ c → t.cluster d = s.cluster d) ∧ t.cluster c = { s.cluster c with orders := rest } ∧
          Reported s t c (outcomeOf c 0x300 r)) ∧
      ((s.cluster c).live.getLsbD sl = false → ∃ t, exec (.retireSliceOrder c) s = .next t ∧
        t = { s with clusters := t.clusters, net := { s.net with fifos := t.net.fifos } } ∧
        (∀ d, d ≠ c → t.cluster d = s.cluster d) ∧ t.cluster c = { s.cluster c with orders := rest } ∧
        Reported s t c (outcomeOf c 0 r))) ∧
  (∀ s : State, s.board.power = .good →
      (∀ c, c < 256 → (s.cluster c).state = .out → exec (.clusterUnitFault c) s = .next s) ∧
      (∀ c, c < 256 → (s.cluster c).state ≠ .out → ∃ t, exec (.clusterUnitFault c) s = .next t ∧
        t = { s with clusters := t.clusters, net := { s.net with fifos := t.net.fifos }
                     disp := { s.disp with launches := t.disp.launches } } ∧
        t.cluster c = { s.cluster c with state := .out, events := (s.cluster c).events ||| 16#32 } ∧
        (∀ d, d ≠ c → t.cluster d = s.cluster d) ∧ Reported s t c [eventOf 8 c 0 0] ∧
        (∀ l ∈ t.disp.launches, l.barrier = false → l.header.has c = true → l.phase = .ended) ∧
        (∀ l ∈ s.disp.launches, l.barrier = false → l.header.has c = true → l.phase ≠ .ended → l.status = 0 →
          ∃ x ∈ t.disp.launches, x.id = l.id ∧ x.status = 0x102)) ∧
      (∀ die, die < 4 → ∃ t, exec (.routerFault die) s = .next t ∧
        t = { s with clusters := t.clusters, net := { s.net with fifos := t.net.fifos }
                     disp := { s.disp with launches := t.disp.launches } } ∧
        (∀ c, c / 64 = die → (t.cluster c).state = .out ∧ t.fifo (ctlPort c 0) = s.fifo (ctlPort c 0) ++
          (if (s.cluster c).state = .out then [] else [reportPkt c (eventOf 8 c 0 0)]) ∧
          ∀ l ∈ t.disp.launches, (s.cluster c).state ≠ .out → l.barrier = false → l.header.has c = true → l.phase = .ended) ∧
        (∀ c, c / 64 ≠ die → t.cluster c = s.cluster c)) ∧
      (∀ c, c < 256 → (s.cluster c).testing = true → (∃ t, exec (.clusterTestOrder c true) s = .next t ∧
          t = { s with clusters := t.clusters, net := { s.net with fifos := t.net.fifos } } ∧
          t.cluster c = { s.cluster c with state := .idle, testing := false, testReply := none } ∧
          Reported s t c [.result (.tested c true (s.cluster c).testReply)] ∧ ∀ d, d ≠ c → t.cluster d = s.cluster d) ∧
        ∃ t, exec (.clusterTestOrder c false) s = .next t ∧
          t = { s with clusters := t.clusters, net := { s.net with fifos := t.net.fifos } } ∧
          t.cluster c = { s.cluster c with
            state := .out, testing := false, testReply := none, events := (s.cluster c).events ||| 16#32 } ∧
          Reported s t c [eventOf 8 c 0 0, .result (.tested c false (s.cluster c).testReply)] ∧
          ∀ d, d ≠ c → t.cluster d = s.cluster d))

/-- CHANNEL_RETIRE_ORDER and CHANNEL_RETIRE_COMPLETE (R525, R548, R550, Retiring a GDDR7 channel): the management processor starts a
retirement by itself with orders to the controller and the dispatcher; the dispatcher, at the order, starts the drain of the
channel's range, whose pages migrate, and reports it; while pages are left the drain goes on and their number is reported; once none
is left the channel is out of service and retired. The report of that ends the link operation and is logged.
CXL_DEVICE_ADDED and CXL_DEVICE_REMOVED (R557, R558, R561): a device takes the lowest gap of its window that holds its
capacity, rounded up to 256 MiB, and nothing is known of its content; a device whose range has drained leaves the map, the others
stay.
That a device without a gap stays unused is the model's reading (log entry 41), and the result records are its own (log entry 84). -/
def Obligations.ChannelsAndExpandersJoinAndLeave : Prop :=
  (∀ (s : State) (q k : Nat), s.board.power = .good → q < 16 → k < 4 →
      (s.mgmt.state = 2 → s.mgmt.link = none → ¬(q = 15 ∧ k = 3) → (mapGet 0#4 s.mgmt.view.retired q).getLsbD k = false →
        s.fifo (fifoNum .hub 0 0) = [] → ∃ t, exec (.channelRetireOrder q k) s = .next t ∧
        t = { s with mgmt := { s.mgmt with link := some (.retireChannel q k), ops := t.mgmt.ops }
                     net := { s.net with fifos := t.net.fifos } } ∧ t.op 4 = { state := 1, step := 1 } ∧
        Ordered s t [orderPkt .attached (gddrAttach q) 0 (.drainChannel k), orderPkt .hub 0 0 (.retireChannel q k)]) ∧
      (∀ x xs, s.fifo (fifoNum .hub 0 0) = x :: xs → x.payload = .order (.retireChannel q k) →
        ∃ t, exec (.channelRetireOrder q k) s = .next t ∧ channelRange q k ∈ t.memc.drains ∧ t.fifo (fifoNum .hub 0 0) = xs ∧
        t.fifo (hubPort 0 0) = s.fifo (hubPort 0 0) ++ [reportPkt 0x100 (.result (.draining 3 0))] ∧
        (∀ m ∈ t.memc.moves, m ∈ s.memc.moves ∨ (m.drain = true ∧ meets m.old m.bytes (channelRange q k).lo (2 ^ 30) = true)) ∧
        (∀ m ∈ s.memc.moves, m ∈ t.memc.moves) ∧ t.mgmt = s.mgmt ∧ t.gdc = s.gdc) ∧
      (channelRange q k ∈ s.memc.drains → pagesIn s (channelRange q k) ≠ [] → ∃ t, exec (.channelRetireComplete q k) s = .next t ∧
        Reported s t 0x100 [.result (.draining 4 (pagesIn s (channelRange q k)).length)] ∧ t.gdc = s.gdc ∧ t.mgmt = s.mgmt ∧
        channelRange q k ∈ t.memc.drains) ∧
      (channelRange q k ∈ s.memc.drains → pagesIn s (channelRange q k) = [] →
        (∀ m ∈ s.memc.moves, meets m.old m.bytes (channelRange q k).lo (2 ^ 30) = false) →
        ∃ t, exec (.channelRetireComplete q k) s = .next t ∧
          t = { s with gdc := t.gdc, memc := t.memc, net := { s.net with fifos := t.net.fifos } } ∧
          (∀ j, j ≠ q → t.gdcOf j = s.gdcOf j) ∧
          t.gdcOf q = { s.gdcOf q with
            retired := (t.gdcOf q).retired, live := (t.gdcOf q).live, draining := (t.gdcOf q).draining
            events := (s.gdcOf q).events ||| 4#32 } ∧
          (∀ j, (t.gdcOf q).retired.getLsbD j = (decide (j = k) || (s.gdcOf q).retired.getLsbD j)) ∧
          (∀ j, (t.gdcOf q).live.getLsbD j = (decide (j ≠ k) && (s.gdcOf q).live.getLsbD j)) ∧
          (∀ j, (t.gdcOf q).draining.getLsbD j = (decide (j ≠ k) && (s.gdcOf q).draining.getLsbD j)) ∧
          channelRange q k ∉ t.memc.drains ∧ Reported s t 0x100 [.result (.channelRetired q k)]) ∧
      (∀ x xs, s.fifo (fifoNum .hub 1 0) = x :: xs → x.payload = .result (.channelRetired q k) → s.mgmt.log.length < 4096 →
        ∃ t, exec .eventRecord s = .next t ∧ t = { s with mgmt := t.mgmt, net := { s.net with fifos := t.net.fifos } } ∧
          t.mgmt.link = none ∧ (t.op 4).state = 2 ∧
          t.mgmt.log = s.mgmt.log ++ [{ cricket := BitVec.ofNat 64 s.pace.cricket, kind := 7, source := 0x101
                                        wher := BitVec.ofNat 64 (channelRange q k).lo, detail := BitVec.ofNat 64 (4 * q + k) }])) ∧
  (∀ (s : State) (p : Nat), s.board.power = .good → p < 4 →
      (∀ cap switched lanes speed off, (s.cxlOf p).adding = true → 0 < cap → (s.cxlOf p).ranges.length < 8 →
        lowestGap (deviceBytes cap) 0 (s.cxlOf p).ranges = some off →
        ∃ t, exec (.cxlDeviceAdded p cap switched lanes speed) s = .next t ∧
          t = { s with cxlp := t.cxlp, mem := { s.mem with cxl := t.mem.cxl, cxlShown := t.mem.cxlShown }
                       net := { s.net with fifos := t.net.fifos } } ∧
          t.cxlOf p = { s.cxlOf p with
            state := .active, adding := false, switched := switched, lanes := lanes, speed := speed
            ranges := (t.cxlOf p).ranges, events := (s.cxlOf p).events ||| 2#32 } ∧
          (∀ r, r ∈ (t.cxlOf p).ranges ↔ r = (off, deviceBytes cap, cap) ∨ r ∈ (s.cxlOf p).ranges) ∧
          (∀ a, Config.cxlBase + p * 2 ^ 42 + off ≤ a → a < Config.cxlBase + p * 2 ^ 42 + off + deviceBytes cap →
            mapFind t.mem.cxl a = none) ∧
          (∀ d, d ≠ p → t.cxlOf d = s.cxlOf d) ∧
          Reported s t (0x102 + p)
            [.result (.deviceAdded p (some (Config.cxlBase + p * 2 ^ 42 + off)) (t.cxlOf p).ranges)]) ∧
      (∀ cap switched lanes speed, (s.cxlOf p).adding = true →
        (cap = 0 ∨ 8 ≤ (s.cxlOf p).ranges.length ∨ lowestGap (deviceBytes cap) 0 (s.cxlOf p).ranges = none) →
        ∃ t, exec (.cxlDeviceAdded p cap switched lanes speed) s = .next t ∧
          t = { s with cxlp := t.cxlp, net := { s.net with fifos := t.net.fifos } } ∧
          t.cxlOf p = { s.cxlOf p with adding := false } ∧ (∀ d, d ≠ p → t.cxlOf d = s.cxlOf d) ∧
          Reported s t (0x102 + p) [.result (.deviceAdded p none (s.cxlOf p).ranges)]) ∧
      (∀ base d, deviceAt (s.cxlOf p).ranges p base = some d → d ∈ s.memc.drains → pagesIn s d = [] →
        (∀ m ∈ s.memc.moves, meets m.old m.bytes d.lo (d.hi - d.lo) = false) → (s.arbiter (16 + p)).pending = [] →
        ∃ t, exec (.cxlDeviceRemoved p base) s = .next t ∧
          t = { s with cxlp := t.cxlp, memc := t.memc, net := { s.net with fifos := t.net.fifos } } ∧
          (∀ r, r ∈ (t.cxlOf p).ranges ↔ r ∈ (s.cxlOf p).ranges ∧ Config.cxlBase + p * 2 ^ 42 + r.1 ≠ base) ∧
          ((t.cxlOf p).ranges = [] → (t.cxlOf p).state = .noLink) ∧ (t.cxlOf p).events = (s.cxlOf p).events ||| 4#32 ∧
          (∀ c, c ≠ p → t.cxlOf c = s.cxlOf c) ∧ d ∉ t.memc.drains ∧
          Reported s t (0x102 + p) [.result (.deviceRemoved p (t.cxlOf p).ranges)]))

/-- PAGE_RETIRE_ORDER (R605, R606, Migrating a page, steps 2 to 4): the management processor sends the order to the dispatcher; the
dispatcher, at the order, enters an eligible page within its policy in the journal with a frame of the target tier, and leaves
an ineligible one as it is.
MIGRATION_COMPLETE (R608 to R610, Migrating a page, steps 5 and 6): the end of a copy without poison clears the journal entry and
MEMC_MIGRATIONS counts the page that has moved; a copy that reads poison, not being of a drain, is rolled back with
MIGRATION_ROLLBACK.
Which free frame is taken is a free value (log entry 40). -/
def Obligations.MigrationsFollowTheJournal : Prop :=
  ∀ s : State, s.board.power = .good →
    (∀ asid va tier, asid < 4096 → s.mgmt.state = 2 → s.fifo (fifoNum .hub 0 0) = [] →
      ∃ t, exec (.pageRetireOrder asid va tier) s = .next t ∧ t = { s with net := { s.net with fifos := t.net.fifos } } ∧
        Ordered s t [orderPkt .hub 0 0 (.movePage asid va tier)]) ∧
    (∀ asid va tier page l x xs, s.fifo (fifoNum .hub 0 0) = x :: xs → x.payload = .order (.movePage asid va tier) →
      pageAt s asid va = some (page, l) → eligible s asid l tier = true → withinPolicy s asid l page tier = true →
      freeFrames s tier l.bytes ≠ [] → ∃ t m, exec (.pageRetireOrder asid va tier) s = .next t ∧
        t = { s with free := s.free + 1, memc := t.memc, mem := t.mem, disp := t.disp, net := { s.net with fifos := t.net.fifos }
                     clusters := t.clusters } ∧
        t.memc.moves = s.memc.moves ++ [m] ∧ m.asid = asid ∧ m.va = page ∧ m.bytes = l.bytes ∧ m.old = l.addr ∧
        m.new ∈ freeFrames s tier l.bytes ∧ m.drain = false ∧ Queued (takeNext s) t (fifoNum .hub 0 0) []) ∧
    (∀ asid va tier page l x xs, s.fifo (fifoNum .hub 0 0) = x :: xs → x.payload = .order (.movePage asid va tier) →
      pageAt s asid va = some (page, l) → eligible s asid l tier = false →
      ∃ t, exec (.pageRetireOrder asid va tier) s = .next t ∧ t = { s with net := { s.net with fifos := t.net.fifos } } ∧
        t.fifo (fifoNum .hub 0 0) = xs ∧ ∀ n, n ≠ fifoNum .hub 0 0 → t.fifo n = s.fifo n) ∧
    (∀ m asid va ts, s.memc.moves.find? (fun m => m.asid = asid && m.va ≤ va && va < m.va + m.bytes) = some m →
      physRead s m.old m.bytes = some ts →
      (anyPoison ts = false → s.memc.migrations.count < 2 ^ 48 - 2 →
        ∃ t, exec (.migrationComplete asid va) s = .next t ∧ m ∉ t.memc.moves ∧
          t.memc.migrations.count = s.memc.migrations.count + 1 ∧ (∀ x ∈ s.memc.moves, x ≠ m → x ∈ t.memc.moves) ∧
          t.ctxs = s.ctxs ∧ t.mgmt = s.mgmt ∧ t.gdc = s.gdc ∧ t.pace = s.pace) ∧
      (anyPoison ts = true → m.drain = false → ∃ t, exec (.migrationComplete asid va) s = .next t ∧ m ∉ t.memc.moves ∧
        t.memc.migrations = s.memc.migrations ∧ t.memc.events.getLsbD 7 = true ∧
        (∀ x ∈ s.memc.moves, x ≠ m → x ∈ t.memc.moves) ∧ t.ctxs = s.ctxs ∧ t.mgmt = s.mgmt ∧ t.gdc = s.gdc ∧ t.pace = s.pace))

/-- HANDOVER_ORDER, DISPATCHER_HANDOVER and MANTIS_HANDOVER (R922, R963, steps 4 to 6 of Live update): a cluster controller starts the
new firmware at a step boundary, or leaves service where it cannot run it, and reports; the report of the one that the hand-over has
reached brings the order of the next, that of the last ends step 4; then the dispatcher and the management processor start it.
Launches that run while one of them hands over have FW_CHANGED; at the end FW_VERSION is the new one and a record of kind 14 is logged.
FIRMWARE_READY and SVN_FUSE_BLOWN (R537, R1005, R1015 to R1018, steps 4 and 5 of Boot): each GDDR7 controller has its trained
rate; STATE reads 2, or 3 where a hub unit
has failed its test; the fuse in progress is blown and no other fuse changes. -/
def Obligations.FirmwareStartsAndHandsOver : Prop :=
  (∀ s : State, s.board.power = .good →
      (∀ c rest, c < 256 → (s.cluster c).orders = .handover :: rest → (s.cluster c).state = .idle →
        (∃ t, exec (.handoverOrder c true) s = .next t ∧
          t = { s with clusters := t.clusters, net := { s.net with fifos := t.net.fifos }
                       disp := { s.disp with launches := t.disp.launches } } ∧
          t.cluster c = { s.cluster c with orders := rest, newFw := true } ∧ (∀ d, d ≠ c → t.cluster d = s.cluster d) ∧
          (∀ l ∈ t.disp.launches, l.started = true → l.digest.fwChanged = true) ∧ Reported s t c [.result (.handedOver c)]) ∧
        ∃ t, exec (.handoverOrder c false) s = .next t ∧
          t = { s with clusters := t.clusters, net := { s.net with fifos := t.net.fifos }
                       disp := { s.disp with launches := t.disp.launches } } ∧
          t.cluster c = { s.cluster c with orders := rest, state := .out, events := (s.cluster c).events ||| 16#32 } ∧
          (∀ d, d ≠ c → t.cluster d = s.cluster d) ∧
          (∀ l ∈ t.disp.launches, l.barrier = false → l.header.has c = true → l.phase = .ended) ∧
          Reported s t c [eventOf 8 c 0 0, .result (.handedOver c)]) ∧
      (∀ c x xs, s.fifo (fifoNum .hub 1 0) = x :: xs → x.payload = .result (.handedOver c) → s.mgmt.view.handover = some c →
        ∃ t, exec .eventRecord s = .next t ∧
          t = { s with net := { s.net with fifos := t.net.fifos }
                       mgmt := { s.mgmt with ops := t.mgmt.ops, view := { s.mgmt.view with handover := t.mgmt.view.handover } } } ∧
          t.fifo (fifoNum .hub 1 0) = xs ∧
          (c < 255 → t.mgmt.view.handover = some (c + 1) ∧
            t.fifo (hubPort 1 0) = s.fifo (hubPort 1 0) ++ [orderPkt .controller (c + 1) 0 .handover] ∧ t.mgmt.ops = s.mgmt.ops) ∧
          (255 ≤ c → t.mgmt.view.handover = none ∧ t.fifo (hubPort 1 0) = s.fifo (hubPort 1 0) ∧
            ((s.op 2).state = 1 → (t.op 2).step = 5))) ∧
      (∀ i, s.mgmt.newImage = some i → s.mgmt.dispNew = false → s.mgmt.view.handover = none →
        ∃ t, exec .dispatcherHandover s = .next t ∧
          t = { s with mgmt := { s.mgmt with dispNew := true, ops := t.mgmt.ops }
                       disp := { s.disp with launches := t.disp.launches } } ∧ ((s.op 2).state = 1 → (t.op 2).step = 6) ∧
          (∀ l ∈ t.disp.launches, l.started = true → l.digest.fwChanged = true)) ∧
      (∀ i, s.mgmt.newImage = some i → s.mgmt.dispNew = true → (∀ e ∈ s.mgmt.boxes, e.2.busy = false) →
        s.mgmt.log.length < 4096 → ∃ t, exec .mantisHandover s = .next t ∧ t.mgmt.image = some i ∧
          t.mgmt.fwVersion = i.fwVersion ∧ t.mgmt.newImage = none ∧ t.mgmt.updating = false ∧ (t.op 2).state = 2 ∧
          t.mgmt.log = s.mgmt.log ++ [{ cricket := BitVec.ofNat 64 s.pace.cricket, kind := 14, source := 0x101 }] ∧
          (∀ l ∈ t.disp.launches, l.started = true → l.digest.fwChanged = true) ∧
          (∀ e ∈ t.clusters, e.2.newFw = false) ∧ t.fuses = s.fuses)) ∧
  (∀ s : State, s.board.power = .good →
      (∀ test, s.mgmt.state = 1 → ∃ t, exec (.firmwareReady test) s = .next t ∧
        t.mgmt.state = (if test.hubOk then 2 else 3) ∧ t.fuses = s.fuses ∧ t.ctxs = s.ctxs ∧
        ∀ q rate, test.rates[q]? = some rate → (t.gdcOf q).rate = rate ∧ (3 ≤ rate → q ∈ t.mgmt.view.untrained)) ∧
      (∀ n, n < 64 → nextFuse s = some (.svn n) → ∃ t, exec .svnFuseBlown s = .next t ∧
        t = { s with mgmt := { s.mgmt with svnTarget := t.mgmt.svnTarget }
                     fuses := { s.fuses with svn := s.fuses.svn ||| BitVec.ofNat 64 (2 ^ n) } } ∧
        n = s.fuses.version ∧ t.fuses.version > s.fuses.version) ∧
      (∀ k, nextFuse s = some (.revoked k) → ∃ t, exec .svnFuseBlown s = .next t ∧
        t = { s with mgmt := { s.mgmt with svnTarget := t.mgmt.svnTarget }
                     fuses := { s.fuses with revoked := s.fuses.revoked ||| BitVec.ofNat 4 (2 ^ k) } } ∧
        s.fuses.revoked.getLsbD k = false))

/-- SANITISE_ORDER and SANITISE_COMPLETE (R968, steps 2 to 6 of Sanitise): steps 2 and 5 leave core and stacked memory poison,
GDDR7 outside the firmware areas uninitialised and every context FREE; step 3 writes 0x55 and step 4 0xAA; the end sets
SANITISED and reports the words that failed.
ABORT_ORDER (R652): at the management processor's order the launches that use a die whose network has dropped a packet, every launch
for the hub crossbar, end with UNIT_UNAVAILABLE, the first error of a launch standing (R861), and their cores wait for no
acknowledgement and no transaction.
RAMP_BEGIN and RAMP_END (R95, R96, R957 to R959): a ramp to a slower point begins only when no launch with a deadline and no
Paced launch is outstanding; its end makes the target the point, gives the record its figures and logs the new point.
Each step of a sanitise is one command (log entry 17). -/
def Obligations.SanitiseAbortAndRampSteps : Prop :=
  (∀ s : State, s.board.power = .good → s.mgmt.sanitising = true →
      (∀ n, (s.mgmt.sanStep = 1 ∨ s.mgmt.sanStep = 4) → ∃ t, exec (.sanitiseOrder n) s = .next t ∧
        t.mgmt.sanStep = s.mgmt.sanStep + 1 ∧ t.mgmt.sanFailed = s.mgmt.sanFailed ∧ t.ctxs = [] ∧ t.ctxPoison = [] ∧
        (∀ a, a < Config.stackedSize ∨ (Config.coreBase ≤ a ∧ a < Config.coreBase + Config.coreRegion) →
          cellGet 0 t.mem.bytes a = 0#8 ∧ cellGet poisonCheck t.mem.check (a / 8) = poisonCheck) ∧
        (∀ u ∈ t.mem.inited, (Config.firmwareArea - Config.gddrBase) / 4096 ≤ u) ∧
        t.disp = { s.disp with kept := t.disp.kept } ∧ t.fuses = s.fuses ∧ t.pace = s.pace) ∧
      (∀ n, s.mgmt.sanStep = 2 ∨ s.mgmt.sanStep = 3 → ∃ t, exec (.sanitiseOrder n) s = .next t ∧
        t.mgmt.sanStep = s.mgmt.sanStep + 1 ∧ t.mgmt.sanFailed = s.mgmt.sanFailed + n ∧ t.ctxs = s.ctxs ∧ t.disp = s.disp ∧
        (∀ a, a < Config.stackedSize →
          (a, if s.mgmt.sanStep = 2 then 0x55#8 else 0xAA#8) ∈ t.mem.bytes)) ∧
      (s.mgmt.sanStep = 5 → s.mgmt.log.length < 4096 → ∃ t, exec .sanitiseComplete s = .next t ∧ t = { s with mgmt := t.mgmt } ∧
        t.mgmt.sanitising = false ∧ t.mgmt.sanitised = true ∧ (t.op 3).state = (if s.mgmt.sanFailed = 0 then 2 else 3) ∧
        (t.op 3).detail = s.mgmt.sanFailed ∧
        t.mgmt.log = s.mgmt.log ++ [{ cricket := BitVec.ofNat 64 s.pace.cricket, kind := 15, source := 0x101
                                      detail := BitVec.ofNat 64 s.mgmt.sanFailed }])) ∧
  (∀ (s : State) (die : Nat) (x : Pkt) (xs : List Pkt), s.board.power = .good → s.fifo (fifoNum .hub 0 0) = x :: xs →
      x.payload = .order (.abort die) →
      ∃ t, exec (.abortOrder die) s = .next t ∧
        t = { s with net := { s.net with fifos := t.net.fifos }, disp := { s.disp with launches := t.disp.launches }
                     clusters := t.clusters } ∧
        t.fifo (fifoNum .hub 0 0) = xs ∧ (∀ n, n ≠ fifoNum .hub 0 0 → t.fifo n = s.fifo n) ∧
        (∀ l ∈ t.disp.launches, l.onDie die = true → l.phase = .ended) ∧
        (∀ ln ∈ s.disp.launches, ln.onDie die = true → ∀ c ∈ ln.clusterList, (s.cluster c).launch = some ln.id →
          ∀ e ∈ (t.cluster c).cores, e.2.acks = 0 ∧ e.2.sent = [] ∧ e.2.waiting = []) ∧
        (∀ l ∈ t.disp.launches, l.status = 0x102 ∨ ∃ l' ∈ s.disp.launches, l'.id = l.id ∧ l'.status = l.status)) ∧
  (∀ s : State, s.board.power = .good →
      (s.mgmt.rampPending = true → s.mgmt.ramping = false →
        (s.mgmt.point < s.mgmt.target ∨ (s.mgmt.summary.deadline = 0 ∧ s.mgmt.summary.paced = 0)) →
        ∃ t, exec .rampBegin s = .next t ∧ t = { s with mgmt := t.mgmt } ∧ t.mgmt.ramping = true ∧
          t.mgmt.point = s.mgmt.point ∧ t.mgmt.record = s.mgmt.record) ∧
      (s.mgmt.rampPending = true → s.mgmt.target < s.mgmt.point → (s.mgmt.summary.deadline ≠ 0 ∨ s.mgmt.summary.paced ≠ 0) →
        exec .rampBegin s = .next s) ∧
      (s.mgmt.ramping = true → s.mgmt.nextTarget = none → s.mgmt.log.length < 4096 → ∃ t, exec .rampEnd s = .next t ∧
        t = { s with mgmt := t.mgmt } ∧ t.mgmt.point = s.mgmt.target ∧ t.mgmt.ramping = false ∧ t.mgmt.rampPending = false ∧
        t.mgmt.record.point = s.mgmt.target ∧ t.mgmt.record.pending = false ∧ (t.op 1).state = 2 ∧
        t.mgmt.log = s.mgmt.log ++ [{ cricket := BitVec.ofNat 64 s.pace.cricket, kind := 13, source := 0x101
                                      detail := BitVec.ofNat 64 s.mgmt.target }]))

/-! ## Dispatch of launches and steps (files 06, 07, 10, 11) -/

/-- LAUNCH_FETCH (R806, R810, R813, R820, R828, R835): an active queue with nothing to fetch becomes idle; with 16,384 launches
held nothing is fetched; a record that passes the checks joins the launches and F moves on; one that fails a check ends with
its status, one that reads as poison with POISON_CONSUMED; a fault on the ring puts the queue in state 4.
The order of the checks with the region list is the model's reading (log entry 50). -/
def Obligations.LaunchFetchTakesTheNextRecord : Prop :=
  ∀ (s : State) (q : Nat), s.board.power = .good → (s.queue q).state = .active →
    ((s.queue q).t = (s.queue q).f → ∃ t, exec (.launchFetch q) s = .next t ∧
      t = { s with disp := { s.disp with queues := t.disp.queues } } ∧ t.queue q = { s.queue q with state := .idle } ∧
      ∀ r, r ≠ q → t.queue r = s.queue r) ∧
    ((s.queue q).t ≠ (s.queue q).f → 16384 ≤ s.disp.launches.length →
      exec (.launchFetch q) s = .next { s with disp := { s.disp with events := s.disp.events ||| 16#32 } }) ∧
    (∀ ts ln, (s.queue q).t ≠ (s.queue q).f → s.disp.launches.length < 16384 → nextQueue s = some q →
      vaRead s (s.queue q).asid ((s.queue q).sqVa + 128 * ((s.queue q).f.toNat % (s.queue q).sqEntries)) 128 = .ok ts →
      anyPoison ts = false →
      checkLaunch s (launchOf s q (readParts s (s.queue q).asid (plain ts))) (readParts s (s.queue q).asid (plain ts)) = .ok ln →
      (ln.waits.any (fun w => w.state == .failed)) = false → ∃ t, exec (.launchFetch q) s = .next t ∧
        t.disp.launches = s.disp.launches ++ [ln] ∧ ln.id = s.disp.nextLaunch ∧ t.disp.nextLaunch = s.disp.nextLaunch + 1 ∧
        t.queue q = { s.queue q with f := (s.queue q).f + 1 } ∧ (∀ r, r ≠ q → t.queue r = s.queue r) ∧
        t = { accessed s t with disp := t.disp }) ∧
    (∀ ts st, (s.queue q).t ≠ (s.queue q).f → s.disp.launches.length < 16384 → nextQueue s = some q →
      vaRead s (s.queue q).asid ((s.queue q).sqVa + 128 * ((s.queue q).f.toNat % (s.queue q).sqEntries)) 128 = .ok ts →
      anyPoison ts = false → st ≠ 0 → (∀ l ∈ s.disp.launches, l.id ≠ s.disp.nextLaunch) →
      checkLaunch s (launchOf s q (readParts s (s.queue q).asid (plain ts))) (readParts s (s.queue q).asid (plain ts)) =
        .error (.status st) →
      ∃ t l, exec (.launchFetch q) s = .next t ∧ t.disp.launches = s.disp.launches ++ [l] ∧ l.id = s.disp.nextLaunch ∧
        l.phase = .ended ∧ l.status = st ∧ l.started = false ∧ t.queue q = { s.queue q with f := (s.queue q).f + 1 }) ∧
    (∀ ts, (s.queue q).t ≠ (s.queue q).f → s.disp.launches.length < 16384 → nextQueue s = some q →
      vaRead s (s.queue q).asid ((s.queue q).sqVa + 128 * ((s.queue q).f.toNat % (s.queue q).sqEntries)) 128 = .ok ts →
      anyPoison ts = true → (∀ l ∈ s.disp.launches, l.id ≠ s.disp.nextLaunch) →
      ∃ t l, exec (.launchFetch q) s = .next t ∧ t.disp.launches = s.disp.launches ++ [l] ∧ l.phase = .ended ∧
        (l.status = 0x301 ∨ l.status = 0x400) ∧ t.queue q = { s.queue q with f := (s.queue q).f + 1 }) ∧
    (∀ kind level va, (s.queue q).t ≠ (s.queue q).f → s.disp.launches.length < 16384 → nextQueue s = some q →
      vaRead s (s.queue q).asid ((s.queue q).sqVa + 128 * ((s.queue q).f.toNat % (s.queue q).sqEntries)) 128 =
        .error (.fault kind level va) →
      ∃ t, exec (.launchFetch q) s = .next t ∧ t.queue q = { s.queue q with state := .faulted, ringFault := true } ∧
        t.disp.events = s.disp.events ||| 8#32 ∧ t.memc.events = s.memc.events ||| 64#32 ∧ t.disp.launches = s.disp.launches)

/-- LAUNCH_START and BARRIER_COMPLETE (R841, R443, R756, R969): a launch whose conditions hold and whose start decision
succeeds starts now, on every cluster it names at position 0 of step 0, and SANITISED is cleared; one with a start count to
come is armed; one that the decision refuses ends with its status. A barrier launch ends once its edges are satisfied.
Which launches reserve clusters is the model's reading (log entry 75). -/
def Obligations.LaunchesStartWhenTheirConditionsHold : Prop :=
  ∀ (s : State) (id : Nat) (ln : Launch), s.board.power = .good → s.launch id = some ln →
    (∀ l, ln.barrier = false → ln.phase = .waiting → launchReady s (earlierThan s id) ln = true → clustersFree s ln = true →
      startDecision s ln = .ok l → startWaits s l = false → l.digests = false →
      (l.lflags.testBit 3 = false ∨ l.start ≤ s.pace.cricket) → ∃ t x, exec (.launchStart id) s = .next t ∧
        t.launch id = some x ∧ x.started = true ∧ x.startAt = s.pace.cricket ∧ (x.phase = .running ∨ x.phase = .ended) ∧
        t.mgmt.sanitised = false ∧
        (∀ c ∈ clustersOf l.header, (t.cluster c).state = .running ∧ (t.cluster c).launch = some id ∧ (t.cluster c).pos = 0 ∧
          (t.cluster c).step = 0 ∧ (t.cluster c).snap.logged = []) ∧
        (∀ c, c ∉ clustersOf l.header → t.cluster c = s.cluster c) ∧ t.mem = { s.mem with badWords := t.mem.badWords } ∧ t.ctxs = s.ctxs) ∧
    (∀ l, ln.barrier = false → ln.phase = .waiting → launchReady s (earlierThan s id) ln = true → clustersFree s ln = true →
      startDecision s ln = .ok l → startWaits s l = false → l.digests = false → l.lflags.testBit 3 = true →
      s.pace.cricket < l.start → ∃ t, exec (.launchStart id) s = .next t ∧ t.launch id = some { l with phase := .armed } ∧
        t = { accessed s t with disp := { s.disp with launches := t.disp.launches } }) ∧
    (∀ st, ln.barrier = false → ln.phase = .waiting → ln.status = 0 → launchReady s (earlierThan s id) ln = true →
      clustersFree s ln = true → startDecision s ln = .error (.status st) →
      ∃ t, exec (.launchStart id) s = .next t ∧ t.launch id = some { ln with phase := .ended, status := st } ∧
        t = { s with disp := { s.disp with launches := t.disp.launches, events := t.disp.events } }) ∧
    (ln.barrier = true → ln.phase = .waiting → ln.status = 0 → edgesMet (earlierThan s id) ln = true →
      ∃ t, exec (.barrierComplete id) s = .next t ∧ t.launch id = some { ln with phase := .ended } ∧
        t = { s with disp := { s.disp with launches := t.disp.launches } })

/-- DEPENDENCY_CYCLE and PRELOAD (R844, R854 to R857): every launch of a confirmed cycle ends with DEPENDENCY_CYCLE, and the
dispatcher counts the cycle and sets its event; a cluster watches the units of its next two launches.
LAUNCH_COMPLETE (R80, R290, R815, R859): a launch that has ended, with nothing of its own in flight, leaves the dispatcher; its
clusters are free, its runs and loads are gone, and the launch summary is sent. -/
def Obligations.CyclesPreloadsAndCompletions : Prop :=
  (∀ s : State, s.board.power = .good →
      (∀ ids l ls, ids.filterMap s.launch = l :: ls → (l :: ls).length = ids.length → isCycle s l (l :: ls) = true →
        ∃ t, exec (.dependencyCycle ids) s = .next t ∧ t.disp.events.getLsbD 0 = true ∧
          (s.disp.cycleCount.count < 2 ^ 48 - 2 → t.disp.cycleCount.count = s.disp.cycleCount.count + 1) ∧
          (∀ x ∈ t.disp.launches, x.id ∈ ids → x.phase = .ended ∧ x.status ≠ 0) ∧
          (∀ x ∈ s.disp.launches, x.id ∉ ids → x ∈ t.disp.launches) ∧ t.clusters = s.clusters ∧ t.mem = s.mem) ∧
      (∀ c l, l ∈ s.disp.launches → l.started = true → ∃ t, exec (.preload c) s = .next t ∧
        t = { s with disp := { s.disp with preloads := t.disp.preloads } } ∧
        (∀ p, p ∈ t.disp.preloads → p.cluster = c ∨ p ∈ s.disp.preloads) ∧
        (∀ x ∈ nextOn s c, ∃ p ∈ t.disp.preloads, p.cluster = c ∧ p.launch = x.id))) ∧
  (∀ (s : State) (id : Nat) (ln : Launch), s.board.power = .good → s.launch id = some ln → ln.phase = .ended →
      owesEnds s ln = false → completionReady s ln = true → entryWaits s ln = false →
      ¬(ln.digests = true ∧ ln.started = true ∧ ln.status ≤ 2 ∧ ln.digestRec = []) →
      ∃ t, exec (.launchComplete id) s = .next t ∧ (∀ l ∈ t.disp.launches, l.id ≠ id) ∧
        (∀ l ∈ s.disp.launches, l.id ≠ id → ∃ x ∈ t.disp.launches, x.id = l.id) ∧
        (∀ c, c < 256 → bit ln.header.clusters c = true → (s.cluster c).launch = some id →
          (t.cluster c).launch = none ∧ (t.cluster c).state ≠ .running ∧ (t.cluster c).abandon = none) ∧
        (∀ e ∈ t.runs, e.2.launch ≠ id) ∧ (∀ e ∈ t.loads, e.2.launch ≠ id) ∧
        t.mgmt.summary.outstanding = t.disp.launches.length ∧ t.pace = s.pace ∧ t.fuses = s.fuses)

/-- PACED_STEP_START and STEP_BOUND_EXPIRY (R82, R454, R898): an execution of a Paced launch begins on a cluster once its
follower reads the scheduled start; the follower is within 4 ticks of Cricket and reads never less than before; a step whose bound has passed ends its launch with
STEP_LIMIT.
LAUNCH_WIDE_STEP_END (R443, R453, R859): when every cluster has ended an execution that is no anneal or load step, it
counts, and the launch goes on with the next step on every cluster, or ends after its last one with OK, or OK_SATURATED where
saturations were counted.
A follower differs by a free number of at most 4 ticks (log entry 52). -/
def Obligations.StepsBeginEndAndExpire : Prop :=
  (∀ s : State, s.board.power = .good →
      (∀ c ln, s.runningOn c = some ln → ln.phase = .running → (s.cluster c).begun = false → (s.cluster c).ended = false →
        ln.lflags.testBit 1 = true → ln.barred = false → s.pace.cricket < 2 ^ 64 - 8 → ∃ t, exec (.pacedStepStart c) s = .next t ∧
          t = { s with clusters := t.clusters, free := s.free + 1 } ∧ (∀ d, d ≠ c → t.cluster d = s.cluster d) ∧
          t.cluster c = { s.cluster c with begun := (t.cluster c).begun, follower := (t.cluster c).follower } ∧
          (s.cluster c).follower ≤ (t.cluster c).follower ∧ s.pace.cricket ≤ (t.cluster c).follower + 4 ∧
          (t.cluster c).follower ≤ max (s.cluster c).follower (s.pace.cricket + 4) ∧
          ((t.cluster c).begun = true ↔ ln.sigma ≤ (t.cluster c).follower)) ∧
      (∀ id ln b, s.launch id = some ln → ln.phase = .running → ln.status = 0 → ln.bounds[ln.step]? = some b →
        (ln.stepStart + b < s.pace.cricket → ∃ t, exec (.stepBoundExpiry id) s = .next t ∧
          t.launch id = some { ln with phase := .ended, status := 0x203 } ∧
          t = { s with disp := { s.disp with launches := t.disp.launches } }) ∧
        (s.pace.cricket ≤ ln.stepStart + b → exec (.stepBoundExpiry id) s = .next s))) ∧
  (∀ (s : State) (id : Nat) (ln : Launch), s.board.power = .good → s.launch id = some ln → ln.phase = .running → ln.status = 0 →
      allEnded s ln = true → longStep s ln = false → ln.group = none → ln.lflags.testBit 1 = false → overRuns s id = [] →
      ∃ t x, exec (.launchWideStepEnd id) s = .next t ∧ t.launch id = some x ∧ x.stepsDone = ln.stepsDone + 1 ∧
        mapGet 0 x.execs ln.step = mapGet 0 ln.execs ln.step + 1 ∧
        x.satCount = (ln.clusterList.map (fun c => (s.cluster c).sat)).sum ∧ t.mem = s.mem ∧ t.ctxs = s.ctxs ∧ t.pace = s.pace ∧
        (∀ c, c ∉ ln.clusterList → t.cluster c = s.cluster c) ∧
        (ln.step + 1 < ln.steps.length → x.phase = .running ∧ x.step = ln.step + 1 ∧ x.stepStart = s.pace.cricket ∧
          ∀ c ∈ ln.clusterList, (t.cluster c).pos = (s.cluster c).pos + 1 ∧ (t.cluster c).step = (s.cluster c).step + 1 ∧
            (t.cluster c).ended = false ∧ (t.cluster c).snap.pos = (s.cluster c).pos + 1) ∧
        (ln.steps.length ≤ ln.step + 1 → x.phase = .ended ∧ x.status = (if x.satCount = 0 then 0 else 1)))

/-- STEP_RECOMPUTE (R560, R583 to R592): poison of a lost port ends the launch; so does a fourth consumption (RECOMPUTE_LIMIT),
poison met again without a golden copy, and a bad snapshot slot; otherwise, in a launch without an anneal run, the logged lines, the tiles and the position of
the snapshot are restored, the step runs again, and the recomputation is counted.
When the cluster is quiet enough to begin is the model's reading (log entry 58). -/
def Obligations.RecomputationRestoresTheSnapshot : Prop :=
  ∀ (s : State) (c : Nat) (a : Abandon) (ln : Launch), s.board.power = .good → (s.cluster c).abandon = some a →
    s.runningOn c = some ln → ln.phase = .running → ln.status = 0 →
    (∀ st, ((a.lost = true ∧ st = 0x400) ∨ (a.lost = false ∧ 3 ≤ (s.cluster c).reruns ∧ st = 0x302) ∨
        (a.lost = false ∧ (s.cluster c).reruns < 3 ∧ consumedTwice s c ln.id a.places = true ∧ st = 0x301) ∨
        (a.lost = false ∧ (s.cluster c).reruns < 3 ∧ consumedTwice s c ln.id a.places = false ∧ stepQuiet s c = true ∧
          (s.cluster c).snap.logged.any (lineSlotBad s c) = true ∧ st = 0x301)) →
      ∃ t, exec (.stepRecompute c) s = .next t ∧ t = { s with disp := { s.disp with launches := t.disp.launches } } ∧
        t.launch ln.id = some { ln with phase := .ended, status := st }) ∧
    (a.lost = false → (s.cluster c).reruns < 3 → consumedTwice s c ln.id a.places = false → stepQuiet s c = true →
      (s.cluster c).snap.logged.any (lineSlotBad s c) = false → (∀ e ∈ s.runs, e.2.launch ≠ ln.id) →
      ∃ t x, exec (.stepRecompute c) s = .next t ∧ (t.cluster c).abandon = none ∧ (t.cluster c).pos = (s.cluster c).snap.pos ∧
        (t.cluster c).sat = (s.cluster c).snap.sat ∧ (t.cluster c).reruns = (s.cluster c).reruns + 1 ∧
        (t.cluster c).snap.logged = [] ∧ (t.cluster c).launch = (s.cluster c).launch ∧ t.launch ln.id = some x ∧
        x.recomputes = ln.recomputes + 1 ∧ x.phase = .running ∧ t.ctxs = s.ctxs ∧
        (∀ l k, mapFind (s.cluster c).cores l = some k → (t.core c l).tiles = mapGet [] (s.cluster c).snap.tiles l) ∧
        ∃ u, u.mem.bytes = s.mem.bytes ∧ u.mem.check = s.mem.check ∧ u.memc.redirect = s.memc.redirect ∧ u.fuses = s.fuses ∧
          (∀ d, (u.cluster d).map = (s.cluster d).map) ∧
          t.mem.bytes = ((s.cluster c).snap.logged.foldl (restoreLine c) u).mem.bytes)

/-! ## The operation list (files 02 and 06) -/

/-- NOP, SYNC and STEP_END (R445, R446, R448, R515, R586): NOP moves the program position and nothing else, SYNC does so once no
Stream engine is busy; STEP_END waits for the Stream engines and for pending orders, then the cluster has reached the end of
its step: its saturations are added up, and the step-boundary snapshot is taken with every log bit clear.
TIME and ENTROPY (R82, R483, R485, R1000): TIME writes a reading of the cluster's follower, within 4 ticks of the hub's count or what it has read before where that is more, to the eight
bytes of D in every core named; ENTROPY asks the source for 64 bits and waits for them, and while the source is not ready or
has failed it ends the launch with 0x500 or 0x501. A destination of another size ends the launch with 0x201. -/
def Obligations.ControllerOperationsSequenceAndStamp : Prop :=
  (∀ (s : State) (c : Nat) (ln : Launch) (o : OpWord),
      (issuing s c 0x00 = some (ln, o) →
        exec (.nop c) s = .next (s.setCluster c { s.cluster c with pos := (s.cluster c).pos + 1 })) ∧
      (issuing s c 0x02 = some (ln, o) → exec (.sync c) s =
        .next (if streamsIdle s c then s.setCluster c { s.cluster c with pos := (s.cluster c).pos + 1 } else s)) ∧
      (issuing s c 0x01 = some (ln, o) →
        ((streamsIdle s c && (s.cluster c).orders.isEmpty && longReady s c ln) = false → exec (.stepEnd c) s = .next s) ∧
        ((streamsIdle s c && (s.cluster c).orders.isEmpty && longReady s c ln) = true →
          ∃ t, exec (.stepEnd c) s = .next t ∧ t = { s with clusters := t.clusters } ∧ (∀ d, d ≠ c → t.cluster d = s.cluster d) ∧
            (t.cluster c).ended = true ∧ (t.cluster c).pos = (s.cluster c).pos ∧
            (t.cluster c).sat = (s.cluster c).sat + (s.cluster c).stepSats ∧ (t.cluster c).stepSats = 0 ∧
            (t.cluster c).snap.pos = (s.cluster c).pos ∧ (t.cluster c).snap.logged = [] ∧
            (t.cluster c).snap.node = (s.cluster c).node ∧ ∀ l, (t.core c l).tiles = (s.core c l).tiles ∧
              (t.core c l).tileSat = (s.core c l).tileSat ∧ mapGet [] (t.cluster c).snap.tiles l = (s.core c l).tiles))) ∧
  (∀ (s : State) (c : Nat) (ln : Launch) (o : OpWord), (s.cluster c).rerun = [] →
      (issuing s c 0x03 = some (ln, o) →
        ((s.desc c o.d).inCore = true → eightBytes (s.desc c o.d) = true →
          ∃ k n, k ≤ 8 ∧ n = max (s.cluster c).follower ((s.pace.cricket + k - 4) % 2 ^ 64) ∧
            exec (.time c) s = .next (advance c (o.coreList.foldl (fun u l =>
              writeRows u c l (s.desc c o.d) (leBytes 8 n))
              { (s.setCluster c { s.cluster c with follower := n }) with free := s.free + 1 }))) ∧
        (((s.desc c o.d).inCore && eightBytes (s.desc c o.d)) = false → exec (.time c) s = .next (stopLaunch ln.id 0x201 s))) ∧
      (issuing s c 0x04 = some (ln, o) →
        ((s.desc c o.d).inCore = true → eightBytes (s.desc c o.d) = true →
          (s.ent.state = .notReady → exec (.entropy c) s = .next (stopLaunch ln.id 0x500 s)) ∧
          (s.ent.state = .fault → exec (.entropy c) s = .next (stopLaunch ln.id 0x501 s)) ∧
          (s.ent.state = .ready → ∃ t, exec (.entropy c) s = .next t ∧
            t = { (s.setCluster c { s.cluster c with entropyWait := true }) with
                  ent := { s.ent with queue := t.ent.queue, waiting := t.ent.waiting } } ∧
            (⟨.entropyOp c, 64⟩ ∈ t.ent.queue ∨ ⟨.entropyOp c, 64⟩ ∈ t.ent.waiting))) ∧
        (((s.desc c o.d).inCore && eightBytes (s.desc c o.d)) = false → exec (.entropy c) s = .next (stopLaunch ln.id 0x201 s))))

/-- CTXREAD and RELEASE (R284, R285, R288, R293, R486): CTXREAD writes the 256 bytes of an entry at its virtual address; RELEASE
leaves the entry FREE with every other field zero; an entry of another address space is a translation fault (0x300).
RCLEAR and RDRAIN (R200 to R207, R467, R469): RCLEAR clears a tile of the reduction node to a binary point; RDRAIN waits for
the partials it names and for the Stream engines, then writes the sixteen rows of the drained tile to memory, clears the tile
where CLEAR is set, takes the partials off the count and counts a saturation.
RDRAIN waits for at least the partials it names (log entry 56); RCLEAR keeps the count of partials (log entry 88). -/
def Obligations.ContextAndNodeTileOperations : Prop :=
  (∀ (s : State) (c : Nat) (ln : Launch) (o : OpWord), (s.cluster c).rerun = [] → immOf ln o 0 < 262144 →
      ctxPoisoned s (immOf ln o 0) = false →
      (∀ u, issuing s c 0x43 = some (ln, o) → immOf ln o 1 % 64 = 0 → foreign (s.ctx (immOf ln o 0)) ln.asid = false →
        writeVa c s ln.asid (immOf ln o 1) (s.ctx (immOf ln o 0)).image = .ok u → exec (.ctxread c) s = .next (advance c u)) ∧
      (∀ va lf b, va = immOf ln o 1 → b = (s.ctx (immOf ln o 0)).image → issuing s c 0x43 = some (ln, o) → va % 64 = 0 →
        foreign (s.ctx (immOf ln o 0)) ln.asid = false → walk s ln.asid va true = .ok lf → lf.mig = false → lf.target = 0 →
        0 < b.length → va % 65536 + b.length ≤ 65536 → exec (.ctxread c) s = .next (advance c
          (touch c ln.asid va b.length true (physWrite s (lf.at va) (untagged b))))) ∧
      (issuing s c 0x43 = some (ln, o) → immOf ln o 1 % 64 = 0 → foreign (s.ctx (immOf ln o 0)) ln.asid = true →
        exec (.ctxread c) s = .next (stopLaunch ln.id 0x300 s)) ∧
      (issuing s c 0x44 = some (ln, o) → foreign (s.ctx (immOf ln o 0)) ln.asid = false →
        ∃ t, exec (.release c) s = .next t ∧ t.ctx (immOf ln o 0) = {} ∧ (∀ n, n ≠ immOf ln o 0 → t.ctx n = s.ctx n) ∧
          t = { (s.setCluster c { s.cluster c with pos := (s.cluster c).pos + 1 }) with
                ctxs := t.ctxs, ctxPoison := t.ctxPoison, ctxCache := t.ctxCache }) ∧
      (issuing s c 0x44 = some (ln, o) → foreign (s.ctx (immOf ln o 0)) ln.asid = true →
        exec (.release c) s = .next (stopLaunch ln.id 0x300 s))) ∧
  (∀ (s : State) (c : Nat) (ln : Launch) (o : OpWord), (s.cluster c).rerun = [] →
      (issuing s c 0x08 = some (ln, o) →
        (goodPoint (immI8 (immOf ln o 0) 0) = true → ∃ t, exec (.rclear c) s = .next t ∧
          t = s.setCluster c { s.cluster c with pos := (s.cluster c).pos + 1, node := (t.cluster c).node } ∧
          nodeTile (t.cluster c) (o.aux % 16) = { nodeTile (s.cluster c) (o.aux % 16) with
            tile := { f := immI8 (immOf ln o 0) 0, els := [] }, sat := false
            foreign := { (nodeTile (s.cluster c) (o.aux % 16)).foreign with f := immI8 (immOf ln o 0) 0 } } ∧
          ∀ k, k ≠ o.aux % 16 → nodeTile (t.cluster c) k = nodeTile (s.cluster c) k) ∧
        (goodPoint (immI8 (immOf ln o 0) 0) = false → exec (.rclear c) s = .next (stopLaunch ln.id 0x201 s))) ∧
      (issuing s c 0x09 = some (ln, o) → rdrainGood o (drainWordOf (immOf ln o 0)) (s.desc c o.d) = true →
        ((streamsIdle s c && (nodeTile (s.cluster c) (o.aux % 16)).received (immOf ln o 1)) = false →
          exec (.rdrain c) s = .next s) ∧
        (∀ u w x, w = drainWordOf (immOf ln o 0) → x = nodeTile (s.cluster c) (o.aux % 16) →
          streamsIdle s c = true → x.received (immOf ln o 1) = true →
          ((s.desc c o.d).isVirtual = false ∧
              u = o.coreList.foldl (fun v l => writePlane v c l (s.desc c o.d) (drainRows w x.tile.close).1) s ∨
            (s.desc c o.d).isVirtual = true ∧
              rdrainWrite ln c o (s.desc c o.d) (drainRows w x.tile.close).1 s = .ok u) →
          ∃ t, exec (.rdrain c) s = .next t ∧ t.mem = u.mem ∧
            t = { u with clusters := t.clusters } ∧ (∀ d, d ≠ c → t.cluster d = u.cluster d) ∧
            t.cluster c = { u.cluster c with
              pos := (u.cluster c).pos + 1, node := (t.cluster c).node
              nodeSat := (u.cluster c).nodeSat + (if (drainRows w x.tile.close).2 then 1 else 0) } ∧
            (nodeTile (t.cluster c) w.tile).tile = (if w.clear then { x.tile with els := [] } else x.tile.close) ∧
            (nodeTile (t.cluster c) w.tile).sat = (x.sat || (drainRows w x.tile.close).2) ∧
            (∀ r, r < 8 → mapGet 0 (nodeTile (t.cluster c) w.tile).sources r = mapGet 0 x.sources r - immOf ln o 1) ∧
            ∀ k, k ≠ w.tile → nodeTile (t.cluster c) k = nodeTile (u.cluster c) k)))

/-- CLEAR and MMA (R181 to R187, R199, R200, R465 to R467): CLEAR sets a tile to zero at a binary point and drops its TILE_SAT; MMA
pushes the products of row i of A and row j of B, ascending k, into element (i, j) of the tile and closes the open chunks where
CLOSE is set. Memory is left alone. -/
def Obligations.TilesAreClearedAndAccumulate : Prop :=
  ∀ (s : State) (c : Nat) (ln : Launch) (o : OpWord) (cores : List Nat), cores = (s.cluster c).active o →
    (issuing s c 0x10 = some (ln, o) → goodPoint (immI8 (immOf ln o 0) 0) = true → ∃ t, exec (.clear c) s = .next t ∧
      EngineEnded s t c cores .field ln.id 2 ∧ t.mem = s.mem ∧ ∀ l ∈ cores,
        coreTile t c l (o.aux % 4) = { f := immI8 (immOf ln o 0) 0, els := [] } ∧
        (∀ k, k ≠ o.aux % 4 → coreTile t c l k = coreTile s c l k) ∧
        (t.core c l).tileSat = (s.core c l).tileSat &&& ~~~BitVec.ofNat 4 (2 ^ (o.aux % 4)) ∧
        (t.core c l).stepSat = (s.core c l).stepSat ∧ (t.core c l).drainSat = (s.core c l).drainSat) ∧
    (issuing s c 0x11 = some (ln, o) → ∀ a b, a = s.desc c o.a → b = s.desc c o.b → a.inCore = true → b.inCore = true →
      a.cols = b.cols → a.rows ≤ 16 → b.rows ≤ 16 → mmaFormats a.format b.format = true →
      (∀ l ∈ cores, (readTensor s c l a).poison = [] ∧ (readTensor s c l b).poison = []) → ∃ t, exec (.mma c) s = .next t ∧
        EngineEnded s t c cores .field ln.id (ceilDiv (a.cols * mmaFactor a b) 2 + 16) ∧ t.mem = s.mem ∧ ∀ l ∈ cores,
          (coreTile t c l (o.aux % 4)).f = (coreTile s c l (o.aux % 4)).f ∧
          (∀ k, k ≠ o.aux % 4 → coreTile t c l k = coreTile s c l k) ∧ (t.core c l).tileSat = (s.core c l).tileSat ∧
          ∀ i j, i < 16 → j < 16 → ∀ e,
            e = (if i < a.rows ∧ j < b.rows then
              pushRow (coreTile s c l (o.aux % 4)).f a.format b.format (immOf ln o 0)
                (((readTensor s c l a).rows[i]?).getD []) (((readTensor s c l b).rows[j]?).getD [])
                ((coreTile s c l (o.aux % 4)).el (16 * i + j))
              else (coreTile s c l (o.aux % 4)).el (16 * i + j)) →
            (coreTile t c l (o.aux % 4)).el (16 * i + j) =
              if bit o.oflags 0 then e.close (coreTile s c l (o.aux % 4)).f else e)

/-- DRAIN and GIBBS (R199 to R207, R468, R501 to R504): DRAIN closes the tile's open chunks, writes its sixteen rows of sixteen
elements converted by the drain control word to D, clears the tile where CLEAR is set, and a saturation sets TILE_SAT and
counts once; GIBBS writes to D the states that the acceptance rule gives its units and changes no tile.
That a flagged GIBBS record counts no saturation is the model's reading (log entry 42). -/
def Obligations.DrainsAndGibbsWriteTheirRows : Prop :=
  ∀ (s : State) (c : Nat) (ln : Launch) (o : OpWord) (cores : List Nat), c < 256 → s.mem.wf = true →
    cores = (s.cluster c).active o → (s.desc c o.d).inCore = true →
    (issuing s c 0x12 = some (ln, o) → ∀ w, w = drainWordOf (immOf ln o 0) → w.valid 4 = true → w.tile = o.aux % 4 →
      drainShape (s.desc c o.d) w = true → ∃ t, exec (.drain c) s = .next t ∧ EngineEnded s t c cores .field ln.id 160 ∧
        t.mem = (cores.foldl (fun u l =>
          writePlane u c l (s.desc c o.d) (drainRows w (coreTile s c l w.tile).close).1) s).mem ∧ ∀ l ∈ cores,
          coreTile t c l w.tile = (if w.clear then { coreTile s c l w.tile with els := [] } else (coreTile s c l w.tile).close) ∧
          (∀ k, k ≠ w.tile → coreTile t c l k = coreTile s c l k) ∧
          (t.core c l).tileSat = (if (drainRows w (coreTile s c l w.tile).close).2 then
            (s.core c l).tileSat ||| BitVec.ofNat 4 (2 ^ w.tile) else (s.core c l).tileSat) ∧
          (t.core c l).drainSat =
            (s.core c l).drainSat + (if (drainRows w (coreTile s c l w.tile).close).2 then 1 else 0)) ∧
    (issuing s c 0x41 = some (ln, o) → ∀ a d g, a = s.desc c o.a → d = s.desc c o.d →
      g = { bitConv := bit o.aux 0, seed := immOf ln o 0, betaM := bits (immOf ln o 1) 0 32, betaX := immI8 (immOf ln o 1) 32
            unit := bits (immOf ln o 2) 0 32, chain := bits (immOf ln o 2) 32 16, index := immOf ln o 3 } →
      a.inCore = true → a.format = 10 → a.rows = 16 → a.cols = 16 → d.format = 5 → d.plane = false → d.rows ≤ 16 → d.cols ≤ 16 →
      (∀ l ∈ cores, (readWides s c l a).2 = []) → Apart s c cores → ∃ t, exec (.gibbs c) s = .next t ∧
        EngineEnded s t c cores .flip ln.id 272 ∧
        t.mem = (cores.foldl (fun u l => writePlane u c l d ((List.range d.rows).map (fun i => (List.range d.cols).map (fun j =>
          gibbsState g.bitConv (gibbsUnit g i j (((readWides s c l a).1[16 * i + j]?).getD {})).1)))) s).mem ∧
        ∀ l ∈ cores, (t.core c l).tiles = (s.core c l).tiles ∧ (t.core c l).tileSat = (s.core c l).tileSat)

/-- VCONV, VBIN and VFMA (R169 to R177, R216, R217, R219, R476 to R478, R482): every element of the result is the exact value of the function,
through FP32 where an operand is a float, converted to the format of D with the rounding of AUX, and its groups have scale 2^0;
a saturation sets CONV_SAT. -/
def Obligations.ElementwiseResultsAreConvertedToTheDestination : Prop :=
  ∀ (s : State) (c : Nat) (ln : Launch) (o : OpWord) (cores : List Nat) (a b x d : Desc) (f : Val → Val → Val), c < 256 →
    s.mem.wf = true → cores = (s.cluster c).active o → Apart s c cores → o.aux ≤ 3 →
    a = s.desc c o.a → b = s.desc c o.b → x = s.desc c o.c → d = s.desc c o.d → a.inCore = true → d.inCore = true →
    likeShape a d = true → (∀ l ∈ cores, (readTensor s c l a).poison = []) →
    (∀ i code, ∀ value : Nat → List (List Val),
      (i = Instr.vconv c ∧ code = 0x20 ∧ (∀ l, value l = (readTensor s c l a).values) ∨
        i = Instr.vbin c ∧ code = 0x22 ∧ b.inCore = true ∧ likeShape b d = true ∧
          (∀ l ∈ cores, (readTensor s c l b).poison = []) ∧ vbinFunction (immOf ln o 0) = some f ∧
          (∀ l, value l = (elementwise (isFloat a.format || isFloat b.format)
            (zipRows f (readTensor s c l a).values (readTensor s c l b).values)).1) ∨
        i = Instr.vfma c ∧ code = 0x23 ∧ b.inCore = true ∧ likeShape b d = true ∧ x.inCore = true ∧ likeShape x d = true ∧
          (∀ l ∈ cores, (readTensor s c l b).poison = [] ∧ (readTensor s c l x).poison = []) ∧
          (∀ l, value l = (elementwise (isFloat a.format || isFloat b.format || isFloat x.format)
            (zipRows Val.add (zipRows Val.mul (readTensor s c l a).values (readTensor s c l b).values)
              (readTensor s c l x).values)).1)) →
      issuing s c code = some (ln, o) → ∃ t, exec i s = .next t ∧
        EngineEnded s t c cores .vector ln.id (ceilDiv (a.rows * a.cols) 16 + 8) ∧
        t.mem = (cores.foldl (fun u l => writeTensor u c l d ((value l).map (fun row =>
          (row.map (fun v => (convert d.format o.aux v).1), List.replicate d.groups 0x7F)))) s).mem ∧
        ∀ l ∈ cores, (t.core c l).tiles = (s.core c l).tiles ∧ (t.core c l).tileSat = (s.core c l).tileSat ∧
          (((value l).any (fun row => row.any (fun v => (convert d.format o.aux v).2))) = true →
            (t.core c l).events.getLsbD 0 = true ∧ (t.core c l).stepSat = true))

/-- VQUANT, VFUNC, VRED and VBITS (R169, R171, R218, R219, R263, R476, R479 to R481): VQUANT writes the contents and the exponent byte of every
group; VFUNC the function of every element; VRED one result for each row; VBITS packs INT8 to bits or unpacks bits to INT8.
Functions are computed as log entry 15 says. -/
def Obligations.VectorOperationsWriteTheirResults : Prop :=
  ∀ (s : State) (c : Nat) (ln : Launch) (o : OpWord) (cores : List Nat) (a d : Desc), c < 256 → s.mem.wf = true →
    cores = (s.cluster c).active o → Apart s c cores → a = s.desc c o.a → d = s.desc c o.d →
    (a.inCore = true → d.inCore = true → (∀ l ∈ cores, (readTensor s c l a).poison = []) →
      (issuing s c 0x21 = some (ln, o) → likeShape a d = true → d.plane = true → ∃ t, exec (.vquant c) s = .next t ∧
        EngineEnded s t c cores .vector ln.id (ceilDiv (a.rows * a.cols) 16 + 2 * ceilDiv (a.rows * a.cols) 32 + 16) ∧
        t.mem = (cores.foldl (fun u l => writeTensor u c l d ((readTensor s c l a).values.map (fun row =>
          ((quantiseRow (elementBits d.format) (immI8 (immOf ln o 0) 0) row).1,
            (quantiseRow (elementBits d.format) (immI8 (immOf ln o 0) 0) row).2.1)))) s).mem) ∧
      (issuing s c 0x24 = some (ln, o) → likeShape a d = true → o.aux ≤ 3 → immOf ln o 0 ≤ 9 →
        (isFloat a.format || immOf ln o 0 = 0 || immOf ln o 0 = 8 || immOf ln o 0 = 9) = true → ∃ t,
        exec (.vfunc c) s = .next t ∧ EngineEnded s t c cores .vector ln.id (4 * ceilDiv (a.rows * a.cols) 16 + 24) ∧
        t.mem = (cores.foldl (fun u l => writeTensor u c l d ((readTensor s c l a).values.map (fun row =>
          (row.map (fun v => (convert d.format o.aux (if isFloat a.format then (toFp32 ((vfunc (immOf ln o 0) v).getD .nan)).1
            else (vfunc (immOf ln o 0) v).getD .nan)).1), List.replicate d.groups 0x7F)))) s).mem) ∧
      (issuing s c 0x25 = some (ln, o) →
        vredValid (bits (immOf ln o 0) 0 8) (immI8 (immOf ln o 0) 8) (drainWordOf (immOf ln o 1)) a d = true → ∃ t,
        exec (.vred c) s = .next t ∧ EngineEnded s t c cores .vector ln.id (ceilDiv (a.rows * a.cols) 16 + 24) ∧
        t.mem = (cores.foldl (fun u l => writeTensor u c l d ((readTensor s c l a).rows.map (fun row =>
          ((vredRow (bits (immOf ln o 0) 0 8) (immI8 (immOf ln o 0) 8) (drainWordOf (immOf ln o 1)) a.format row).1,
            List.replicate d.groups 0x7F)))) s).mem)) ∧
    (issuing s c 0x26 = some (ln, o) → a.format = 5 → d.format = 5 → a.plane = false → d.plane = false → a.rows = d.rows →
      a.cols = d.cols → o.aux ≤ 3 → ∀ (n : Nat) (row : Nat → Nat → List Tagged), n = (if bit o.aux 0 then a.cols else ceilDiv a.cols 8) →
      (∀ l r, row l r = coreRead s c l (a.addr + r * a.rowStride) n) →
      (if bit o.aux 0 then a.inCore && (bitRows d).inCore else (bitRows a).inCore && d.inCore) = true →
      (∀ l ∈ cores, ∀ r, r < a.rows → anyPoison (row l r) = false) → ∃ t, exec (.vbits c) s = .next t ∧
        EngineEnded s t c cores .vector ln.id (ceilDiv (a.rows * a.cols) 64 + 8) ∧
        t.mem = (cores.foldl (fun u l => writePlane u c l d ((List.range a.rows).map (fun r =>
          if bit o.aux 0 then packBits (plain (row l r)) else unpackBits (bit o.aux 1) a.cols (plain (row l r))))) s).mem)

/-- LOAD and STORE (R70, R381, R382, R463, R484, R516, R577, R583, R726): the transactions of a LOAD or STORE are those of its ranges,
cut at 4 KiB, each translated. A piece of a page that the cluster's own crossbar reaches is read into core memory or written from it;
one of another cluster, a GDDR7 controller, a CXL port or a peer becomes a transaction over the on-chip network, outstanding
until its response; one that faults is not performed; then the operation counts. COUNTERS writes the 128 bytes of the core's events and
counters.
A range may use a cached translation until an invalidation (log entry 11). -/
def Obligations.BlockMovesGoThroughTranslation : Prop :=
  ∀ (s : State) (c : Nat) (ln : Launch) (o : OpWord) (cores : List Nat) (a d : Desc), cores = (s.cluster c).active o →
    a = s.desc c o.a → d = s.desc c o.d →
    (∀ va u, issuing s c 0x30 = some (ln, o) → d.inCore = true → a.valid = true → a.isVirtual = true → a.sameShape d = true →
      planeVas ln a = .ok va →
      runCores (fun v l => (loadPieces ln c l (movePieces (a.ranges va.1 va.2) d.coreRanges) (v, [])).map
        (fun r => startTxns c l r.2 r.1)) cores s = .ok u →
      exec (.load c) s = .next (advance c (cores.foldl (countOp .stream c ln.id (ceilDiv (rangeBytes d.coreRanges) 64 + 8)) u))) ∧
    (∀ va u, issuing s c 0x31 = some (ln, o) → a.inCore = true → d.valid = true → d.isVirtual = true → d.sameShape a = true →
      planeVas ln d = .ok va →
      runCores (fun v l => if (rangePoison v c l a.coreRanges).isEmpty then
          (storePieces ln c l (movePieces (d.ranges va.1 va.2) a.coreRanges) (v, [])).map (fun r => startTxns c l r.2 r.1)
        else .error (.poison (rangePoison v c l a.coreRanges))) cores s = .ok u →
      exec (.store c) s = .next (advance c (cores.foldl (countOp .stream c ln.id (ceilDiv (rangeBytes a.coreRanges) 64 + 8)) u))) ∧
    (∀ l va v n off lf, issuing s c 0x30 = some (ln, o) → cores = [l] → d.inCore = true → a.valid = true → a.isVirtual = true →
      a.sameShape d = true → planeVas ln a = .ok va → movePieces (a.ranges va.1 va.2) d.coreRanges = [((v, n), off)] →
      cachedLeaf s c ln.asid v = none → walk s ln.asid v false = .ok lf → lf.mig = false → lf.target = 0 →
      (∀ ts p, accessUnit s c (lf.at v) = none → physRead s (lf.at v) n = some ts → anyPoison ts = false → s.mem.wf = true → c < 256 →
        l < 64 → (s.cluster c).phys l = some p → p < 64 → off % 8 = 0 → n % 8 = 0 → off + n ≤ Config.coreSize →
        ∃ t, exec (.load c) s = .next t ∧ (t.cluster c).pos = (s.cluster c).pos + 1 ∧ physRead t (window c l off) n = some ts ∧
          (t.core c l).ops = (s.core c l).ops.add 1 ∧ (t.core c l).sent = []) ∧
      (∀ u, accessUnit s c (lf.at v) = some u → ∃ t x, exec (.load c) s = .next t ∧ (t.cluster c).pos = (s.cluster c).pos + 1 ∧
        x = { kind := .read, device := 0, addr := lf.at v, bytes := n, issuer := .stream c l, launch := ln.id, asid := ln.asid
              page := v / lf.bytes * lf.bytes, pageBytes := lf.bytes, unit := u.1, unitNo := u.2, dest := off
              num := (s.core c l).nextTxn } ∧
        (t.core c l).sent = [x] ∧ t.mem = s.mem ∧
        t.fifo (corePort c (physOf s c l) 1) = s.fifo (corePort c (physOf s c l) 1) ++ x.requests c l)) ∧
    (∀ l va v n off lf, issuing s c 0x31 = some (ln, o) → cores = [l] → a.inCore = true → d.valid = true → d.isVirtual = true →
      d.sameShape a = true → planeVas ln d = .ok va → movePieces (d.ranges va.1 va.2) a.coreRanges = [((v, n), off)] →
      rangePoison s c l a.coreRanges = [] → cachedLeaf s c ln.asid v = none → walk s ln.asid v true = .ok lf → lf.mig = false →
      lf.target = 0 →
      (accessUnit s c (lf.at v) = none → ∃ t, exec (.store c) s = .next t ∧ (t.cluster c).pos = (s.cluster c).pos + 1 ∧
        t.mem = (physWrite s (lf.at v) (coreRead s c l off n)).mem ∧ (t.core c l).ops = (s.core c l).ops.add 1) ∧
      (∀ u, accessUnit s c (lf.at v) = some u → ∃ t x, exec (.store c) s = .next t ∧ (t.cluster c).pos = (s.cluster c).pos + 1 ∧
        x = { kind := .write, device := 0, addr := lf.at v, bytes := n, issuer := .stream c l, launch := ln.id, asid := ln.asid
              page := v / lf.bytes * lf.bytes, pageBytes := lf.bytes, unit := u.1, unitNo := u.2
              data := plain (coreRead s c l off n), num := (s.core c l).nextTxn } ∧
        (t.core c l).sent = [x] ∧ t.mem = s.mem ∧
        t.fifo (corePort c (physOf s c l) 1) = s.fifo (corePort c (physOf s c l) 1) ++ x.requests c l)) ∧
    (∀ l va n off u lf w, translate c ln.asid va false s = (u, .ok lf) → lf.mig = false →
      w = throughEgress ln.asid lf va n (heatCount c ln.asid va n u) →
      (∀ x, netTxn w ln c l .read lf va n = some x → loadPiece ln c l va n off (s, []) = .ok (w, [{ x with dest := off }])) ∧
      (netTxn w ln c l .read lf va n = none → ∀ ts, leafRead w lf va n = .ok ts →
        loadPiece ln c l va n off (s, []) = if anyPoison ts then .error (.poison (poisonPlaces (lf.place w va) ts))
          else .ok (coreWrite (readThrough ln.asid lf va n w) c l off ts, []))) ∧
    (∀ l va n off u lf w, translate c ln.asid va true s = (u, .ok lf) → lf.mig = false →
      w = throughEgress ln.asid lf va n (heatCount c ln.asid va n u) →
      (∀ x, netTxn w ln c l .write lf va n = some x →
        storePiece ln c l va off n (s, []) = .ok (w, [{ x with data := plain (coreRead w c l off n) }])) ∧
      (netTxn w ln c l .write lf va n = none → ∀ v, leafWrite w lf ln.asid va (coreRead w c l off n) = .ok v →
        storePiece ln c l va off n (s, []) = .ok (v, []))) ∧
    (∀ l va n off u e, translate c ln.asid va false s = (u, .error e) →
      loadPiece ln c l va n off (s, []) = .error (.halt (.access false (.fault e.1 e.2 va)))) ∧
    (c < 256 → issuing s c 0x35 = some (ln, o) → d.inCore = true → d.plane = false → d.rows * d.rowBytes = 128 →
      ∃ t, exec (.counters c) s = .next t ∧ EngineEnded s t c cores .stream ln.id 24 ∧
        t.mem = (cores.foldl (fun u l => writeRows u c l d (counterBytes (s.core c l))) s).mem)

/-- SEND, MCAST and REDUCE (R471 to R474, R640, R651, R653, R654, R1093, R1096): each core hands its packets to its own router
and awaits their acknowledgements; SEND goes to one core of a cluster that takes part, MCAST to every named index of every
cluster of its range, REDUCE sends its tile as packets of 32 wide records, or of 128 FP64 values under Open order, once in a
step. Memory is left alone.
Packet tags of SEND and MCAST are free values (log entry 23). -/
def Obligations.TransfersHandPacketsToTheRouter : Prop :=
  ∀ (s : State) (c : Nat) (ln : Launch) (o : OpWord) (cores : List Nat) (a d : Desc), cores = (s.cluster c).active o →
    a = s.desc c o.a → d = s.desc c o.d → (∀ l ∈ cores, ∀ k ∈ cores, physOf s c l = physOf s c k → l = k) → a.inCore = true →
    ∀ v r, v = immOf ln o 0 → r = immOf ln o 1 →
    (∀ i code worst acks reduced, ∀ packets : Nat → Nat → List Pkt,
      (i = Instr.send c ∧ code = 0x32 ∧ worst = ceilDiv (rangeBytes a.coreRanges) 64 + 8 ∧ acks = 1 ∧
          takesPart ln (bits v 0 8) = true ∧ bits v 8 6 < ln.header.lcores ∧ d.inCore = true ∧ d.sameShape a = true ∧
          (∀ l ∈ cores, rangePoison s c l a.coreRanges = []) ∧ reduced = (s.cluster c).reduced ∧
          (∀ l tag, packets l tag = transferPackets 4 c l ln.id tag [64 * bits v 0 8 + bits v 8 6] 0 0 0
            (readRanges s c l a.coreRanges) d.coreRanges) ∨
        i = Instr.mcast c ∧ code = 0x33 ∧ worst = ceilDiv (rangeBytes a.coreRanges) 64 + 8 ∧ bits r 0 8 ≤ bits r 8 8 ∧
          0 < v ∧ v < 2 ^ ln.header.lcores ∧ ln.header.lcores ≤ 64 ∧
          (∀ k, bits r 0 8 ≤ k → k ≤ bits r 8 8 → takesPart ln k = true) ∧ d.inCore = true ∧ d.sameShape a = true ∧
          (∀ l ∈ cores, rangePoison s c l a.coreRanges = []) ∧ reduced = (s.cluster c).reduced ∧
          acks = (bits r 8 8 + 1 - bits r 0 8) * popCount 64 v ∧
          (∀ l tag, packets l tag = transferPackets 5 c l ln.id tag ((List.range (bits r 8 8 + 1 - bits r 0 8)).flatMap (fun k =>
              ((List.range 64).filter (bit v)).map (fun x => 64 * (bits r 0 8 + k) + x))) v (bits r 0 8) (bits r 8 8)
              (readRanges s c l a.coreRanges) d.coreRanges) ∨
        i = Instr.reduce c ∧ code = 0x34 ∧ worst = 136 ∧ acks = 1 ∧ a.format = 10 ∧ a.rows = 16 ∧ a.cols = 16 ∧
          takesPart ln (bits v 0 8) = true ∧ (∀ l ∈ cores, (readWides s c l a).2 = []) ∧
          (∀ l ∈ cores, 64 * (s.cluster c).pos + l ∉ (s.cluster c).reduced) ∧
          reduced = cores.foldl (fun m l => setInsert m (64 * (s.cluster c).pos + l)) (s.cluster c).reduced ∧
          (∀ l tag, packets l tag =
            reducePackets c l ln.id v (bit o.oflags 1) (ln.lflags.testBit 0) (readWides s c l a).1)) →
      issuing s c code = some (ln, o) → ∃ t, exec i s = .next t ∧ OpCounted s t c cores .stream ln.id worst ∧
        t = { s with clusters := t.clusters, net := { s.net with fifos := t.net.fifos }, free := t.free
                     disp := { s.disp with launches := t.disp.launches } } ∧
        t.cluster c = { s.cluster c with pos := (s.cluster c).pos + 1, cores := (t.cluster c).cores, reduced := reduced } ∧
        (∀ l ∈ cores, (t.core c l).acks = (s.core c l).acks + acks ∧
          ∃ tag, tag < 65536 ∧ t.fifo (corePort c (physOf s c l) 1) = s.fifo (corePort c (physOf s c l) 1) ++ packets l tag) ∧
        ∀ n, n ≠ recordPort c → (∀ l ∈ cores, n ≠ corePort c (physOf s c l) 1) → t.fifo n = s.fifo n) ∧
    (issuing s c 0x34 = some (ln, o) → a.format = 10 → a.rows = 16 → a.cols = 16 → takesPart ln (bits v 0 8) = true →
      (∀ l ∈ cores, (readWides s c l a).2 = [] ∧ 64 * (s.cluster c).pos + l ∈ (s.cluster c).reduced) →
      ∃ t, exec (.reduce c) s = .next t ∧ OpCounted s t c cores .stream ln.id 136 ∧ t.mem = s.mem ∧
        ∀ n, n ≠ recordPort c → t.fifo n = s.fifo n)

/-- What stops an operation (R446, R457, R583, R588, R594): an engine that meets an invalid descriptor ends the launch with 0x201 and
sets the event of the cores it runs on; one that reads a poisoned word abandons its operation and its step, sets its event, and the
consumption is counted and logged. -/
def Obligations.InvalidOperandsAndPoisonStopAnOperation : Prop :=
  ∀ (s : State) (c : Nat) (ln : Launch) (o : OpWord) (l : Nat) (ls : List Nat), (s.cluster c).active o = l :: ls →
    (∀ i code, (i, code) ∈ [(Instr.mma c, 0x11), (.vconv c, 0x20), (.vquant c, 0x21), (.vbin c, 0x22), (.vfma c, 0x23),
        (.vfunc c, 0x24), (.vred c, 0x25), (.gibbs c, 0x41), (.store c, 0x31), (.send c, 0x32), (.mcast c, 0x33),
        (.reduce c, 0x34)] → (s.desc c o.a).inCore = false → issuing s c code = some (ln, o) →
      exec i s = .next ((l :: ls).foldl (fun u k => coreEvent c k 2 u) (stopLaunch ln.id 0x201 s))) ∧
    (∀ i code, (i, code) ∈ [(Instr.drain c, 0x12), (.load c, 0x30), (.counters c, 0x35), (.vconv c, 0x20), (.vquant c, 0x21),
        (.vbin c, 0x22), (.vfma c, 0x23), (.vfunc c, 0x24), (.vred c, 0x25), (.gibbs c, 0x41)] → (s.desc c o.d).inCore = false →
      issuing s c code = some (ln, o) → exec i s = .next ((l :: ls).foldl (fun u k => coreEvent c k 2 u)
        (stopLaunch ln.id 0x201 s))) ∧
    (∀ i code places, places ≠ [] →
      (i = Instr.vconv c ∧ code = 0x20 ∧ (s.desc c o.a).inCore = true ∧ (s.desc c o.d).inCore = true ∧
          likeShape (s.desc c o.a) (s.desc c o.d) = true ∧ o.aux ≤ 3 ∧ places = (readTensor s c l (s.desc c o.a)).poison ∨
        i = Instr.mma c ∧ code = 0x11 ∧ (s.desc c o.a).inCore = true ∧ (s.desc c o.b).inCore = true ∧
          (s.desc c o.a).cols = (s.desc c o.b).cols ∧ (s.desc c o.a).rows ≤ 16 ∧ (s.desc c o.b).rows ≤ 16 ∧
          mmaFormats (s.desc c o.a).format (s.desc c o.b).format = true ∧
          places = (readTensor s c l (s.desc c o.a)).poison ∨
        i = Instr.reduce c ∧ code = 0x34 ∧ (s.desc c o.a).inCore = true ∧ (s.desc c o.a).format = 10 ∧
          (s.desc c o.a).rows = 16 ∧ (s.desc c o.a).cols = 16 ∧ takesPart ln (bits (immOf ln o 0) 0 8) = true ∧
          places = (readWides s c l (s.desc c o.a)).2) →
      issuing s c code = some (ln, o) → ∃ t, exec i s = .next t ∧
        (t.cluster c).abandon = some { core := l, places := places, lost := places.any (lostPlace s) } ∧
        (t.cluster c).pos = (s.cluster c).pos ∧ (t.core c l).events.getLsbD 1 = true ∧
        (t.core c l).tiles = (s.core c l).tiles ∧ (t.core c l).ops = (s.core c l).ops ∧
        t.memc.poison = s.memc.poison.add 1 ∧ t.memc.events.getLsbD 0 = true ∧
        (t.fifo (recordPort c)).getLast? = some (reportPkt c (eventOf 1 c (places.headD 0) l)) ∧
        t.mem = s.mem ∧ t.disp = s.disp ∧ t.ctxs = s.ctxs)

/-- ANNEAL (R262, R290, R294, R314, R339): its issue starts the run its descriptor describes, which may end the launch; a run
that begins fresh has its context RUNNING without a checkpoint, its seed, and every replica's best state equal to its first
state; once the run stands, further issues only let the cluster go on to the end of its anneal step.
The parts of an anneal step are commands of their own (log entry 17). -/
def Obligations.AnnealStartsARun : Prop :=
  ∀ (s : State) (c : Nat) (ln : Launch) (o : OpWord) (n : Nat), n = immOf ln o 0 →
    (issuing s c 0x40 = some (ln, o) → (s.cluster c).rerun = [] →
      (∀ r, s.run n = some r → r.launch = ln.id → r.seedWait = false → (∀ k, r.next ≠ .energyPass k) →
        exec (.anneal c) s = .next (s.setCluster c { s.cluster c with pos := (s.cluster c).pos + 1 })) ∧
      (∀ b t r x, s.run n = none → argBlock ln (immOf ln o 1) 64 = .ok b → n < 262144 →
        startRun s c n ln o (annealDescOf b) (ln.argVa + immOf ln o 1) = .ok t → t.run n = some r → r.seedWait = false →
        (∀ k, r.next ≠ .energyPass k) → t.launch ln.id = some x → x.phase = .running → (t.cluster c).abandon = none →
        exec (.anneal c) s = .next (t.setCluster c { t.cluster c with pos := (t.cluster c).pos + 1 })) ∧
      (∀ b st, s.run n = none → argBlock ln (immOf ln o 1) 64 = .ok b → n < 262144 →
        startRun s c n ln o (annealDescOf b) (ln.argVa + immOf ln o 1) = .error (.status st) →
        exec (.anneal c) s = .next (stopLaunch ln.id st s))) ∧
    (∀ r t, beginRun n r s = .ok t → t.ctx n = { s.ctx n with state := .running, checkpointVa := 0 } ∧
      (∀ k, k ≠ n → t.ctx k = s.ctx k) ∧ ∃ x, t.run n = some x ∧ x.launch = r.launch ∧ x.seed = r.seed ∧ x.seedWait = false ∧
        x.sweep = r.sweep ∧ (x.next = .phase ∨ x.next = .energyPass 0) ∧ ∀ p ∈ x.reps, p.best = p.u ∧ p.start = p.u ∧
          p.bestEnergy = p.energy ∧ p.bestSweep = 2 ^ 64 - 1 ∧ p.attempts = {} ∧ p.accepts = {} ∧ p.swaps = {})

/-- LOADIMG (R274, R276, R286, R289, R492, R495): the first load step checks the load record, the header and the directories and
makes the context LOADING; the next ones quantise what begins in a MiB of the image, then check the packed data of a MiB, then the
tables; the last makes the context READY with its coefficient root and a new LOAD_GENERATION. A failing check makes it FAILED with its
code and offset and ends the launch with 0x204.
Which checks fall in which load step is the model's reading (log entry 29). -/
def Obligations.LoadsCheckTheImageAndReadyTheContext : Prop :=
  ∀ (s : State) (c : Nat) (ln : Launch) (o : OpWord) (b : List Byte) (r : LoadRecord) (x : Ctx), ln.longRan = false →
    issuing s c 0x42 = some (ln, o) → (s.cluster c).rerun = [] → argBlock ln (immOf ln o 0) 32 = .ok b → r = loadRecordOf b →
    x = s.ctx r.context →
    (s.loads.find? (fun e => e.1 = r.context && e.2.launch = ln.id) = none → ctxPoisoned s r.context = false →
      (∀ m, loadMayStart r (bit (immOf ln o 1) 0) ln.asid x = .ok () →
        checkDirectories (fetchAt s ln.asid r.imageVa) r.imageVa = .ok m → ∃ t, exec (.loadimg c) s = .next t ∧
          t.ctx r.context = { x with state := .loading, asid := ln.asid, imageVa := r.imageVa, stateVa := r.stateVa
                                     loadError := 0, errorOffset := 0 } ∧
          (∀ k, k ≠ r.context → t.ctx k = s.ctx k) ∧
          mapFind t.loads r.context = some { launch := ln.id, reload := bit (immOf ln o 1) 0, sections := r.sections
                                             stepsDone := 1, stepsTotal := loadSteps m.h.imageSize } ∧
          (t.cluster c).pos = (s.cluster c).pos + 1 ∧
          t = { accessed s t with ctxs := t.ctxs, ctxPoison := t.ctxPoison, ctxCache := t.ctxCache, loads := t.loads
                                  clusters := t.clusters, free := t.free
                                  disp := { s.disp with launches := t.disp.launches } }) ∧
      (∀ code off, loadMayStart r (bit (immOf ln o 1) 0) ln.asid x = .ok () →
        checkDirectories (fetchAt s ln.asid r.imageVa) r.imageVa = .error (.load code off) → ∃ t y,
          exec (.loadimg c) s = .next t ∧ (t.ctx r.context).state = .failed ∧ (t.ctx r.context).loadError = code ∧
          (t.ctx r.context).errorOffset = off ∧ mapFind t.loads r.context = none ∧ t.launch ln.id = some y ∧
          y.phase = .ended ∧ (ln.status = 0 → y.status = 0x204) ∧ t.mem = s.mem) ∧
      (∀ st, loadMayStart r (bit (immOf ln o 1) 0) ln.asid x = .error (.status st) →
        exec (.loadimg c) s = .next (stopLaunch ln.id st s))) ∧
    (∀ job k d m image, mapFind s.loads r.context = some job → job.launch = ln.id → k = job.mibs → d = job.stepsDone →
      image = fetchAt s ln.asid x.imageVa → image.problem = .ok m →
      (∀ items u, 1 ≤ d → d ≤ k → quantiseSections image m (m.h.source &&& job.sections) (inMiB (d - 1)) = .ok items →
        writeAll c s ln.asid x.imageVa (sectionWrites s.free items) = .ok u → firstFailure (items.flatMap (·.fails)) = .ok () →
        ∃ t, exec (.loadimg c) s = .next t ∧ mapFind t.loads r.context = some { job with stepsDone := d + 1 } ∧
          (t.cluster c).pos = (s.cluster c).pos + 1 ∧ t.ctxs = s.ctxs ∧ t.mem.bytes = u.mem.bytes) ∧
      (∀ fs, k < d → d ≤ 2 * k → packedFailures image m (if job.reload then job.sections else 7) = .ok fs →
        (firstFailure (fs.filter (fun f => inMiB (d - 1 - k) f.1)) = .ok () → ∃ t, exec (.loadimg c) s = .next t ∧
          mapFind t.loads r.context = some { job with stepsDone := d + 1 } ∧ (t.cluster c).pos = (s.cluster c).pos + 1 ∧
          t.ctxs = s.ctxs ∧ t.mem.bytes = s.mem.bytes) ∧
        (∀ code off, firstFailure (fs.filter (fun f => inMiB (d - 1 - k) f.1)) = .error (.load code off) → ∃ t y,
          exec (.loadimg c) s = .next t ∧ (t.ctx r.context).state = .failed ∧ (t.ctx r.context).loadError = code ∧
          (t.ctx r.context).errorOffset = off ∧ t.launch ln.id = some y ∧ y.phase = .ended ∧ (ln.status = 0 → y.status = 0x204))) ∧
      (d = 2 * k + 1 → checkContent image m = .ok () → ∃ t, exec (.loadimg c) s = .next t ∧
        mapFind t.loads r.context = some { job with stepsDone := d + 1 } ∧ (t.cluster c).pos = (s.cluster c).pos + 1 ∧
        t.ctxs = s.ctxs ∧ t.mem.bytes = s.mem.bytes) ∧
      (2 * k + 1 < d → d < 3 * k + 1 → ∃ t, exec (.loadimg c) s = .next t ∧
        mapFind t.loads r.context = some { job with stepsDone := d + 1 } ∧ (t.cluster c).pos = (s.cluster c).pos + 1 ∧
        t.ctxs = s.ctxs ∧ t.mem.bytes = s.mem.bytes) ∧
      (∀ stream, 0 < k → d = 3 * k + 1 → coefficientStream image m = .ok stream → ∃ t, exec (.loadimg c) s = .next t ∧
        (t.ctx r.context).state = .ready ∧ (t.ctx r.context).coeffRoot = regionRoot stream ∧
        (t.ctx r.context).loadGen = (x.loadGen + 1) % 2 ^ 32 ∧ (t.ctx r.context).loadCricket = s.pace.cricket ∧
        (t.ctx r.context).nvars = m.h.nvars ∧ (t.ctx r.context).qexp = m.h.qexp ∧
        (t.ctx r.context).energyOffset = m.h.offset ∧ (∀ j, j ≠ r.context → t.ctx j = s.ctx j) ∧
        ((t.launch ln.id).map (·.longDone)) = some true ∧ t.mem.bytes = s.mem.bytes))

/-! ## Anneal steps (files 04 and 05) -/

/-- ANNEAL_PHASE (R307 to R316, R338, R1086): one phase visits the variables of its colour in every replica under its stage's
rule and β; the state, the energy, the counts of attempts and acceptances and the best state follow; the phase number moves on
and the step of the execution is done. A run whose ring writer has stopped ends instead; a member whose reports of the last
phase are not all held waits; its boundary reports of the phase join the packets to be sent.
Under Loose exchange the arrival of a report is a free value (log entry 30). -/
def Obligations.PhasesUpdateEveryReplica : Prop :=
  ∀ (s : State) (n : Nat) (ln : Launch) (r : Run), runAt s n .phase = some (ln, r) → stepMayRun s ln = true →
    (∀ st, r.traceStop = some st → exec (.annealPhase n) s = .next (stopLaunch ln.id st s)) ∧
    (∀ image m ss, r.traceStop = none → image = fetchAt s r.asid (s.ctx n).imageVa → image.problem = .ok m →
      image.schedule m = .ok ss →
      (r.settleLast m = none → exec (.annealPhase n) s = .next s) ∧
      (∀ st q phases blocks cp, r.exch = none → st = (ss[r.stage]?).getD ⟨0, 0, 0, 0, 0, 0, 0, 0, 0⟩ → q = r.stageStart st →
        phases = q.phases m st → blocks = (phases[r.phase]?).getD [] → readCouplings image (q.planes s image m) m blocks = .ok cp →
        ∃ t y, exec (.annealPhase n) s = .next t ∧ t.run n = some y ∧ y.phase = r.phase + 1 ∧ y.sweep = r.sweep ∧
          y.stage = r.stage ∧ y.next = (if r.phase + 1 < phases.length then .phase else .sweepEnd) ∧
          y.reps.length = q.reps.length ∧ (∀ k, k ≠ n → t.run k = s.run k) ∧ t.ctxs = s.ctxs ∧
          t.mem = { s.mem with badWords := t.mem.badWords } ∧
          ((t.launch ln.id).map (·.longRan)) = some true ∧
          ∀ (i : Nat) (x z : Replica) (v : Visited), q.reps[i]? = some x → y.reps[i]? = some z →
            v = phaseVisits cp { seed := r.seed, sweep := r.sweep, replica := i, rule := st.rule, betaM := x.betaM
                                 betaX := x.betaX } blocks x.u →
            z.u = v.u ∧ z.energy = x.energy + cp.change x.u v.u ∧ z.attempts = x.attempts.add v.attempts ∧
              z.accepts = x.accepts.add v.accepts ∧
              z.collisions = x.collisions.add (if st.mode = 1 then collisions cp x.u v.u else 0) ∧
              z.bestEnergy = min x.bestEnergy z.energy ∧
              (z.energy < x.bestEnergy → z.bestSweep = r.sweep) ∧
              (x.bestEnergy ≤ z.energy → z.best = x.best ∧ z.bestSweep = x.bestSweep) ∧
              z.betaM = x.betaM ∧ z.betaX = x.betaX ∧ z.rank = x.rank) ∧
      (∀ st p q x y u cp phases blocks before t, r.settleLast m = some p → p.exch = some x →
        st = (ss[p.stage]?).getD ⟨0, 0, 0, 0, 0, 0, 0, 0, 0⟩ → q = p.stageStart st → phases = q.phases m st →
        blocks = (phases[q.phase]?).getD [] → readCouplings image (q.planes s image m) m blocks = .ok cp →
        u = memberPhase (touchAll q.cluster q.asid 0 (q.readRanges (s.ctx n).imageVa m m.tables blocks) s) q m ss st cp blocks x →
        before = (q.applyThese x (arrived m ss x s.free q.key)).reps.map (·.u) → u.2.exch = some y →
        y.outbox = x.outbox ++ (x.others.filter (fun d => x.receivesFrom m d x.self)).flatMap
            (boundaryPackets m y q.key u.2.reps before) ∧
          y.last = some (q.sweep, q.phase) ∧ y.waitSince = s.pace.cricket ∧ u.2.reps.length = q.reps.length ∧
          (moveReports n (markRan ln.id ((annealWork ln q m .phase u.1).setRun n { u.2 with
              phase := q.phase + 1, next := if q.phase + 1 < phases.length then .phase else .sweepEnd })) = .ok t →
            exec (.annealPhase n) s = .next t)))

/-- SWEEP_END (R300, R301, R326 to R340, R370, R404, R417, R421): the sweep-end work counts the sweep and moves to its
next stage position; in a multi-device run it takes the last phase from the reports held, and the current states take in every
report of the sweep; the rows of the run-state area are written; then a checkpoint falls due, or the run is over and its
context READY again with RUNS and BEST_ENERGY brought up to date, or a pause asked for makes a checkpoint due, or the run goes
on with a rotation or a phase. A run resumed from the checkpoint of its last sweep is over without a further one. -/
def Obligations.SweepsEndWithRecordsAndPositions : Prop :=
  ∀ (s : State) (n : Nat) (ln : Launch) (r q : Run) (image : Fetch) (m : Problem) (ss : List Stage),
    runAt s n .sweepEnd = some (ln, r) → ln.longDone = false → r.traceStop = none → r.settleLast m = some q →
    image = fetchAt s r.asid (s.ctx n).imageVa → image.problem = .ok m → image.schedule m = .ok ss →
    (∀ t, q.phase = 0 → closeRun n ln m false q s = .ok t → exec (.sweepEnd n) s = .next t ∧ (t.ctx n).state = .ready ∧
      ∃ y, t.run n = some y ∧ y.next = .finished ∧ y.sweep = r.sweep) ∧
    (∀ (st : Stage) (v : State) (w : State × Run) (u : State), q.phase ≠ 0 →
      st = (ss[q.stage]?).getD ⟨0, 0, 0, 0, 0, 0, 0, 0, 0⟩ →
      v = touchAll q.cluster q.asid 0 ((m.heads ++ m.tables).map (fun e => ((s.ctx n).imageVa + e.1, e.2))) s →
      w = sweepWork v n ln st q.withReports →
      writeAll w.2.cluster w.1 w.2.asid w.2.area.va (areaRows w.2.area m.h.nvars w.2.reps) = .ok u →
      w.2.sweep = r.sweep + 1 ∧ w.2.phase = 0 ∧
      (r.stageSweep + 1 < st.sweeps → w.2.stage = r.stage ∧ w.2.stageSweep = r.stageSweep + 1) ∧
      (st.sweeps ≤ r.stageSweep + 1 → w.2.stage = r.stage + 1 ∧ w.2.stageSweep = 0) ∧
      (∀ (i : Nat) (x : Exch) (y z : Replica), q.exch = some x → q.reps[i]? = some y → w.2.reps[i]? = some z →
        z.u = applyReports (x.pendingReports.filter (fun p => p.key < q.key)) i y.u) ∧
      (r.traceOn = false → w.1 = v) ∧ w.2.targetHit = q.withReports.hits ∧ w.2.endRecs.length = r.reps.length ∧
      (w.2.due = true → exec (.sweepEnd n) s = .next (u.setRun n { w.2 with next := .checkpoint, pausing := false })) ∧
      (∀ p, w.2.due = false → w.2.over ss = false → pauseAsked u w.2 = .ok p → exec (.sweepEnd n) s =
        .next ((touchPause w.2 u).setRun n { w.2 with next := if p then .checkpoint else w.2.onward, pausing := p })) ∧
      (∀ t, w.2.due = false → w.2.over ss = true → closeRun n ln m false w.2 u = .ok t → exec (.sweepEnd n) s = .next t ∧
        t.ctx n = { s.ctx n with state := .ready, runs := ((s.ctx n).runs + 1) % 2 ^ 64
                                 bestEnergy := lowestBest (s.ctx n).bestEnergy w.2.reps } ∧
        (∃ y, t.run n = some y ∧ y.next = .finished) ∧ ((t.launch ln.id).map (·.longDone)) = some true))

/-- ROTATION_START and CHECKPOINT_WRITE (R290, R376 to R380, R412 to R417, R421, R424): a rotation start brings the entries
of the plan into their halves of the staging area; a checkpoint is written to the slot that the context does not name, its
sequence number last, and the context names it then; a pause ends the run with its context PAUSED.
The order of items in a checkpoint and in the staging area is the model's reading (log entries 27 and 53). -/
def Obligations.RotationsAndCheckpointsWriteTheArea : Prop :=
  ∀ (s : State) (n : Nat) (ln : Launch) (r : Run) (image : Fetch) (m : Problem), stepMayRun s ln = true → r.traceStop = none →
    image = fetchAt s r.asid (s.ctx n).imageVa → image.problem = .ok m →
    (∀ t u, liveRun s n = some (ln, r) → (r.next = .rotation ∨ r.next = .resume) →
      stageEntries n m r (rotationStages (r.next = .resume) r) s = .ok t →
      writeAll r.cluster (touchAll r.cluster r.asid 0 (r.readRanges (s.ctx n).imageVa m [] (r.blocks m)) t) r.asid r.area.va
        (areaRows r.area m.h.nvars r.reps) = .ok u →
      exec (.rotationStart n) s = .next (markRan ln.id (annealWork ln r m .fields (u.setRun n { r with next := .phase }))) ∧
      rotationStages (r.next = .resume) r = (if r.next = .resume then [r.rotation] else []) ++
        (if r.plan.length = 1 then [] else [r.rotation + 1])) ∧
    (∀ ss w u q, q = { r with ckptSeq := r.ckptSeq + 1 } → runAt s n .checkpoint = some (ln, r) → r.traceOn = false → ln.pair = false → image.schedule m = .ok ss →
      writeCkpt s n r image m = .ok w →
      writeAll r.cluster (markRan ln.id (annealWork ln q m .checkpoint w.1)) r.asid r.area.va
        (areaRows r.area m.h.nvars r.reps) = .ok u →
      (w.1.ctx n).checkpointVa = r.area.va + nextSlot r.area (s.ctx n).checkpointVa ∧
      (nextSlot r.area (s.ctx n).checkpointVa = r.area.ckpt0 ∨ nextSlot r.area (s.ctx n).checkpointVa = r.area.ckpt1) ∧
      (r.over ss = false → r.pausing = false → r.exch = none → readPause u q = .ok false →
        exec (.checkpointWrite n) s = .next ((touchPause q u).setRun n { q with next := q.onward })) ∧
      (∀ t, r.over ss = false → r.pausing = true → closeRun n ln m true q u = .ok t →
        exec (.checkpointWrite n) s = .next t ∧ t.ctx n = { u.ctx n with
          state := .paused, bestEnergy := lowestBest (u.ctx n).bestEnergy r.reps }))

/-- TRACE_RING_WRITE (R344 to R350, R353, R354, R1086): the first record of an engine trace stage goes to the slot of its number in
the ring of its run, the write index follows, the record is counted, and waiting records enter the stage where there is room; a
full ring leaves the record in the stage and sets TRACE_FULL; a fault or poison stops the writer for good, and what it has staged
goes nowhere; a record whose run is gone, traces nothing or has a stopped writer leaves the stage unwritten.
A read index ahead of the write index leaves room by the model's reading (log entry 71). -/
def Obligations.TraceRecordsReachTheRingInOrder : Prop :=
  ∀ (s : State) (c : Nat) (t : TraceRec) (rest : List TraceRec), s.on = true → (s.cluster c).trace = t :: rest →
    ((∀ r, s.run t.ctx = some r → r.launch ≠ t.launch ∨ r.traceOn = false ∨ r.traceStop ≠ none) → ∃ w ws,
      exec (.traceRingWrite c) s = .next w ∧ w.mem = s.mem ∧ w.trace = s.trace ∧ (w.cluster c).trace = rest ++ ws) ∧
    (∀ (r : Run) (v : State), s.run t.ctx = some r → r.launch = t.launch → r.traceOn = true → r.traceStop = none →
      v = touch c r.asid r.traceRdVa 8 false s →
      (∀ rd, readVa s r.asid r.traceRdVa 8 = .ok rd →
        (leNat rd + r.traceSlots ≤ r.traceN →
          exec (.traceRingWrite c) s = .next { v with trace := { v.trace with events := v.trace.events ||| 2#32 } }) ∧
        (∀ x u, r.traceN < leNat rd + r.traceSlots →
          writeVa c v r.asid (r.traceVa + 64 * (r.traceN % r.traceSlots)) t.bytes = .ok x →
          writeVa c x r.asid r.traceWrVa (leBytes 8 (r.traceN + 1)) = .ok u → ∃ w ws k,
            exec (.traceRingWrite c) s = .next w ∧ w.mem = u.mem ∧ w.ctxs = s.ctxs ∧
            w.run t.ctx = some { r with traceN := r.traceN + 1, endWait := r.endWait.drop k } ∧
            (∀ j y, j ≠ t.ctx → s.run j = some y → ∃ i, w.run j = some { y with endWait := y.endWait.drop i }) ∧
            (w.cluster c).trace = rest ++ ws ∧ ws.length ≤ 64 - rest.length ∧
            (stageRuns s c = [t.ctx] → k = 64 - rest.length ∧ ws = r.endWait.take k) ∧
            w.trace.records = u.trace.records.add 1 ∧
            w.trace.gaps = (if fieldAt t.bytes 0 1 = 1 then u.trace.gaps.add 1 else u.trace.gaps)) ∧
        (∀ kind level a, r.traceN < leNat rd + r.traceSlots → kind ≠ 7 →
          writeVa c v r.asid (r.traceVa + 64 * (r.traceN % r.traceSlots)) t.bytes = .error (.access true (.fault kind level a)) →
          ∃ w, exec (.traceRingWrite c) s = .next w ∧ w.mem = v.mem ∧
            w.run t.ctx = some { r with traceStop := some 0x300, endWait := [] })) ∧
      (∀ kind level a, readVa s r.asid r.traceRdVa 8 = .error (.access false (.fault kind level a)) → kind ≠ 7 → ∃ w ws,
        exec (.traceRingWrite c) s = .next w ∧ w.mem = s.mem ∧ w.memc.events.getLsbD 6 = true ∧
        w.run t.ctx = some { r with traceStop := some 0x300, endWait := [] } ∧
        (w.cluster c).trace = (s.cluster c).trace.filter (fun z => !(z.ctx = t.ctx && z.launch = t.launch)) ++ ws) ∧
      (∀ p, readVa s r.asid r.traceRdVa 8 = .error (.poison p) → ∃ w ws,
        exec (.traceRingWrite c) s = .next w ∧ w.mem = s.mem ∧ w.memc.poison = s.memc.poison.add 1 ∧
        w.run t.ctx = some { r with traceStop := some 0x301, endWait := [] } ∧
        (w.cluster c).trace = (s.cluster c).trace.filter (fun z => !(z.ctx = t.ctx && z.launch = t.launch)) ++ ws))

/-- REPORT_PACKET and REPORT_TIMEOUT (R389, R393 to R396, R401, R407, R408, R737): a packet at the read position whose COMMIT fits is
consumed: the position moves to COMMIT and is acknowledged to its sender; another one is not yet there; one of another run,
image or phase ends the launch with 0x401; the COMMIT of a packet being sent is written once every other write of the packet has
completed; a packet for which flow control has no room waits; waiting longer than TIMEOUT_US for a report ends the launch with
0x400. When a wait begins, and what a REPORT_PACKET sends, are the model's reading (log entry 30). -/
def Obligations.ReportsAreConsumedInOrder : Prop :=
  ∀ (s : State) (n : Nat) (ln : Launch) (r : Run) (x : Exch) (d pos : Nat), exchanging s n = some (ln, r, x) →
    d < x.members.length → d ≠ x.self → pos = mapGet 0 x.rpos d →
    (∀ b h, r.next ≠ .finished → readVa s r.asid (r.area.va + x.inboxOff + d * x.sub + pos % x.sub) 64 = .ok b → h = packetHeadOf b →
      (∀ t, h.accepted x pos = false → moveReports n s = .ok t → exec (.reportPacket n d) s = .next t) ∧
      (∀ image m ss, h.accepted x pos = true → image = fetchAt s r.asid (s.ctx n).imageVa → image.problem = .ok m →
        image.schedule m = .ok ss →
        (h.typ ≠ 3 → (h.seed ≠ r.seed ∨ h.root ≠ root64 (s.ctx n) ∨ 65536 * h.sweep + h.phase ≠ x.expects h d) →
          exec (.reportPacket n d) s = .next (stopLaunch ln.id 0x401 s)) ∧
        (∀ body y v u, (h.typ = 3 ∧ y = x ∨ h.typ ≠ 3 ∧ h.seed = r.seed ∧ h.root = root64 (s.ctx n) ∧
            65536 * h.sweep + h.phase = x.expects h d ∧ y = x.take m ss d h body ∧
            readVa s r.asid (r.area.va + x.inboxOff + d * x.sub + pos % x.sub + 64) (64 * h.units - 64) = .ok body) →
          v = touch r.cluster r.asid (r.area.va + x.inboxOff + d * x.sub + pos % x.sub) (64 * h.units) false s →
          peerWrite v ((x.member d).ackGva + 8 * x.self) (untagged (leBytes 8 h.commit)) = .ok u →
          (∀ t, moveReports n (u.setRun n { r with exch := some { y with rpos := mapSet x.rpos d h.commit } }) = .ok t →
            exec (.reportPacket n d) s = .next t) ∧
          (x.outbox = [] → x.opened = [] → (x.last = none ∨ x.own.isSome = true) → ∃ t, exec (.reportPacket n d) s = .next t ∧
            t = { u with runs := t.runs } ∧ (∀ k, k ≠ n → t.run k = u.run k) ∧
            t.run n = some { r with exch := some { y with rpos := mapSet x.rpos d h.commit } })))) ∧
    (∀ e k, r.next = .finished → x.others = [e] → x.outbox = [] → x.opened = [(e, k)] → (x.last = none ∨ x.own.isSome = true) →
      (s.silk.txns.any (fun t => k.tags.contains t.tag) = true → ∃ t, exec (.reportPacket n d) s = .next t ∧
        t = { s with runs := t.runs } ∧ ∀ j, t.run j = s.run j) ∧
      (∀ u, s.silk.txns.any (fun t => k.tags.contains t.tag) = false → peerWrite s k.gva (untagged (leBytes 8 k.commit)) = .ok u →
        ∃ t, exec (.reportPacket n d) s = .next t ∧ t = { u with runs := t.runs } ∧ (∀ j, j ≠ n → t.run j = u.run j) ∧
          t.run n = some { r with exch := some { x with opened := [] } })) ∧
    (∀ e p ack, r.next = .finished → x.others = [e] → x.outbox = [p] → p.dest = e → x.opened = [] →
      (x.last = none ∨ x.own.isSome = true) → mapGet 0 x.wpos e % x.sub + 64 * p.units ≤ x.sub →
      readVa s r.asid (r.ackVa x e) 8 = .ok ack → x.sub + leNat ack < mapGet 0 x.wpos e + 64 * p.units →
      ∃ t, exec (.reportPacket n d) s = .next t ∧ t = { s with runs := t.runs } ∧ ∀ j, t.run j = s.run j) ∧
    (∀ l wait, r.next ≠ .finished → x.last = some l → ln.status = 0 → (x.own = none ∧ wait = x.waitSince ∨
        x.own.isSome = true ∧ x.energyHeld (65536 * l.1 + l.2) = false ∧ wait = x.energySince) →
      (wait + 1000 * x.timeoutUs < s.pace.cricket → ∃ t, exec (.reportTimeout n) s = .next t ∧
        t.launch ln.id = some { ln with phase := .ended, status := 0x400 } ∧
        t = { s with disp := { s.disp with launches := t.disp.launches } }) ∧
      (s.pace.cricket ≤ wait + 1000 * x.timeoutUs → exec (.reportTimeout n) s = .next s))

/-! ## Network and memory ports (files 07, 08, 10) -/

/-- ROUTER_PACKET (R635, R643, R645 to R647, R651, R652, R656 to R660, R676): a packet whose header byte fails parity in both copies
is dropped, counted and reported; of a multicast packet for a router and of a packet for a reduction node the words that failed
parity are counted and keep their poison tags, and the packet stays for its own command. Any other packet at the head of a FIFO
whose turn it is moves to the output FIFO of the next router when its input is the next one there and the FIFO has room, or merges
into its partner there; the words that failed parity are counted and keep their poison tags. Where no router follows, the unit
behind the output takes the packet: a core, which writes the payload and acknowledges it, lands the data of its reads or counts an
acknowledgement; a crossbar, which reads or writes and answers; or a memory port, whose arbiter holds it.
Entry positions, the SOURCE of a bridge, when the packets that stay are read and the length of a read request are the model's (log
entries 26, 35, 81 and 82). -/
def Obligations.RoutersForwardMergeAndDeliver : Prop :=
  ∀ (s : State) (n : Nat) (k k' : Pkt) (ks : List Pkt) (b1 b2 : BitVec 8) (bad w : BitVec 17) (u : State), s.on = true →
    s.fifo n = k :: ks → itsTurn s n = true → w = badWords b1 b2 bad → k' = poisonFlits k w →
    u = countBad (popFifo s n) n (badCount k w) →
    (readRoute k b1 b2 = none → ∃ t o, exec (.routerPacket n b1 b2 bad) s = .next t ∧
      (∀ m, m ≠ recordPort (droppedBy n) → t.fifo m = if m = n then ks else s.fifo m) ∧
      t.fifo (recordPort (droppedBy n)) = (if recordPort (droppedBy n) = n then ks else s.fifo (recordPort (droppedBy n))) ++ o ++
        [reportPkt (droppedBy n) (eventOf 16 (droppedBy n) 0 0)] ∧ o.length ≤ 1 ∧
      (∀ c, takenBy n = some (.clu c) ∨ (∃ p, takenBy n = some (.core c p)) ∨ (takenBy n = none ∧ fifoCluster n = some c) →
        (t.cluster c).netDrops = (s.cluster c).netDrops.add 1) ∧
      t = { s with net := { s.net with fifos := t.net.fifos, turn := t.net.turn }, clusters := t.clusters }) ∧
    ((readRoute k b1 b2).isSome = true →
      (awaitsCommand n k = true → (w = 0 → exec (.routerPacket n b1 b2 bad) s = .next s) ∧
        (w ≠ 0 → exec (.routerPacket n b1 b2 bad) s = .next (countBad (s.setFifo n (k' :: ks)) n (badCount k w)))) ∧
      (∀ node m q, k.typ ≠ 5 → takenBy n = some node → branches s node k' = [(m, q)] → m ≠ n →
        (nextInput s m ≠ some n → exec (.routerPacket n b1 b2 bad) s = .next s) ∧
        ((∀ x ∈ s.fifo m, mergeable x q = false) → hasRoom s m q = false → exec (.routerPacket n b1 b2 bad) s = .next s) ∧
        (nextInput s m = some n → (∀ x ∈ s.fifo m, mergeable x q = false) → hasRoom s m q = true → ∃ t,
          exec (.routerPacket n b1 b2 bad) s = .next t ∧ t.fifo n = ks ∧ t.fifo m = s.fifo m ++ [q] ∧
          (∀ j, j ≠ n → j ≠ m → (∀ c, j ≠ recordPort c) → t.fifo j = s.fifo j) ∧ mapFind t.net.served m = some n ∧
          (∀ c, t.cluster c = { s.cluster c with netPoison := (t.cluster c).netPoison }) ∧
          (∀ c, badCount k w ≠ 0 → fifoCluster n = some c →
            (t.cluster c).netPoison = (s.cluster c).netPoison.add (badCount k w)) ∧
          t = { s with net := t.net, clusters := t.clusters }) ∧
        (∀ i x, m < 254976 → nextInput s m = some n → findIdx (fun x => mergeable x q) (s.fifo m) 0 = some i →
          (s.fifo m)[i]? = some x → ∃ t o, exec (.routerPacket n b1 b2 bad) s = .next t ∧ t.fifo n = ks ++ o ∧
          (n < 255102 → o = []) ∧ o.length ≤ 1 ∧
          (t.fifo m).length = (s.fifo m).length ∧ (t.fifo m)[i]? = some (mergePkt (s.tileF q) x q) ∧
          (∀ j, j ≠ i → (t.fifo m)[j]? = (s.fifo m)[j]?) ∧ mapFind t.net.served m = some n ∧
          (t.cluster (m / 996)).netMerges = (s.cluster (m / 996)).netMerges.add 1 ∧
          t = { s with net := t.net, clusters := t.clusters })) ∧
      (∀ c p o, takenBy n = none → fifoOwner n = some (.core c p, o) →
        (k.typ = 3 → (k.srcUnit = .core ∨ k.srcUnit = .node) → ∃ t, exec (.routerPacket n b1 b2 bad) s = .next t ∧
          t.fifo n = ks ∧ (t.core c k.destIndex).acks = (s.core c k.destIndex).acks - 1 ∧ t.mem = s.mem) ∧
        (∀ x g, k.typ = 2 → (s.core c k.destIndex).sent.find? (fun x => x.num = k.txn && x.launch % 65536 = k.launch) = some x →
          g = x.wanted k.addr k'.payload.bytesOf → anyPoison g.2 = false → (k.last = true → (s.core c k.destIndex).waiting = []) →
          ∃ t, exec (.routerPacket n b1 b2 bad) s = .next t ∧ t.fifo n = ks ∧
          t.mem = (deliverBytes u c p [(x.dest + (g.1 - x.addr), g.2.length)] g.2).mem ∧
          (t.core c k.destIndex).sent = if k.last then (s.core c k.destIndex).sent.filter (fun y => y.num != x.num)
            else (s.core c k.destIndex).sent) ∧
        (∀ data, k.typ ≠ 2 → k.typ ≠ 3 → k'.payload = .bytes data → ∃ t, exec (.routerPacket n b1 b2 bad) s = .next t ∧
          t.fifo n = ks ∧ t.mem = (deliverBytes u c p k.pieces data).mem ∧
          (k.last = true → t.fifo (corePort c p 2) = s.fifo (corePort c p 2) ++
            [ackPkt k .core c ((logicalOf s c p).getD p) (64 * k.srcCluster + k.srcIndex)]))) ∧
      (k.typ = 5 → (takenBy n).isSome = true → awaitsCommand n k = true) ∧
      (∀ c v, fifoOwner n = some (.clu c, 9, v) → awaitsCommand n k = true) ∧
      (∀ c v, takenBy n = none → fifoOwner n = some (.clu c, 10, v) → lineCount k = 1 →
        (∀ data, k.typ = 0 → physRead s k.addr k.length = some data → ∃ t, exec (.routerPacket n b1 b2 bad) s = .next t ∧
          t.fifo n = ks ∧ t.fifo (xbarPort c 2) = s.fifo (xbarPort c 2) ++ replyPkts k' data ∧
          t.mem = { s.mem with badWords := t.mem.badWords }) ∧
        (∀ data, k.typ ≠ 0 → k'.payload = .bytes data → data.length = k.length → ∃ t,
          exec (.routerPacket n b1 b2 bad) s = .next t ∧ t.fifo n = ks ∧ t.mem = (physWrite u k.addr data).mem ∧
          (k.last = true → t.fifo (xbarPort c 2) = s.fifo (xbarPort c 2) ++
            [ackPkt k k.destUnit k.destCluster k.destIndex (64 * k.srcCluster + k.srcIndex)]))) ∧
      (∀ c q v, takenBy n = none → fifoOwner n = some (.clu c, 11, v) → q < 16 → gddrAttach q = c →
        (∀ ch, k.payload ≠ .order (.drainChannel ch)) →
        exec (.routerPacket n b1 b2 bad) s = .next (u.setArbiter q ((s.arbiter q).take k'))) ∧
      (∀ d v, takenBy n = none → fifoOwner n = some (.hub, 2 + d, v) → d < 4 → (∀ o, k.payload ≠ .order o) → k.typ = 0 →
        (s.arbiter (16 + d)).pending = [] → (s.cxlOf d).state ≠ .lost → placeOf s (lineAt k 0) ≠ .hole →
        exec (.routerPacket n b1 b2 bad) s = .next (u.setArbiter (16 + d) ((s.arbiter (16 + d)).take k'))) ∧
      (∀ p v, takenBy n = none → fifoOwner n = some (.hub, 6 + p, v) → p < 12 → (∀ o, k.payload ≠ .order o) →
        (s.portOf p).queue ≠ [] →
        exec (.routerPacket n b1 b2 bad) s = .next (u.setArbiter (20 + p) ((s.arbiter (20 + p)).take k'))))

/-- ROUTER_PACKET delivering the orders of the management processor (R75, R76, R648, R965; files 07 and 09, the procedures of
channels, expanders and links): a cluster controller restarts with the launches that use it ended with 0x600, begins its test, or
keeps an order for its next step boundary; the dispatcher ends the launches that use a cluster and passes the reset on, or begins
to drain a device; its other orders wait for their own commands; a GDDR7 controller marks a draining channel, a CXL port takes up
adding or draining, a Silk port runs on half its lanes or stops its frames for a move.
What a restarted cluster keeps, and how orders and results travel, is the model's reading (log entries 61 and 84). -/
def Obligations.OrdersActWhereTheyArrive : Prop :=
  ∀ (s u : State) (n : Nat) (k : Pkt) (ks : List Pkt) (b1 b2 : BitVec 8) (bad w : BitVec 17) (o : Order), s.on = true →
    s.fifo n = k :: ks → itsTurn s n = true → (readRoute k b1 b2).isSome = true → k.payload = .order o → takenBy n = none →
    w = badWords b1 b2 bad → u = countBad (popFifo s n) n (badCount k w) →
    (∀ c v, fifoOwner n = some (.clu c, 8, v) →
      (∀ d r, o = .reset d r → ∃ t, exec (.routerPacket n b1 b2 bad) s = .next t ∧ t.mem = s.mem.poisonCluster c ∧
        t.mgmt.sanitised = false ∧ (∀ e, e ≠ c → t.cluster e = s.cluster e) ∧
        t.cluster c = {
          state := .out, mapGen := (s.cluster c).mapGen, fenced := (s.cluster c).fenced, spares := (s.cluster c).spares
          live := (s.cluster c).live, map := (s.cluster c).map, orders := (s.cluster c).orders.filter (· != .handover)
          newFw := (s.cluster c).newFw || (s.cluster c).orders.contains .handover
          follower := (s.cluster c).follower, poisonList := (s.cluster c).poisonList } ∧
        (∀ id ln, s.launch id = some ln → ln.uses c = true → ln.status = 0 → ∃ y, t.launch id = some y ∧ y.phase = .ended ∧
          y.status = 0x600) ∧
        t.fifo (recordPort c) = [reportPkt c (.result (.restarted c (t.cluster c).newFw r))]) ∧
      (∀ r, o = .test r → exec (.routerPacket n b1 b2 bad) s =
        .next (u.modCluster c (fun x => { x with testing := true, testReply := r }))) ∧
      ((∀ d r, o ≠ .reset d r) → (∀ r, o ≠ .test r) → exec (.routerPacket n b1 b2 bad) s =
        .next (u.modCluster c (fun x => { x with orders := x.orders ++ [o] })))) ∧
    (∀ v, fifoOwner n = some (.hub, 0, v) →
      (∀ c r, o = .reset c r → ∃ t x k', exec (.routerPacket n b1 b2 bad) s = .next t ∧
        t.fifo (hubPort 0 0) = s.fifo (hubPort 0 0) ++ x ++ [k'] ∧ k'.payload = .order (.reset c r) ∧ k'.destUnit = .controller ∧
        k'.destCluster = c ∧ (∀ id ln, s.launch id = some ln → ln.uses c = true → ln.status = 0 →
          ∃ y, t.launch id = some y ∧ y.phase = .ended ∧ y.status = 0x600)) ∧
      (∀ p base d, o = .removeDevice p base → deviceAt (s.cxlOf p).ranges p base = some d →
        exec (.routerPacket n b1 b2 bad) s = .next (sendResult (hubSource 0) (.draining 2 0) (startDrain d u))) ∧
      (((∃ die, o = .abort die) ∨ (∃ q ch, o = .retireChannel q ch) ∨ ∃ a va tier, o = .movePage a va tier) →
        exec (.routerPacket n b1 b2 bad) s = .next s)) ∧
    (∀ c q v ch, fifoOwner n = some (.clu c, 11, v) → q < 16 → gddrAttach q = c → o = .drainChannel ch →
      exec (.routerPacket n b1 b2 bad) s = .next (if (s.gdcOf q).retired.getLsbD ch then u else
        u.setGdc q { s.gdcOf q with draining := (s.gdcOf q).draining ||| BitVec.ofNat 4 (2 ^ ch) })) ∧
    (∀ d v, fifoOwner n = some (.hub, 2 + d, v) → d < 4 →
      (o = .addDevices → exec (.routerPacket n b1 b2 bad) s = .next (u.setCxl d { s.cxlOf d with adding := true })) ∧
      (o = .drainDevice → exec (.routerPacket n b1 b2 bad) s = .next (u.setCxl d { s.cxlOf d with
        state := if (s.cxlOf d).state = .active then .draining else (s.cxlOf d).state }))) ∧
    (∀ p v, fifoOwner n = some (.hub, 6 + p, v) → p < 12 →
      (∀ lane, o = .retrainLane lane → ∃ t, exec (.routerPacket n b1 b2 bad) s = .next t ∧
        ((s.portOf p).state = .up8 → t.silk.events.getLsbD 1 = true ∧ t.portOf p = { s.portOf p with
          state := if lane < 4 then .upHigh else .upLow, retrainLane := some lane }) ∧
        ((s.portOf p).state ≠ .up8 → t.portOf p = s.portOf p ∧ t.fifo (hubPort (6 + p) 0) = s.fifo (hubPort (6 + p) 0) ++
          [reportPkt (hubSource (6 + p)) (.result (.linkDone p false))])) ∧
      (∀ e, o = .moveLink e → exec (.routerPacket n b1 b2 bad) s = .next (u.setPort p { s.portOf p with
        state := .training, substituting := true, moveTo := e, downSince := some s.pace.cricket })))

/-- MCAST_PACKET_ACCEPT and REDUCTION_PARTIAL_ARRIVAL (R194, R475, R647, R651, R660, R663, R664, R1094, R1096): a multicast
packet enters all its branch buffers at once, or waits; a partial leaves its FIFO and acknowledgements set out to its sources; one
of the launch that runs on the cluster is combined into its tile, or into the foreign accumulator when it comes from another
cluster; one of another launch is dropped, a poisoned one ends the launch.
That a poisoned partial ends its launch is the model's reading (log entry 83). -/
def Obligations.MulticastsBranchAndPartialsCombine : Prop :=
  ∀ (s : State), s.on = true →
    (∀ n k ks node bs, s.fifo n = k :: ks → takenBy n = some node → itsTurn s n = true → k.typ = 5 → bs = branches s node k →
      (bs.all (mcastRoom s) = false → exec (.mcastPacketAccept n) s = .next s) ∧
      (admitsInput s n bs = false → exec (.mcastPacketAccept n) s = .next s) ∧
      (bs.all (mcastRoom s) = true → admitsInput s n bs = true → (∀ b ∈ bs, b.1 ≠ n ∧ b.1 < 255102) → ∃ t,
        exec (.mcastPacketAccept n) s = .next t ∧ t = { s with net := t.net, clusters := t.clusters } ∧ t.fifo n = ks ∧
        (∀ b ∈ bs, t.fifo b.1 = s.fifo b.1 ++ [b.2] ∧ mapFind t.net.served b.1 = some n) ∧
        (∀ m, m ≠ n → (∀ b ∈ bs, b.1 ≠ m) → (∀ c, m ≠ recordPort c) → t.fifo m = s.fifo m) ∧
        ∀ c, t.cluster c = s.cluster c)) ∧
    (∀ c k ks id, s.fifo (nodeFifo c) = k :: ks → itsTurn s (nodeFifo c) = true → (s.cluster c).launch = some id → c < 256 →
      ∃ t, exec (.reductionPartialArrival c) s = .next t ∧ t.fifo (nodeFifo c) = ks ∧ t.mem = s.mem ∧
        (∀ d, d ≠ c → t.cluster d = s.cluster d) ∧
        t.fifo (nodePort c 2) = s.fifo (nodePort c 2) ++
          (if k.last then k.targets.map (ackPkt k .node c k.destIndex) else []) ∧
        (id % 65536 ≠ k.launch → t.cluster c = s.cluster c ∧ t.disp = s.disp) ∧
        (id % 65536 = k.launch → k.bad = false → t.disp = s.disp ∧
          t.cluster c = { s.cluster c with node := (t.cluster c).node } ∧
          nodeTile (t.cluster c) k.destIndex = absorbPartial (nodeTile (s.cluster c) k.destIndex) (k.srcCluster != c) k ∧
          ∀ j, j ≠ k.destIndex → nodeTile (t.cluster c) j = nodeTile (s.cluster c) j) ∧
        (id % 65536 = k.launch → k.bad = true →
          t.cluster c = s.cluster c ∧ t.memc.poison = s.memc.poison.add 1 ∧
          ∀ ln, s.launch id = some ln → ln.phase = .running → ln.status = 0 →
            t.launch id = some { ln with phase := .ended, status := 0x301 }))

/-- GDDR7_BURST, GDDR7_REFRESH and CHANNEL_FAILED (R133, R135, R538 to R541, R544, R554): up to four retries of a burst are counted;
a fifth failure sets the event and poisons the data read or leaves the unit written uninitialised; a corrected error is counted
and the data is good; an uncorrectable one is counted, sets its event and poisons the burst; the request whose grant is next is
performed with the burst of its line; refresh takes the next bank and reports the heat; a failed channel sets its bit and its
event, and answers with poison.
CXL_LINK_DOWN, CXL_READ_RESPONSE, HOST_READ_COMPLETION and HOST_LINK_DOWN (R559, R560, R794, R867, R870): a lost CXL link sets its state
and its event; a response shows the bytes of the expander's memory, or poisons its lines, which is counted, and answers the read
whose grant is next; a completion of a device read shows host memory, or leaves the words poisoned with the read-error event; the
host link going down clears LINK_UP and sets its event.
Host and expander memory are views of what lies outside the device (log entry 9), and the outcome of a burst is an operand (log entry 16). -/
def Obligations.MemoryPortsAnswerOrFail : Prop :=
  (∀ (s : State) (q k : Nat), s.on = true → q < 16 → k < 4 → (s.gdcOf q).retired.getLsbD k = false →
      (∀ a n wr ecc, placeOf s a = .gddr q k → (s.gdcOf q).failed.getLsbD k = false → (s.arbiter q).pending = [] → ∃ t,
        exec (.gddr7Burst a wr n ecc) s = .next t ∧
        (t.gdcOf q).crc = (if n = 0 then (s.gdcOf q).crc else (s.gdcOf q).crc.add (min n 4)) ∧
        (5 ≤ n → (t.gdcOf q).events.getLsbD 0 = true) ∧
        (wr = false → n < 5 → ecc = 1 → (t.gdcOf q).ecc = (s.gdcOf q).ecc.add 1) ∧
        ((wr = true ∨ 5 ≤ n ∨ ecc ≠ 1) → (t.gdcOf q).ecc = (s.gdcOf q).ecc) ∧
        (wr = false → n < 5 → 2 ≤ ecc → (t.gdcOf q).poison = (s.gdcOf q).poison.add 1 ∧ (t.gdcOf q).events.getLsbD 1 = true) ∧
        ((wr = true ∨ 5 ≤ n ∨ ecc < 2) → (t.gdcOf q).poison = (s.gdcOf q).poison) ∧
        (inCtxTable a = false → t.ctxPoison = s.ctxPoison ∧ (5 ≤ n → gddrPoisoned t a = true) ∧
          (n < 5 → wr = true → t.mem = s.mem) ∧
          (n < 5 → wr = false → ecc < 2 → (a - Config.gddrBase) / 64 ∉ t.mem.gddrPoison) ∧
          (n < 5 → wr = false → 2 ≤ ecc → gddrPoisoned t a = true)) ∧
        (inCtxTable a = true → t.mem = s.mem ∧
          (5 ≤ n → wr = true → ∀ b, b / 64 = (a - Config.ctxTable) / 4096 → b ∈ t.ctxPoison) ∧
          (n < 5 → wr = true → t.ctxPoison = s.ctxPoison) ∧
          (wr = false → (5 ≤ n ∨ 2 ≤ ecc) → (a - Config.ctxTable) / 64 ∈ t.ctxPoison) ∧
          (wr = false → n < 5 → ecc < 2 → (a - Config.ctxTable) / 64 ∉ t.ctxPoison)) ∧
        (∀ j, j ≠ q → t.gdcOf j = s.gdcOf j) ∧ t.mem.bytes = s.mem.bytes ∧ t.mem.check = s.mem.check ∧ t.ctxs = s.ctxs) ∧
      (∀ a ecc c r data, placeOf s a = .gddr q k → (s.gdcOf q).failed.getLsbD k = false → (s.arbiter q).head = some (c, r) →
        r.pkt.typ ≠ 0 → lineAt r.pkt r.granted = a / 64 * 64 → r.pkt.payload = .bytes data → ∃ t,
        exec (.gddr7Burst a true 0 ecc) s = .next t ∧
        t.mem = (physWrite s (linePart r.pkt r.granted).1 ((data.drop ((linePart r.pkt r.granted).1 - r.pkt.addr)).take
          ((linePart r.pkt r.granted).2 - (linePart r.pkt r.granted).1))).mem ∧
        (r.granted + 1 < lineCount r.pkt →
          t.arbiter q = (s.arbiter q).granted q c (some { r with granted := r.granted + 1 }) ∧
          t.fifo (attPort q 2) = s.fifo (attPort q 2)) ∧
        (lineCount r.pkt ≤ r.granted + 1 → t.arbiter q = (s.arbiter q).granted q c none ∧
          t.fifo (attPort q 2) = s.fifo (attPort q 2) ++ (if r.pkt.last then
            [ackPkt r.pkt r.pkt.destUnit r.pkt.destCluster r.pkt.destIndex (64 * r.pkt.srcCluster + r.pkt.srcIndex)] else []))) ∧
      (∀ a n wr ecc, placeOf s a = .gddr q k → (s.gdcOf q).failed.getLsbD k = true → (s.arbiter q).pending = [] →
        gddrPoisoned s a = true ∧ exec (.gddr7Burst a wr n ecc) s = .next s) ∧
      (∀ temp, exec (.gddr7Refresh q k temp) s = .next (s.setGdc q { s.gdcOf q with
        refreshed := mapModify 0 (s.gdcOf q).refreshed k (· + 1), hot := decide (95 < temp) })) ∧
      (∃ t, exec (.channelFailed q k) s = .next t ∧ t = { s with gdc := t.gdc } ∧ (∀ j, j ≠ q → t.gdcOf j = s.gdcOf j) ∧
        t.gdcOf q = { s.gdcOf q with
          failed := (s.gdcOf q).failed ||| BitVec.ofNat 4 (2 ^ k), events := (s.gdcOf q).events ||| 8#32 } ∧
        ∀ a, placeOf t a = .gddr q k → gddrPoisoned t a = true)) ∧
  (∀ s : State, s.on = true →
      (∀ p, p < 4 → (s.cxlOf p).linked = true → ∃ t, exec (.cxlLinkDown p) s = .next t ∧
        ((s.arbiter (16 + p)).pending = [] → t = { s with cxlp := t.cxlp } ∧
          t.cxlOf p = { s.cxlOf p with state := .lost, events := (s.cxlOf p).events ||| 1#32 } ∧
          ∀ d, d ≠ p → t.cxlOf d = s.cxlOf d)) ∧
      (∀ p addr data a, p < 4 → (s.cxlOf p).linked = true → data ≠ [] → a = Config.cxlBase + p * 2 ^ 42 + addr →
        (∃ r ∈ (s.cxlOf p).ranges, r.1 ≤ addr ∧ addr + data.length ≤ r.1 + r.2.1) →
        (∀ poison, (s.arbiter (16 + p)).pending = [] → ∃ t,
          exec (.cxlReadResponse p addr data poison) s = .next t ∧ t.mem.bytes = s.mem.bytes ∧ t.mem.host = s.mem.host ∧
          (∀ i, i < data.length → mapFind t.mem.cxlShown ((a + i) / 64) = some poison) ∧
          (poison = false → (∀ i, i < data.length → mapFind t.mem.cxl (a + i) = data[i]?) ∧
            (∀ x, x < a ∨ a + data.length ≤ x → mapFind t.mem.cxl x = mapFind s.mem.cxl x) ∧ t = { s with mem := t.mem }) ∧
          (poison = true → t.mem.cxl = s.mem.cxl ∧ (t.cxlOf p).poison = (s.cxlOf p).poison.add 1 ∧
            (t.cxlOf p).events.getLsbD 3 = true)) ∧
        (∀ c r u, (s.arbiter (16 + p)).head = some (c, r) → (s.arbiter (16 + p)).pending = [c] →
          mapGet [] (s.arbiter (16 + p)).sources c = [r] → r.pkt.typ = 0 → lineAt r.pkt r.granted = a / 64 * 64 →
          lineCount r.pkt = r.granted + 1 → u = { s with mem := { s.mem with
            cxl := showBytes s.mem.cxl a data, cxlShown := (linesOf a data.length).foldl (fun m x => mapSet m x false) s.mem.cxlShown } } →
          ∃ t, exec (.cxlReadResponse p addr data false) s = .next t ∧ (t.arbiter (16 + p)).pending = [] ∧
          t.fifo (hubPort (2 + p) 2) = s.fifo (hubPort (2 + p) 2) ++
            replyPkts r.pkt (r.data ++ (performLine r.pkt r.granted u).2))) ∧
      (∀ addr data outcome, s.host = true → ∃ t, exec (.hostReadCompletion addr data outcome) s = .next t ∧
        (outcome = .ok → t = { s with mem := { s.mem with host := t.mem.host, hostPoison := t.mem.hostPoison } } ∧
          (∀ i, i < data.length → mapFind t.mem.host (addr + i) = data[i]? ∧ (addr + i) / 8 ∉ t.mem.hostPoison) ∧
          ∀ x, x < addr ∨ addr + data.length ≤ x → mapFind t.mem.host x = mapFind s.mem.host x) ∧
        (outcome ≠ .ok → t.mem.host = s.mem.host ∧ t.hostp.events = s.hostp.events ||| 16#32 ∧
          ∀ i, i < data.length → (addr + i) / 8 ∈ t.mem.hostPoison)) ∧
      (s.host = true → exec .hostLinkDown s = .next { s with hostp := { s.hostp with
        linkUp := false, width := 0, events := s.hostp.events ||| 1#32 } }))

/-! ## Silk (file 09) -/

/-- SILK_FRAME_RECEIVE (R702 to R706, R711, R712, R714): a frame whose CRC is wrong, or that is not the next one, is discarded; the
first counts and sets its event, and one NAK is sent until a frame is accepted; the next frame in order is accepted and
acknowledged; the ACK of a good frame frees the replay buffer and its credits are gained; the RESUME frame for which a port on
another engine waits makes it send its replay buffer again from the partner's ACK onward, or start afresh where the partner's
LINK_EPOCH has changed.
SILK_REPLAY_TIMEOUT (R706 to R709): when the oldest unacknowledged frame has waited 4 µs, its event is set, the retry is counted
and every frame of the replay buffer is sent again in order; the sixteenth replay without an advance of ACK sends the port
into training.
The IDLE frame that answers an accepted frame is the model's reading (log entry 64). -/
def Obligations.FramesAreAcceptedInOrderAndReplayed : Prop :=
  (∀ (s : State) (p : Nat) (f : Frame) (x : Port), s.board.power = .good → p < 12 → x = s.portOf p → x.up = true →
      (∀ y, f.crc ≠ frameCrc f → (y = (if f.idle || x.nakSent then ([] : List Output) else
          [.frame p (({ x with crc := x.crc.add 1, events := x.events ||| 1#32, nakSent := true } : Port).frame [] true true false)]) →
        ∃ t, exec (.silkFrameReceive p f) s = .next t ∧ t.out = s.out ++ y ∧ (t.portOf p).crc = x.crc.add 1 ∧
          (t.portOf p).events.getLsbD 0 = true ∧ (t.portOf p).rxSeq = x.rxSeq ∧ (t.portOf p).replay = x.replay ∧
          (t.portOf p).credits = x.credits ∧ (f.idle = false → (t.portOf p).nakSent = true) ∧
          (∀ q, q ≠ p → t.portOf q = s.portOf q) ∧ t.mem = s.mem)) ∧
      (f.crc = frameCrc f → (x.resuming && f.resume) = false → f.idle = false → f.seq ≠ x.rxSeq → ∃ t, exec (.silkFrameReceive p f) s = .next t ∧
        (t.portOf p).rxSeq = x.rxSeq ∧ (t.portOf p).replay = x.replay ∧ (t.portOf p).credits = x.credits ∧
        (t.portOf p).nakSent = true ∧ (x.nakSent = true → t.out = s.out) ∧
        (x.nakSent = false → ∃ g, t.out = s.out ++ [.frame p g] ∧ g.nak = true ∧ g.idle = true ∧ g.ack = x.rxSeq)) ∧
      (f.crc = frameCrc f → (x.resuming && f.resume) = false → f.idle = false → f.seq = x.rxSeq → ∃ t g rest,
        exec (.silkFrameReceive p f) s = .next t ∧
        (t.portOf p).rxSeq = x.rxSeq + 1 ∧ (t.portOf p).nakSent = false ∧
        t.out = s.out ++ .frame p g :: rest ∧ g.idle = true ∧ g.nak = false ∧ g.ack = x.rxSeq + 1 ∧
        (f.nak = false → x.queue = [] → (s.arbiter (20 + p)).pending = [] → rest = [] ∧ (t.portOf p).replay = (x.acked f.ack).replay ∧
          (t.portOf p).credits = modifyAt x.credits f.creditVc (fun n => min (n + f.creditN) 68)) ∧ t.mem = s.mem) ∧
      (f.crc = frameCrc f → (x.resuming && f.resume) = false → f.idle = true → ∃ t, exec (.silkFrameReceive p f) s = .next t ∧
        (t.portOf p).rxSeq = x.rxSeq ∧
        (f.nak = false → x.queue = [] → (s.arbiter (20 + p)).pending = [] → t.out = s.out ∧ (t.portOf p).replay = (x.acked f.ack).replay ∧
          (t.portOf p).credits = modifyAt x.credits f.creditVc (fun n => min (n + f.creditN) 68))) ∧
      (f.crc = frameCrc f → x.resuming = true → f.resume = true → f.idle = true → f.nak = false → ∃ t tail,
        exec (.silkFrameReceive p f) s = .next t ∧ (t.portOf p).resuming = false ∧ t.mem = s.mem ∧
        (x.partnerEpoch = some f.epoch → (t.portOf p).rxSeq = x.rxSeq ∧ (t.portOf p).epoch = x.epoch ∧
          t.out = s.out ++ (x.acked f.ack).replay.map (fun e => .frame p e.2) ++ tail) ∧
        (x.partnerEpoch ≠ some f.epoch → (t.portOf p).rxSeq = 0 ∧ (t.portOf p).partnerEpoch = some f.epoch))) ∧
  (∀ (s : State) (p : Nat) (x : Port) (e : Nat × Frame) (es : List (Nat × Frame)), s.board.power = .good → p < 12 →
      x = s.portOf p → x.up = true → x.resuming = false → x.replay = e :: es →
      (s.pace.cricket < e.1 + 4000 → exec (.silkReplayTimeout p) s = .next s) ∧
      (e.1 + 4000 ≤ s.pace.cricket → ∃ t, exec (.silkReplayTimeout p) s = .next t ∧
        t.out = s.out ++ (e :: es).map (fun f => .frame p f.2) ∧ (t.portOf p).retries = x.retries.add 1 ∧
        (t.portOf p).events.getLsbD 1 = true ∧ (t.portOf p).replay = (e :: es).map (fun f => (s.pace.cricket, f.2)) ∧
        (t.portOf p).txSeq = x.txSeq ∧ (t.portOf p).rxSeq = x.rxSeq ∧
        (x.replays + 1 < 16 → (t.portOf p).state = x.state ∧ (t.portOf p).replays = x.replays + 1) ∧
        (16 ≤ x.replays + 1 → (t.portOf p).state = .training ∧ (t.portOf p).downSince = some s.pace.cricket ∧
          (t.portOf p).events.getLsbD 2 = true) ∧ (∀ q, q ≠ p → t.portOf q = s.portOf q) ∧ t.mem = s.mem))

/-- SILK_TRAINING_DONE and SILK_PORT_DOWN_TIMEOUT (R711 to R713, R742, R743): a port trained with the partner it knew resumes with its
sequence numbers and sends its replay buffer again; otherwise it starts afresh; peers routed over it are no longer lost. A port
that has been out of the up state for 10 ms goes down, its saved state is gone, its events are set, and a peer that no other
port reaches is lost.
LANE_RETRAIN_DONE, OE17_SUBSTITUTION_DONE and HOST_LINK_MOVE_DONE (R745 to R747, R944, R1061): a retrained port is up on eight
lanes, a substituted link is up on the engine it moved to and sends a RESUME frame, or the port is as it was, or down; the port reports that the operation
has ended, and with the report the management processor's link operation ends as done or failed; the host link is on its new
engine, or stays, or goes down.
A new LINK_EPOCH is a free value (log entry 6); that the state a port saved is gone when it goes down is the model's reading (log
entry 92). -/
def Obligations.PortsTrainGoDownAndAreMaintained : Prop :=
  (∀ (s : State) (p : Nat) (x : Port), s.board.power = .good → p < 12 → x = s.portOf p → x.up = false →
      (∀ lanes epoch ack partner, x.substituting = false → s.board.laserOk.getLsbD x.engine = true → ∃ t g rest,
        exec (.silkTrainingDone p lanes epoch ack partner) s = .next t ∧ (t.portOf p).state = laneState lanes ∧
        (t.portOf p).partner = partner.getD 0 ∧ (t.portOf p).partnerDev = partner.isSome ∧ (t.portOf p).downSince = none ∧
        (t.portOf p).partnerEpoch = some epoch ∧ t.out = s.out ++ .frame p g :: rest ∧ g.idle = true ∧ g.resume = true ∧
        (∀ n ∈ s.silk.lost, (mapGet 0#12 s.silk.routes n).getLsbD p = true → s.silk.routeNext = [] → n ∉ t.silk.lost) ∧
        (x.partnerEpoch = some epoch → (t.portOf p).rxSeq = x.rxSeq ∧ g.ack = x.rxSeq ∧ (t.portOf p).epoch = x.epoch ∧
          ∃ tail, rest = (x.acked ack).replay.map (fun f => .frame p f.2) ++ tail) ∧
        (x.partnerEpoch ≠ some epoch → (t.portOf p).rxSeq = 0 ∧ g.seq = 0 ∧ g.ack = 0 ∧
          (x.partnerEpoch.isSome = true → (t.portOf p).epoch = x.epoch))) ∧
      (x.overdue s.pace.cricket = true → ∃ t, exec (.silkPortDownTimeout p) s = .next t ∧ (t.portOf p).state = .down ∧
        (t.portOf p).partnerEpoch = none ∧ (t.portOf p).downSince = none ∧ (t.portOf p).events.getLsbD 3 = true ∧
        t.silk.events.getLsbD 0 = true ∧
        ((∀ y ∈ s.silk.txns, y.port ≠ p) → ∀ e ∈ s.silk.routes, e.2.getLsbD p = true →
          (∀ q, q < 12 → q ≠ p → e.2.getLsbD q = true → (s.portOf q).state = .down) → e.1 ∈ t.silk.lost)) ∧
      (x.overdue s.pace.cricket = false → exec (.silkPortDownTimeout p) s = .next s)) ∧
  (∀ s : State, s.board.power = .good →
      (∀ p ok x, p < 12 → x = s.portOf p → x.retrainLane.isSome = true → x.up = true → ∃ t, exec (.laneRetrainDone p ok) s = .next t ∧
        t.portOf p = { x with state := if ok then .up8 else x.state, retrainLane := none } ∧ t.silk.events.getLsbD 1 = true ∧
        (∀ q, q ≠ p → t.portOf q = s.portOf q) ∧ Reported s t (hubSource (6 + p)) [.result (.linkDone p ok)] ∧
        t = { s with silk := t.silk, net := { s.net with fifos := t.net.fifos } }) ∧
      (∀ p x, p < 12 → x = s.portOf p → x.substituting = true → s.board.laserOk.getLsbD x.moveTo = true → ∃ t,
        exec (.oe17SubstitutionDone p true) s = .next t ∧ (t.portOf p).engine = x.moveTo ∧ (t.portOf p).state = .up8 ∧
        (t.portOf p).substituting = false ∧ (t.portOf p).resuming = true ∧ (t.portOf p).downSince = none ∧
        (∃ g, t.out = s.out ++ [.frame p g] ∧ g.idle = true ∧ g.resume = true ∧ g.ack = x.rxSeq) ∧
        (x.moveTo = 17 → t.silk.events.getLsbD 2 = true) ∧
        t.fifo (recordPort (hubSource (6 + p))) = s.fifo (recordPort (hubSource (6 + p))) ++
          [reportPkt (hubSource (6 + p)) (.result (.linkDone p true))] ∧ t.mgmt = s.mgmt ∧ t.mem = s.mem) ∧
      (∀ p x, p < 12 → x = s.portOf p → x.substituting = true → x.overdue s.pace.cricket = true → ∃ t o,
        exec (.oe17SubstitutionDone p false) s = .next t ∧ (t.portOf p).state = .down ∧ (t.portOf p).engine = p ∧
        (t.portOf p).substituting = false ∧ t.mgmt = s.mgmt ∧
        t.fifo (recordPort (hubSource (6 + p))) = s.fifo (recordPort (hubSource (6 + p))) ++
          reportPkt (hubSource (6 + p)) (.result (.linkDone p false)) :: o) ∧
      (∀ k ks p ok, s.fifo (fifoNum .hub 1 0) = k :: ks → k.payload = .result (.linkDone p ok) → ∃ t,
        exec .eventRecord s = .next t ∧ t = { s with mgmt := t.mgmt, net := { s.net with fifos := t.net.fifos } } ∧
        (((∃ lane, s.mgmt.link = some (.retrainLane p lane)) ∨ s.mgmt.link = some (.takeover p) ∨
            (s.mgmt.link = some .handback ∧ s.mgmt.oe17 = some p)) →
          t.mgmt.link = none ∧ (t.op 4).state = if ok then 2 else 3) ∧
        (s.mgmt.link = some (.takeover p) → t.mgmt.oe17 = if ok then s.mgmt.oe17 else none) ∧
        (s.mgmt.link = some .handback → s.mgmt.oe17 = some p → t.mgmt.oe17 = none)) ∧
      (∀ e ok recovered, s.hostp.moving = some e → ∃ t, exec (.hostLinkMoveDone ok recovered) s = .next t ∧
        t.hostp.moving = none ∧ t.mgmt.link = none ∧
        (ok = true → recovered = true → t.hostp.engine = e ∧ t.hostp.events.getLsbD 1 = true ∧ t.hostp.linkUp = s.hostp.linkUp ∧
          (t.op 4).state = 2) ∧
        (ok = true → recovered = false → t.hostp.engine = s.hostp.engine ∧ t.hostp.linkUp = false ∧
          t.hostp.events.getLsbD 0 = true ∧ (t.op 4).state = 3) ∧
        (ok = false → t.hostp = { s.hostp with moving := none } ∧ (t.op 4).state = 3)))

/-- SILK_READ_REQUEST, SILK_WRITE and SILK_ATOMIC (R722 to R731): what the windows allow is performed on the device's memory and
answered with its data, the old value of the word, or an acknowledgement; what they refuse is counted and answered with
STATUS 1 and changes no memory.
Refusing malformed requests is the model's reading (log entry 66). -/
def Obligations.PeerRequestsPassTheIngress : Prop :=
  ∀ (s u : State) (src tag addr : Nat), s.ingress = true → u = peerBack src s →
    (∀ n, (∀ ts, readShape addr n = true → ingressAllows u (addr % 2 ^ 52) n false = true →
        physRead u (addr % 2 ^ 52) n = some ts → ∃ (t : State) (ps : List SilkPkt), exec (.silkReadRequest src tag addr n) s = .next t ∧
        t.mem = { s.mem with badWords := t.mem.badWords } ∧ t.silk.rejects = s.silk.rejects ∧ ps.flatMap (·.payload) = plain ts ∧
        (∀ k ∈ ps, k.typ = 2 ∧ k.vc = 2 ∧ k.status = 0 ∧ k.tag = tag ∧ k.dest = src ∧ k.payload.length ≤ 1024) ∧
        t = ps.foldl (fun v k => sendTo src k v) (noteDelivered (addr % 2 ^ 52) n u)) ∧
      ((readShape addr n && ingressAllows u (addr % 2 ^ 52) n false) = false → ∃ t, exec (.silkReadRequest src tag addr n) s = .next t ∧
        t.mem = s.mem ∧ t.silk.rejects = s.silk.rejects.add 1)) ∧
    (∀ data last, (data ≠ [] → data.length ≤ 1024 → ingressAllows u (addr % 2 ^ 52) data.length true = true → ∃ t,
        exec (.silkWrite src tag addr data last) s = .next t ∧ t.mem = (physWrite u (addr % 2 ^ 52) (untagged data)).mem ∧
        t.silk.rejects = s.silk.rejects) ∧
      ((!data.isEmpty && data.length ≤ 1024 && ingressAllows u (addr % 2 ^ 52) data.length true) = false → ∃ t,
        exec (.silkWrite src tag addr data last) s = .next t ∧ t.mem = s.mem ∧ t.silk.rejects = s.silk.rejects.add 1)) ∧
    (∀ kind a b, (kind < 8 → addr % 8 = 0 → ingressAllows u (addr % 2 ^ 52) 8 true = true →
        ∀ v poison, atomicRead u (addr % 2 ^ 52) = (v, poison) → ∃ t, exec (.silkAtomic src tag kind addr a b) s = .next t ∧
        (poison = true → t.mem = { s.mem with badWords := t.mem.badWords }) ∧
        (poison = false → t.mem = (physWrite u (addr % 2 ^ 52) (untagged (leBytes 8 (match kind with
          | 0 => v + a
          | 1 => a
          | 2 => if v = a then b else v
          | 3 => v &&& a
          | 4 => v ||| a
          | 5 => v ^^^ a
          | 6 => if v.toNat < a.toNat then a else v
          | _ => if a.toNat < v.toNat then a else v).toNat))).mem)) ∧
      ((decide (kind < 8) && decide (addr % 8 = 0) && ingressAllows u (addr % 2 ^ 52) 8 true) = false → ∃ t,
        exec (.silkAtomic src tag kind addr a b) s = .next t ∧ t.mem = s.mem ∧ t.silk.rejects = s.silk.rejects.add 1))

/-- SILK_RESPONSE and SILK_TRANSACTION_TIMEOUT (R583, R731, R738 to R744): a response to no outstanding transaction is counted as late;
read data of a Stream engine goes on to its core through the on-chip network, and so does the acknowledgement of its last write
packet; the last packet ends the transaction; a refusal ends the launch with 0x300; a transaction that fails as lost, or times
out, abandons the step of a read and ends the launch of a write or of the barrier with 0x400.
Peer memory is a view of what lies outside the device (log entry 9), and timeouts start again with the end of a lost state (log entry 60). -/
def Obligations.TransactionsEndByResponseOrTimeout : Prop :=
  ∀ (s : State) (src tag : Nat), s.on = true →
    (∀ st data m last, s.ingress = true → txnOf s src tag = none → ∃ t, exec (.silkResponse src tag st data m last) s = .next t ∧
      t.silk.late = s.silk.late.add 1 ∧ t.silk.txns = s.silk.txns ∧ t.mem = s.mem ∧ t.disp = s.disp) ∧
    (∀ x ln data m last, s.ingress = true → txnOf s src tag = some x → s.launch x.launch = some ln → ln.phase = .running →
      ln.status = 0 → ∃ t y, exec (.silkResponse src tag 1 data m last) s = .next t ∧ t.silk.events.getLsbD 4 = true ∧
        t.launch x.launch = some y ∧ y.phase = .ended ∧ y.status = 0x300 ∧ t.mem = s.mem) ∧
    (∀ x data m last c l, s.ingress = true → txnOf s src tag = some x → x.issuer = .stream c l → waitingCores s = [] →
      (x.kind = .read → ∃ t, exec (.silkResponse src tag 0 data m last) s = .next t ∧
        t.fifo (hubPort (6 + x.port) 2) = s.fifo (hubPort (6 + x.port) 2) ++
          [replyFrom x c l 2 (x.base + x.done) (mapTagged data m) last] ∧
        (∀ n, n ≠ hubPort (6 + x.port) 2 → t.fifo n = s.fifo n) ∧
        (∀ i, i < data.length → mapFind t.mem.peer (x.base + x.done + i) = data[i]?) ∧
        t.mem = { s.mem with peer := t.mem.peer, peerPoison := t.mem.peerPoison } ∧ t.disp = s.disp ∧ t.clusters = s.clusters ∧
        t.silk.txns = if last then s.silk.txns.filter (fun y => y.tag != x.tag) else s.silk.txns.map (fun y =>
          if y.tag = x.tag then { y with done := y.done + data.length } else y)) ∧
      (x.kind = .write → ∃ t, exec (.silkResponse src tag 0 data m true) s = .next t ∧
        t.fifo (hubPort (6 + x.port) 2) = s.fifo (hubPort (6 + x.port) 2) ++ [replyFrom x c l 3 x.addr [] true] ∧
        (∀ i, i < x.data.length → mapFind t.mem.peer (x.addr + i) = x.data[i]?) ∧
        t.silk.txns = s.silk.txns.filter (fun y => y.tag != x.tag) ∧ t.disp = s.disp ∧ t.clusters = s.clusters)) ∧
    (∀ x, s.silk.txns.find? (fun x => x.tag = tag) = some x →
      (s.pace.cricket < x.issued + timeoutTicks s → exec (.silkTransactionTimeout tag) s = .next s) ∧
      (x.issued + timeoutTicks s ≤ s.pace.cricket → ∃ t, exec (.silkTransactionTimeout tag) s = .next t ∧ t.mem = s.mem ∧
        (3 ≤ mapGet 0 s.silk.strikes x.device + 1 → x.device ∈ t.silk.lost) ∧
        mapGet 0 t.silk.strikes x.device = mapGet 0 s.silk.strikes x.device + 1 ∧
        (waitingCores s = [] → t.silk.txns = s.silk.txns.filter (fun y => y.tag != x.tag)) ∧
        (∀ c l, x.kind = .read → x.issuer = .stream c l → (s.cluster c).launch = some x.launch → ∃ a,
          (t.cluster c).abandon = some a ∧ a.lost = true) ∧
        (∀ ln, (x.issuer = .barrier ∨ x.kind ≠ .read ∧ x.issuer ≠ .unit) → s.launch x.launch = some ln → ln.phase = .running →
          ln.status = 0 → ∃ y, t.launch x.launch = some y ∧ y.phase = .ended ∧ y.status = 0x400)))

/-- TIME_REQUEST_SEND, TIME_REQUEST, TIME_RESPONSE, TIME_MEASUREMENT_TIMEOUT and DEFERRED_CRICKET_CORRECTION (R749 to R755, R774): a
follower asks its master; four stamps give OFFSET; beyond 2 ticks Cricket is held or stepped by the offset; beyond 8 it waits
while a launch fixes the time, and LOCKED is cleared; LOCKED is set within 4 ticks; the third measurement missed in succession
clears it.
The KIND codes of the packets are the model's (log entry 32). -/
def Obligations.FollowersCorrectTheirCricket : Prop :=
  ∀ s : State, s.board.power = .good → s.silk.device.isSome = true →
    (s.silk.role = 2 → s.silk.sync.asked = none → s.silk.sync.lastAt + 1000000 ≤ s.pace.cricket → ∃ t,
      exec .timeRequestSend s = .next t ∧ t.silk.sync.asked = some (BitVec.ofNat 64 s.pace.cricket) ∧
      t.silk.sync.lastAt = s.pace.cricket ∧ t.pace = s.pace ∧ t.mem = s.mem) ∧
    (∀ src t1 t2, s.silk.role = 1 → exec (.timeRequest src t1 t2) s = .next (sendControl src 2 0
      (leBytes 8 t1.toNat ++ leBytes 8 t2.toNat ++ leBytes 8 s.pace.cricket) (peerBack src s))) ∧
    (∀ t1 t2 t3 t4 th, s.silk.role = 2 → s.silk.sync.asked = some t1 →
      th = (((t4 - t3) - (t2 - t1)).sshiftRight 1).toInt → ∃ t, exec (.timeResponse t1 t2 t3 t4) s = .next t ∧
        t.silk.sync.asked = none ∧ t.silk.sync.missed = 0 ∧
        t.silk.offset = BitVec.ofInt 16 (max (-32768) (min th 32767)) ∧
        (-2 ≤ th → th ≤ 2 → t.pace = s.pace ∧ t.silk.locked = true) ∧
        (2 < th → (th ≤ 8 ∨ s.timedLaunch = false) → t.pace = { s.pace with hold := s.pace.hold + th.toNat }) ∧
        (th < -2 → (-8 ≤ th ∨ s.timedLaunch = false) →
          t.pace = { s.pace with cricket := (s.pace.cricket + (-th).toNat) % 2 ^ 64 }) ∧
        ((th < -4 ∨ 4 < th) → t.silk.locked = false) ∧
        ((th < -8 ∨ 8 < th) → s.timedLaunch = true →
          t.pace = s.pace ∧ t.silk.sync.deferred = some th ∧ t.silk.events.getLsbD 5 = true)) ∧
    (∀ t1, s.silk.role = 2 → s.silk.sync.asked = some t1 → t1.toNat + 100000 ≤ s.pace.cricket → ∃ t,
      exec .timeMeasurementTimeout s = .next t ∧ t.silk.sync.asked = none ∧ t.silk.sync.missed = s.silk.sync.missed + 1 ∧
      (3 ≤ s.silk.sync.missed + 1 → t.silk.locked = false ∧ t.silk.events.getLsbD 5 = true) ∧
      (s.silk.sync.missed + 1 < 3 → t.silk.locked = s.silk.locked ∧ t.silk.events = s.silk.events) ∧ t.pace = s.pace) ∧
    (∀ th, s.silk.role = 2 → s.silk.sync.deferred = some th →
      (s.timedLaunch = true → exec .deferredCricketCorrection s = .next s) ∧
      (s.timedLaunch = false → ∃ t, exec .deferredCricketCorrection s = .next t ∧ t.silk.sync.deferred = none ∧
        (2 < th → t.pace.hold = s.pace.hold + th.toNat ∧ t.pace.cricket = s.pace.cricket) ∧
        (th < -2 → t.pace.cricket = (s.pace.cricket + (-th).toNat) % 2 ^ 64 ∧ t.pace.hold = s.pace.hold)))

/-- BARRIER_POLL, BARRIER_TIMEOUT, DIGEST_PACKET and DIGEST_TIMEOUT (R756 to R763, R767 to R770): the start barrier asks for the word of its stage
in the record, over Silk or in the device's own memory; past TIMEOUT_US from the start the launch ends with 0x400. A digest of
the partner is compared with the own one of its SEQ: an equal one counts, another sets MISMATCH and ends the launch with 0x403;
a digest not answered in TIMEOUT_US ends it with 0x400. -/
def Obligations.BarriersPollAndPairsCompare : Prop :=
  ∀ (s : State) (id : Nat) (ln : Launch) (g : Group), s.board.power = .good → s.launch id = some ln → ln.group = some g →
    ln.status = 0 →
    (∀ dev, barrierDue s ln g = true → dev = (barrierTxn ln g).device → s.silk.device ≠ some dev →
      (∀ u, issueTxn (barrierTxn ln g) s = some u → ∃ t, exec (.barrierPoll id) s = .next t ∧
        t.launch id = some { ln with group := some { g with asked := true } } ∧ t.silk = u.silk ∧ t.mem = s.mem) ∧
      (issueTxn (barrierTxn ln g) s = none → ∃ t, exec (.barrierPoll id) s = .next t ∧
        t.launch id = some { ln with phase := .ended, status := 0x400 } ∧ t.silk = s.silk)) ∧
    (barrierDue s ln g = true → s.silk.device = some (barrierTxn ln g).device →
      exec (.barrierPoll id) s = .next (barrierLocal ln.id (barrierTxn ln g) s)) ∧
    (barrierDue s ln g = false → exec (.barrierPoll id) s = .next s) ∧
    (ln.phase = .running → g.barrierDone = false →
      (ln.startAt + 1000 * g.timeoutUs ≤ s.pace.cricket → ∃ t, exec (.barrierTimeout id) s = .next t ∧
        t.launch id = some { ln with phase := .ended, status := 0x400 } ∧
        t = { s with disp := { s.disp with launches := t.disp.launches } }) ∧
      (s.pace.cricket < ln.startAt + 1000 * g.timeoutUs → exec (.barrierTimeout id) s = .next s)) ∧
    (∀ tag seq sweep digest own, s.silk.device.isSome = true → s.silk.pairEnable = true → pairLaunch s tag = some ln →
      ln.phase = .running → g.received = [] → g.sent = [(seq.toNat, own)] → ∃ t y,
      exec (.digestPacket s.silk.pairPartner tag seq sweep digest) s = .next t ∧ t.launch id = some y ∧
      t.silk.pairCompared = s.silk.pairCompared + 1 ∧ y.group = some { g with sent := [], received := [] } ∧
      (digest = own → y.phase = .running ∧ y.status = 0 ∧ t.silk.pairMismatch = s.silk.pairMismatch) ∧
      (digest ≠ own → y.phase = .ended ∧ y.status = 0x403 ∧ t.silk.pairMismatch = true ∧ t.silk.events.getLsbD 6 = true ∧
        Reported s t (hubSource 0) [eventOf 12 (hubSource 0) 0 s.silk.pairPartner])) ∧
    (g.sent ≠ [] → ln.phase = .running → g.sentAt + 1000 * g.timeoutUs ≤ s.pace.cricket → ∃ t y,
      exec (.digestTimeout id) s = .next t ∧ t.launch id = some y ∧ y.phase = .ended ∧ y.status = 0x400 ∧
      t = { s with disp := { s.disp with launches := t.disp.launches } })

/-! ## The entropy source (file 13) -/

/-- ENTROPY_SAMPLE and HEALTH_WINDOW_END (R979 to R993, R1002): a sample enters the window's sums and the conditioner, which yields
a block after every 64th; a window that passes is counted, releases its blocks to the pool of at most four, and the second one
instantiates the DRBG; the first window that fails puts the source in FAULT with the test and the unit, and its requests end.
GENERATE_REQUEST and GENERATE_DELIVER (R994 to R1000): a request joins the queue while the source is ready; the first one is served
by the DRBG, which advances and is counted, after a reseed from the two oldest blocks of the pool when 2^20 requests have
passed; without two blocks it waits with its event set; the bits reach the run, the cores, or the management processor.
The conditioner and the DRBG stand in published standards (log entry 13). -/
def Obligations.TheEntropySourceSamplesAndServes : Prop :=
  (∀ s : State, s.board.power = .good →
      (∀ counts ds, s.ent.acc.samples < 1024 → ds = (List.range 32).map (pairDelta counts) →
        (s.pace.timeBase < 65536 * s.ent.window + 64 * (s.ent.acc.samples + 1) → exec (.entropySample counts) s = .next s) ∧
        (65536 * s.ent.window + 64 * (s.ent.acc.samples + 1) ≤ s.pace.timeBase → ∃ t, exec (.entropySample counts) s = .next t ∧
          t = { s with ent := { s.ent with cond := absorb s.ent.cond (rawWord ds), acc := t.ent.acc, blocks := t.ent.blocks } } ∧
          t.ent.acc.samples = s.ent.acc.samples + 1 ∧
          (∀ i, i < 64 → t.ent.acc.cycles[i]? = some ((s.ent.acc.cycles[i]?).getD 0 + (counts[i]?).getD 0)) ∧
          (∀ j, j < 32 → t.ent.acc.sumD[j]? = some ((s.ent.acc.sumD[j]?).getD 0 + pairDelta counts j)) ∧
          t.ent.blocks = s.ent.blocks ++ (if (s.ent.acc.samples + 1) % 64 = 0 then [absorb s.ent.cond (rawWord ds)] else []))) ∧
      (s.ent.acc.samples = 1024 → s.ent.acc.failure = none → ∃ t, exec .healthWindowEnd s = .next t ∧
        t.ent.windows = s.ent.windows.add 1 ∧ t.ent.window = s.ent.window + 1 ∧ t.ent.osc = s.ent.acc.cycles ∧
        t.ent.pair = (List.range 32).map s.ent.acc.spread ∧ t.ent.acc = {} ∧ t.ent.blocks = [] ∧
        ((s.ent.state = .notReady ∧ s.ent.window = 1) → t.ent.state = .ready ∧ t.ent.drbg.isSome = true ∧
          t.ent.events.getLsbD 0 = true ∧ t.ent.since = 0) ∧
        (¬(s.ent.state = .notReady ∧ s.ent.window = 1) → t.ent.state = s.ent.state ∧ t.ent.drbg = s.ent.drbg ∧
          t.ent.pool = (s.ent.pool ++ s.ent.blocks).drop ((s.ent.pool ++ s.ent.blocks).length - 4))) ∧
      (∀ test unit, s.ent.acc.samples = 1024 → s.ent.acc.failure = some (test, unit) → ∃ t, exec .healthWindowEnd s = .next t ∧
        t.ent.window = s.ent.window + 1 ∧ t.ent.acc = {} ∧
        (s.ent.state ≠ .fault → t.ent.state = .fault ∧ t.ent.test = test ∧ t.ent.unit = unit ∧
          t.ent.startup = decide (s.ent.window < 2) ∧ t.ent.drbg = none ∧ t.ent.queue = [] ∧ t.ent.waiting = [] ∧
          t.ent.events.getLsbD 1 = true ∧ t.mem = s.mem) ∧
        (s.ent.state = .fault → t.ent.state = .fault ∧ t.ent.test = s.ent.test ∧ t.ent.unit = s.ent.unit ∧ t.disp = s.disp))) ∧
  (∀ s : State, s.board.power = .good →
      (∀ n, 1 ≤ n → n ≤ 512 → queuedBy true (s.ent.queue ++ s.ent.waiting) < 32 →
        (s.ent.state = .ready → ∃ t, exec (.generateRequest 1 n) s = .next t ∧
          t = { s with ent := { s.ent with queue := t.ent.queue, waiting := t.ent.waiting } } ∧
          (⟨.management, n⟩ ∈ t.ent.queue ∨ ⟨.management, n⟩ ∈ t.ent.waiting)) ∧
        (s.ent.state ≠ .ready → exec (.generateRequest 1 n) s = .next s)) ∧
      (∀ r rest d, s.ent.queue = r :: rest → s.ent.drbg = some d → s.ent.state = .ready → deliveryWaits s r.who = false →
        (s.ent.since < 2 ^ 20 → ∃ t, exec .generateDeliver s = .next t ∧
          t.ent.drbg = some (drbgGenerate d (ceilDiv r.bits 8)).2 ∧ t.ent.since = s.ent.since + 1 ∧
          t.ent.requests = s.ent.requests.add 1 ∧ t.ent.reseeds = s.ent.reseeds ∧ t.ent.pool = s.ent.pool ∧
          (r.who = .management → t.mem = s.mem ∧ t.clusters = s.clusters ∧ t.runs = s.runs) ∧
          (∀ c ln o, r.who = .entropyOp c → s.runningOn c = some ln → (s.cluster c).op = some o → (s.cluster c).entropyWait = true →
            o.opcode = 4 → ln.phase = .running → ∃ u : State, u.cluster c = { s.cluster c with entropyWait := false } ∧
              (∀ e, e ≠ c → u.cluster e = s.cluster e) ∧ u.mem = s.mem ∧ u.memc = s.memc ∧ u.gdc = s.gdc ∧ u.cxlp = s.cxlp ∧
              u.fuses = s.fuses ∧ t = advance c (o.coreList.foldl (fun v l =>
                writeRows v c l (s.desc c o.d) (drbgGenerate d (ceilDiv r.bits 8)).1) u)) ∧
          (∀ n x, r.who = .runSeed n → s.run n = some x → x.seedWait = true →
            (s.launch x.launch).map (·.phase) = some .running → ∃ u : State, u = { s with ent := u.ent, net := { s.net with fifos := u.net.fifos } } ∧
              ∀ v w, writeVa x.cluster u x.asid x.descVa (drbgGenerate d (ceilDiv r.bits 8)).1 = .ok v →
                beginRun n { x with seed := leNat (drbgGenerate d (ceilDiv r.bits 8)).1 } v = .ok w → t = w)) ∧
        (2 ^ 20 ≤ s.ent.since → s.ent.pool.length < 2 → ∃ t, exec .generateDeliver s = .next t ∧ t = { s with ent := t.ent } ∧
          t.ent.reseedWait = true ∧ t.ent.queue = s.ent.queue ∧ t.ent.drbg = s.ent.drbg ∧
          (s.ent.reseedWait = false → t.ent.events.getLsbD 2 = true)) ∧
        (2 ^ 20 ≤ s.ent.since → 2 ≤ s.ent.pool.length → ∃ t, exec .generateDeliver s = .next t ∧ t.ent.since = 1 ∧
          t.ent.reseeds = s.ent.reseeds.add 1 ∧ t.ent.requests = s.ent.requests.add 1 ∧ t.ent.pool = s.ent.pool.drop 2 ∧
          t.ent.drbg = some (drbgGenerate (drbgReseed d (((s.ent.pool.take 2).flatMap blockBytes).take 48)) (ceilDiv r.bits 8)).2)))

/-! ## The whole block -/

/-- A step takes the command at the front of the queue and is that command's effect with the rest of the queue; on an empty queue
one Cricket tick passes (R53, R751; the tick there is the model's choice, log entry 2). -/
def Obligations.StepRunsTheFrontCommand : Prop :=
  (∀ (s : State) (i : Instr) (rest : List Instr), s.pending = i :: rest → step s = exec i { s with pending := rest }) ∧
  (∀ s : State, s.pending = [] → s.board.power = .good → ∃ t, step s = .next t ∧ t = { s with pace := t.pace } ∧
    t.pace.timeBase = (s.pace.timeBase + 1) % 2 ^ 64 ∧
    (s.pace.hold = 0 → t.pace.cricket = (s.pace.cricket + 1) % 2 ^ 64 ∧ t.pace.hold = 0) ∧
    (s.pace.hold ≠ 0 → t.pace.cricket = s.pace.cricket ∧ t.pace.hold = s.pace.hold - 1)) ∧
  (∀ s : State, s.pending = [] → s.board.power = .down → step s = .next s)

/-- Commands are taken first in, first out: no command changes the queue, and a step takes exactly the command at its front.
The queue is the model's own (INVENTORY.md, the model's own fields). -/
def Obligations.NoCommandChangesTheQueue : Prop :=
  (∀ (i : Instr) (s t : State), exec i s = .next t → t.pending = s.pending) ∧
  (∀ s t : State, step s = .next t → t.pending = s.pending.drop 1)

/-- The memories of the device stay in their canonical form over every step. -/
def Obligations.EveryStepKeepsMemoryCanonical : Prop :=
  ∀ s t : State, s.mem.wf = true → step s = .next t → t.mem.wf = true

/-- While BOOST_EN is low, no step makes Boost the operating point, its target, or the point of the timing record (R94, R956,
R1041). -/
def Obligations.BoostStaysOffWithoutItsPin : Prop :=
  ∀ s t : State, BoostNeedsItsPin s → step s = .next t → BoostNeedsItsPin t

/-- No step changes a fuse but the one that the running image has in progress (R1004, R1010, R1015, R1017, R1018). -/
def Obligations.OnlyTheFuseInProgressIsBlown : Prop :=
  ∀ (i : Instr) (s t : State), exec i s = .next t →
    t.fuses = s.fuses ∨ ∃ x, nextFuse s = some x ∧ t.fuses = blow x s.fuses

/-- The block after reset (R43, R581, R543, R285, the Reset columns of the register tables): the queue is empty, every word of
stacked memory and GDDR7 is poison, every context is FREE, the invariants hold, and registers read their reset values.
It names no value that log entries 4 and 5 choose. -/
def Obligations.ResetLeavesTheStatedValues : Prop :=
  State.reset.pending = [] ∧ State.reset.mem.wf = true ∧ BoostNeedsItsPin State.reset ∧
  (∀ a, a < Config.stackedSize → ∃ bs, wordAt State.reset a = some (bs, true)) ∧
  (∀ a, Config.gddrBase ≤ a → a < Config.gddrBase + Config.gddrSize → ∃ bs, wordAt State.reset a = some (bs, true)) ∧
  (∀ n, State.reset.ctx n = {}) ∧
  readReg State.reset .program (barBase + 0x08) 8 = 2 ^ 7 * 16 ∧
  readReg State.reset .program (barBase + 0x10) 8 = Config.gddrBase ∧
  readReg State.reset .program (barBase + 0x00) 8 / 2 ^ 16 % 2 ^ 16 = 0x9600 ∧
  readReg State.reset .host (barBase + 0x31000) 8 = 2 ^ 3 * 1 + 2 ^ 5 * 1 ∧
  readReg State.reset .program (Config.regBase + 0x5800000 + 0x08) 8 = 1000 ∧
  (∀ q, q < 16 → readReg State.reset .program (Config.regBase + 0x4800000 + 0x100 * q) 8 % 4 = 3)

/-- What is written to whole words is read back without poison, and no word stored elsewhere changes (R520 to R529, R542, R581): words
of core memory and of slices in service one by one, others by 4 KiB units, since the first write to a unit of GDDR7 clears it. -/
def Obligations.MemoryReadsBackWhatWasWritten : Prop :=
  ∀ (s : State) (a : Nat) (data : List Byte), s.mem.wf = true → a % 8 = 0 → data.length % 8 = 0 → data ≠ [] →
    data.length ≤ 4096 → (∀ i, i < data.length → Writable s ((a + i) / 8 * 8)) →
    physRead (physWrite s a (untagged data)) a data.length = some (untagged data) ∧
    (∀ w, w % 8 = 0 → (∀ i, i < data.length → storedAt s w / 4096 ≠ storedAt s ((a + i) / 8 * 8) / 4096) →
      wordAt (physWrite s a (untagged data)) w = wordAt s w) ∧
    (∀ w, w % 8 = 0 → Checked s w → (∀ i, i < data.length → Checked s ((a + i) / 8 * 8) ∧
        storedAt s w ≠ storedAt s ((a + i) / 8 * 8)) →
      wordAt (physWrite s a (untagged data)) w = wordAt s w)
end

