-- ==== Sys2Proof/Laws/Tables.lean ====
section
/-! SUPPORT. Laws of the finite tables, of number sets and of little-endian bytes. -/

namespace Sys2Proof.Machine

/-! ## Tables: a read after a write gives what was written, and every other entry stays -/

theorem mapFind_mapSet {α : Type} (m : Map α) (k n : Nat) (x : α) :
    mapFind (mapSet m k x) n = if n = k then some x else mapFind m n := by
  induction m with
  | nil => by_cases h : k = n <;> simp [mapSet, mapFind, h, eq_comm]
  | cons e m ih =>
    obtain ⟨j, v⟩ := e
    simp only [mapSet]
    split
    · simp only [mapFind]
      by_cases h : k = n
      · simp [h]
      · have : ¬ n = k := fun e => h e.symm
        simp [h, this]
    · split
      · rename_i h1 h2
        subst h2
        simp only [mapFind]
        by_cases h : k = n
        · simp [h]
        · have : ¬ n = k := fun e => h e.symm
          simp [h, this]
      · rename_i h1 h2
        simp only [mapFind, ih]
        by_cases h : j = n
        · have : ¬ n = k := by omega
          simp [h, this]
        · simp [h]

@[simp] theorem mapFind_mapSet_self {α : Type} (m : Map α) (n : Nat) (x : α) : mapFind (mapSet m n x) n = some x := by
  simp [mapFind_mapSet]

@[simp] theorem mapGet_mapSet_self {α : Type} (d : α) (m : Map α) (n : Nat) (x : α) : mapGet d (mapSet m n x) n = x := by
  simp [mapGet]

theorem mapGet_mapSet {α : Type} (d : α) (m : Map α) (k n : Nat) (x : α) :
    mapGet d (mapSet m k x) n = if n = k then x else mapGet d m n := by
  by_cases h : n = k <;> simp [mapGet, mapFind_mapSet, h]

theorem mapGet_mapSet_ne {α : Type} (d : α) (m : Map α) {k n : Nat} (x : α) (h : n ≠ k) :
    mapGet d (mapSet m k x) n = mapGet d m n := by simp [mapGet_mapSet, h]

theorem mapFind_mapErase {α : Type} (m : Map α) (k n : Nat) :
    mapFind (mapErase m k) n = if n = k then none else mapFind m n := by
  induction m with
  | nil => by_cases h : n = k <;> simp [mapErase, mapFind]
  | cons e m ih =>
    obtain ⟨j, v⟩ := e
    simp only [mapErase, List.filter_cons] at ih ⊢
    by_cases hj : j = k
    · subst hj
      simp only [bne_self_eq_false, Bool.false_eq_true, if_false, ih, mapFind]
      by_cases h : n = j
      · simp [h]
      · have : ¬ j = n := fun e => h e.symm
        simp [h, this]
    · have : (j != k) = true := by simp [hj]
      simp only [this, if_true, mapFind, ih]
      by_cases h : j = n
      · have : ¬ n = k := by omega
        simp [h, this]
      · simp [h]

@[simp] theorem mapFind_mapErase_self {α : Type} (m : Map α) (n : Nat) : mapFind (mapErase m n) n = none := by
  simp [mapFind_mapErase]

theorem mapGet_mapErase {α : Type} (d : α) (m : Map α) (k n : Nat) :
    mapGet d (mapErase m k) n = if n = k then d else mapGet d m n := by
  by_cases h : n = k <;> simp [mapGet, mapFind_mapErase, h]

/-- A table with every entry changed in the same way. -/
theorem mapFind_map {α β : Type} (f : α → β) (m : Map α) (n : Nat) :
    mapFind (m.map (fun e => (e.1, f e.2))) n = (mapFind m n).map f := by
  induction m with
  | nil => rfl
  | cons e m ih =>
    obtain ⟨j, v⟩ := e
    by_cases h : j = n <;> simp [mapFind, h, ih]

@[simp] theorem mapFind_nil {α : Type} (n : Nat) : mapFind ([] : Map α) n = none := rfl
@[simp] theorem mapGet_nil {α : Type} (d : α) (n : Nat) : mapGet d ([] : Map α) n = d := rfl

theorem mapGet_mapModify {α : Type} (d : α) (m : Map α) (k n : Nat) (f : α → α) :
    mapGet d (mapModify d m k f) n = if n = k then f (mapGet d m k) else mapGet d m n := by
  simp [mapModify, mapGet_mapSet]

/-! ## Sets of numbers -/

@[simp] theorem mem_setErase (l : List Nat) (n k : Nat) : k ∈ setErase l n ↔ k ∈ l ∧ k ≠ n := by
  simp [setErase, and_comm]

@[simp] theorem mem_setInsert (l : List Nat) (n k : Nat) : k ∈ setInsert l n ↔ k = n ∨ k ∈ l := by
  induction l with
  | nil => simp [setInsert]
  | cons j l ih =>
    simp only [setInsert]
    split
    · simp
    · split
      · rename_i h; subst h; simp
      · simp only [List.mem_cons, ih]
        constructor
        · rintro (h | h | h) <;> simp [h]
        · rintro (h | h | h) <;> simp [h]

/-! ## Little-endian bytes -/

@[simp] theorem length_leBytes (n v : Nat) : (leBytes n v).length = n := by
  induction n generalizing v with
  | zero => rfl
  | succ n ih => simp [leBytes, ih]

/-- The bytes of a number spell it again. -/
theorem leNat_leBytes (n v : Nat) : leNat (leBytes n v) = v % 256 ^ n := by
  induction n generalizing v with
  | zero => simp [leBytes, leNat, Nat.mod_one]
  | succ n ih =>
    rw [leBytes, leNat, ih, BitVec.toNat_ofNat, Nat.pow_succ 256 n, Nat.mul_comm (256 ^ n) 256, Nat.mod_mul]

theorem leNat_lt (bs : List Byte) : leNat bs < 256 ^ bs.length := by
  induction bs with
  | nil => simp [leNat]
  | cons b bs ih =>
    have := b.isLt
    simp only [leNat, List.length_cons, Nat.pow_succ]
    omega

/-- A number spelled by bytes gives the bytes again. -/
theorem leBytes_leNat (bs : List Byte) : leBytes bs.length (leNat bs) = bs := by
  induction bs with
  | nil => rfl
  | cons b bs ih =>
    have h : leNat (b :: bs) / 256 = leNat bs := by have := b.isLt; simp only [leNat]; omega
    have h0 : BitVec.ofNat 8 (leNat (b :: bs)) = b := by
      apply BitVec.eq_of_toNat_eq
      have := b.isLt
      simp only [leNat, BitVec.toNat_ofNat]
      omega
    rw [List.length_cons, leBytes, h, h0, ih]

end Sys2Proof.Machine
end

