-- ==== Sys2Proof/Laws/State.lean ====
section
/-! SUPPORT. The laws of the state's named updates: what each leaves alone, field by field, and what a read after a write
gives. No later proof unfolds a record update. -/

namespace Sys2Proof.Machine

variable (s : State)

/-! ### State.setCtx -/

@[simp] theorem State.setCtx_pending (n : Nat) (x : Ctx) : (State.setCtx s n x).pending = s.pending := rfl
@[simp] theorem State.setCtx_out (n : Nat) (x : Ctx) : (State.setCtx s n x).out = s.out := rfl
@[simp] theorem State.setCtx_free (n : Nat) (x : Ctx) : (State.setCtx s n x).free = s.free := rfl
@[simp] theorem State.setCtx_fuses (n : Nat) (x : Ctx) : (State.setCtx s n x).fuses = s.fuses := rfl
@[simp] theorem State.setCtx_board (n : Nat) (x : Ctx) : (State.setCtx s n x).board = s.board := rfl
@[simp] theorem State.setCtx_tap (n : Nat) (x : Ctx) : (State.setCtx s n x).tap = s.tap := rfl
@[simp] theorem State.setCtx_hostp (n : Nat) (x : Ctx) : (State.setCtx s n x).hostp = s.hostp := rfl
@[simp] theorem State.setCtx_disp (n : Nat) (x : Ctx) : (State.setCtx s n x).disp = s.disp := rfl
@[simp] theorem State.setCtx_runs (n : Nat) (x : Ctx) : (State.setCtx s n x).runs = s.runs := rfl
@[simp] theorem State.setCtx_loads (n : Nat) (x : Ctx) : (State.setCtx s n x).loads = s.loads := rfl
@[simp] theorem State.setCtx_clusters (n : Nat) (x : Ctx) : (State.setCtx s n x).clusters = s.clusters := rfl
@[simp] theorem State.setCtx_net (n : Nat) (x : Ctx) : (State.setCtx s n x).net = s.net := rfl
@[simp] theorem State.setCtx_mem (n : Nat) (x : Ctx) : (State.setCtx s n x).mem = s.mem := rfl
@[simp] theorem State.setCtx_memc (n : Nat) (x : Ctx) : (State.setCtx s n x).memc = s.memc := rfl
@[simp] theorem State.setCtx_gdc (n : Nat) (x : Ctx) : (State.setCtx s n x).gdc = s.gdc := rfl
@[simp] theorem State.setCtx_cxlp (n : Nat) (x : Ctx) : (State.setCtx s n x).cxlp = s.cxlp := rfl
@[simp] theorem State.setCtx_silk (n : Nat) (x : Ctx) : (State.setCtx s n x).silk = s.silk := rfl
@[simp] theorem State.setCtx_pace (n : Nat) (x : Ctx) : (State.setCtx s n x).pace = s.pace := rfl
@[simp] theorem State.setCtx_ent (n : Nat) (x : Ctx) : (State.setCtx s n x).ent = s.ent := rfl
@[simp] theorem State.setCtx_mgmt (n : Nat) (x : Ctx) : (State.setCtx s n x).mgmt = s.mgmt := rfl
@[simp] theorem State.setCtx_trace (n : Nat) (x : Ctx) : (State.setCtx s n x).trace = s.trace := rfl

/-! ### State.setRun -/

@[simp] theorem State.setRun_pending (n : Nat) (x : Run) : (State.setRun s n x).pending = s.pending := rfl
@[simp] theorem State.setRun_out (n : Nat) (x : Run) : (State.setRun s n x).out = s.out := rfl
@[simp] theorem State.setRun_free (n : Nat) (x : Run) : (State.setRun s n x).free = s.free := rfl
@[simp] theorem State.setRun_fuses (n : Nat) (x : Run) : (State.setRun s n x).fuses = s.fuses := rfl
@[simp] theorem State.setRun_board (n : Nat) (x : Run) : (State.setRun s n x).board = s.board := rfl
@[simp] theorem State.setRun_tap (n : Nat) (x : Run) : (State.setRun s n x).tap = s.tap := rfl
@[simp] theorem State.setRun_hostp (n : Nat) (x : Run) : (State.setRun s n x).hostp = s.hostp := rfl
@[simp] theorem State.setRun_disp (n : Nat) (x : Run) : (State.setRun s n x).disp = s.disp := rfl
@[simp] theorem State.setRun_ctxs (n : Nat) (x : Run) : (State.setRun s n x).ctxs = s.ctxs := rfl
@[simp] theorem State.setRun_ctxPoison (n : Nat) (x : Run) : (State.setRun s n x).ctxPoison = s.ctxPoison := rfl
@[simp] theorem State.setRun_ctxCache (n : Nat) (x : Run) : (State.setRun s n x).ctxCache = s.ctxCache := rfl
@[simp] theorem State.setRun_loads (n : Nat) (x : Run) : (State.setRun s n x).loads = s.loads := rfl
@[simp] theorem State.setRun_clusters (n : Nat) (x : Run) : (State.setRun s n x).clusters = s.clusters := rfl
@[simp] theorem State.setRun_net (n : Nat) (x : Run) : (State.setRun s n x).net = s.net := rfl
@[simp] theorem State.setRun_mem (n : Nat) (x : Run) : (State.setRun s n x).mem = s.mem := rfl
@[simp] theorem State.setRun_memc (n : Nat) (x : Run) : (State.setRun s n x).memc = s.memc := rfl
@[simp] theorem State.setRun_gdc (n : Nat) (x : Run) : (State.setRun s n x).gdc = s.gdc := rfl
@[simp] theorem State.setRun_cxlp (n : Nat) (x : Run) : (State.setRun s n x).cxlp = s.cxlp := rfl
@[simp] theorem State.setRun_silk (n : Nat) (x : Run) : (State.setRun s n x).silk = s.silk := rfl
@[simp] theorem State.setRun_pace (n : Nat) (x : Run) : (State.setRun s n x).pace = s.pace := rfl
@[simp] theorem State.setRun_ent (n : Nat) (x : Run) : (State.setRun s n x).ent = s.ent := rfl
@[simp] theorem State.setRun_mgmt (n : Nat) (x : Run) : (State.setRun s n x).mgmt = s.mgmt := rfl
@[simp] theorem State.setRun_trace (n : Nat) (x : Run) : (State.setRun s n x).trace = s.trace := rfl

/-! ### State.modRun -/

@[simp] theorem State.modRun_pending (n : Nat) (f : Run → Run) : (State.modRun s n f).pending = s.pending := by unfold State.modRun; split <;> rfl
@[simp] theorem State.modRun_out (n : Nat) (f : Run → Run) : (State.modRun s n f).out = s.out := by unfold State.modRun; split <;> rfl
@[simp] theorem State.modRun_free (n : Nat) (f : Run → Run) : (State.modRun s n f).free = s.free := by unfold State.modRun; split <;> rfl
@[simp] theorem State.modRun_fuses (n : Nat) (f : Run → Run) : (State.modRun s n f).fuses = s.fuses := by unfold State.modRun; split <;> rfl
@[simp] theorem State.modRun_board (n : Nat) (f : Run → Run) : (State.modRun s n f).board = s.board := by unfold State.modRun; split <;> rfl
@[simp] theorem State.modRun_tap (n : Nat) (f : Run → Run) : (State.modRun s n f).tap = s.tap := by unfold State.modRun; split <;> rfl
@[simp] theorem State.modRun_hostp (n : Nat) (f : Run → Run) : (State.modRun s n f).hostp = s.hostp := by unfold State.modRun; split <;> rfl
@[simp] theorem State.modRun_disp (n : Nat) (f : Run → Run) : (State.modRun s n f).disp = s.disp := by unfold State.modRun; split <;> rfl
@[simp] theorem State.modRun_ctxs (n : Nat) (f : Run → Run) : (State.modRun s n f).ctxs = s.ctxs := by unfold State.modRun; split <;> rfl
@[simp] theorem State.modRun_ctxPoison (n : Nat) (f : Run → Run) : (State.modRun s n f).ctxPoison = s.ctxPoison := by unfold State.modRun; split <;> rfl
@[simp] theorem State.modRun_ctxCache (n : Nat) (f : Run → Run) : (State.modRun s n f).ctxCache = s.ctxCache := by unfold State.modRun; split <;> rfl
@[simp] theorem State.modRun_loads (n : Nat) (f : Run → Run) : (State.modRun s n f).loads = s.loads := by unfold State.modRun; split <;> rfl
@[simp] theorem State.modRun_clusters (n : Nat) (f : Run → Run) : (State.modRun s n f).clusters = s.clusters := by unfold State.modRun; split <;> rfl
@[simp] theorem State.modRun_net (n : Nat) (f : Run → Run) : (State.modRun s n f).net = s.net := by unfold State.modRun; split <;> rfl
@[simp] theorem State.modRun_mem (n : Nat) (f : Run → Run) : (State.modRun s n f).mem = s.mem := by unfold State.modRun; split <;> rfl
@[simp] theorem State.modRun_memc (n : Nat) (f : Run → Run) : (State.modRun s n f).memc = s.memc := by unfold State.modRun; split <;> rfl
@[simp] theorem State.modRun_gdc (n : Nat) (f : Run → Run) : (State.modRun s n f).gdc = s.gdc := by unfold State.modRun; split <;> rfl
@[simp] theorem State.modRun_cxlp (n : Nat) (f : Run → Run) : (State.modRun s n f).cxlp = s.cxlp := by unfold State.modRun; split <;> rfl
@[simp] theorem State.modRun_silk (n : Nat) (f : Run → Run) : (State.modRun s n f).silk = s.silk := by unfold State.modRun; split <;> rfl
@[simp] theorem State.modRun_pace (n : Nat) (f : Run → Run) : (State.modRun s n f).pace = s.pace := by unfold State.modRun; split <;> rfl
@[simp] theorem State.modRun_ent (n : Nat) (f : Run → Run) : (State.modRun s n f).ent = s.ent := by unfold State.modRun; split <;> rfl
@[simp] theorem State.modRun_mgmt (n : Nat) (f : Run → Run) : (State.modRun s n f).mgmt = s.mgmt := by unfold State.modRun; split <;> rfl
@[simp] theorem State.modRun_trace (n : Nat) (f : Run → Run) : (State.modRun s n f).trace = s.trace := by unfold State.modRun; split <;> rfl

/-! ### State.setGdc -/

@[simp] theorem State.setGdc_pending (q : Nat) (x : Gdc) : (State.setGdc s q x).pending = s.pending := rfl
@[simp] theorem State.setGdc_out (q : Nat) (x : Gdc) : (State.setGdc s q x).out = s.out := rfl
@[simp] theorem State.setGdc_free (q : Nat) (x : Gdc) : (State.setGdc s q x).free = s.free := rfl
@[simp] theorem State.setGdc_fuses (q : Nat) (x : Gdc) : (State.setGdc s q x).fuses = s.fuses := rfl
@[simp] theorem State.setGdc_board (q : Nat) (x : Gdc) : (State.setGdc s q x).board = s.board := rfl
@[simp] theorem State.setGdc_tap (q : Nat) (x : Gdc) : (State.setGdc s q x).tap = s.tap := rfl
@[simp] theorem State.setGdc_hostp (q : Nat) (x : Gdc) : (State.setGdc s q x).hostp = s.hostp := rfl
@[simp] theorem State.setGdc_disp (q : Nat) (x : Gdc) : (State.setGdc s q x).disp = s.disp := rfl
@[simp] theorem State.setGdc_ctxs (q : Nat) (x : Gdc) : (State.setGdc s q x).ctxs = s.ctxs := rfl
@[simp] theorem State.setGdc_ctxPoison (q : Nat) (x : Gdc) : (State.setGdc s q x).ctxPoison = s.ctxPoison := rfl
@[simp] theorem State.setGdc_ctxCache (q : Nat) (x : Gdc) : (State.setGdc s q x).ctxCache = s.ctxCache := rfl
@[simp] theorem State.setGdc_runs (q : Nat) (x : Gdc) : (State.setGdc s q x).runs = s.runs := rfl
@[simp] theorem State.setGdc_loads (q : Nat) (x : Gdc) : (State.setGdc s q x).loads = s.loads := rfl
@[simp] theorem State.setGdc_clusters (q : Nat) (x : Gdc) : (State.setGdc s q x).clusters = s.clusters := rfl
@[simp] theorem State.setGdc_net (q : Nat) (x : Gdc) : (State.setGdc s q x).net = s.net := rfl
@[simp] theorem State.setGdc_mem (q : Nat) (x : Gdc) : (State.setGdc s q x).mem = s.mem := rfl
@[simp] theorem State.setGdc_memc (q : Nat) (x : Gdc) : (State.setGdc s q x).memc = s.memc := rfl
@[simp] theorem State.setGdc_cxlp (q : Nat) (x : Gdc) : (State.setGdc s q x).cxlp = s.cxlp := rfl
@[simp] theorem State.setGdc_silk (q : Nat) (x : Gdc) : (State.setGdc s q x).silk = s.silk := rfl
@[simp] theorem State.setGdc_pace (q : Nat) (x : Gdc) : (State.setGdc s q x).pace = s.pace := rfl
@[simp] theorem State.setGdc_ent (q : Nat) (x : Gdc) : (State.setGdc s q x).ent = s.ent := rfl
@[simp] theorem State.setGdc_mgmt (q : Nat) (x : Gdc) : (State.setGdc s q x).mgmt = s.mgmt := rfl
@[simp] theorem State.setGdc_trace (q : Nat) (x : Gdc) : (State.setGdc s q x).trace = s.trace := rfl

/-! ### State.setCxl -/

@[simp] theorem State.setCxl_pending (d : Nat) (x : Cxlp) : (State.setCxl s d x).pending = s.pending := rfl
@[simp] theorem State.setCxl_out (d : Nat) (x : Cxlp) : (State.setCxl s d x).out = s.out := rfl
@[simp] theorem State.setCxl_free (d : Nat) (x : Cxlp) : (State.setCxl s d x).free = s.free := rfl
@[simp] theorem State.setCxl_fuses (d : Nat) (x : Cxlp) : (State.setCxl s d x).fuses = s.fuses := rfl
@[simp] theorem State.setCxl_board (d : Nat) (x : Cxlp) : (State.setCxl s d x).board = s.board := rfl
@[simp] theorem State.setCxl_tap (d : Nat) (x : Cxlp) : (State.setCxl s d x).tap = s.tap := rfl
@[simp] theorem State.setCxl_hostp (d : Nat) (x : Cxlp) : (State.setCxl s d x).hostp = s.hostp := rfl
@[simp] theorem State.setCxl_disp (d : Nat) (x : Cxlp) : (State.setCxl s d x).disp = s.disp := rfl
@[simp] theorem State.setCxl_ctxs (d : Nat) (x : Cxlp) : (State.setCxl s d x).ctxs = s.ctxs := rfl
@[simp] theorem State.setCxl_ctxPoison (d : Nat) (x : Cxlp) : (State.setCxl s d x).ctxPoison = s.ctxPoison := rfl
@[simp] theorem State.setCxl_ctxCache (d : Nat) (x : Cxlp) : (State.setCxl s d x).ctxCache = s.ctxCache := rfl
@[simp] theorem State.setCxl_runs (d : Nat) (x : Cxlp) : (State.setCxl s d x).runs = s.runs := rfl
@[simp] theorem State.setCxl_loads (d : Nat) (x : Cxlp) : (State.setCxl s d x).loads = s.loads := rfl
@[simp] theorem State.setCxl_clusters (d : Nat) (x : Cxlp) : (State.setCxl s d x).clusters = s.clusters := rfl
@[simp] theorem State.setCxl_net (d : Nat) (x : Cxlp) : (State.setCxl s d x).net = s.net := rfl
@[simp] theorem State.setCxl_mem (d : Nat) (x : Cxlp) : (State.setCxl s d x).mem = s.mem := rfl
@[simp] theorem State.setCxl_memc (d : Nat) (x : Cxlp) : (State.setCxl s d x).memc = s.memc := rfl
@[simp] theorem State.setCxl_gdc (d : Nat) (x : Cxlp) : (State.setCxl s d x).gdc = s.gdc := rfl
@[simp] theorem State.setCxl_silk (d : Nat) (x : Cxlp) : (State.setCxl s d x).silk = s.silk := rfl
@[simp] theorem State.setCxl_pace (d : Nat) (x : Cxlp) : (State.setCxl s d x).pace = s.pace := rfl
@[simp] theorem State.setCxl_ent (d : Nat) (x : Cxlp) : (State.setCxl s d x).ent = s.ent := rfl
@[simp] theorem State.setCxl_mgmt (d : Nat) (x : Cxlp) : (State.setCxl s d x).mgmt = s.mgmt := rfl
@[simp] theorem State.setCxl_trace (d : Nat) (x : Cxlp) : (State.setCxl s d x).trace = s.trace := rfl

/-! ### State.setPort -/

@[simp] theorem State.setPort_pending (p : Nat) (x : Port) : (State.setPort s p x).pending = s.pending := rfl
@[simp] theorem State.setPort_out (p : Nat) (x : Port) : (State.setPort s p x).out = s.out := rfl
@[simp] theorem State.setPort_free (p : Nat) (x : Port) : (State.setPort s p x).free = s.free := rfl
@[simp] theorem State.setPort_fuses (p : Nat) (x : Port) : (State.setPort s p x).fuses = s.fuses := rfl
@[simp] theorem State.setPort_board (p : Nat) (x : Port) : (State.setPort s p x).board = s.board := rfl
@[simp] theorem State.setPort_tap (p : Nat) (x : Port) : (State.setPort s p x).tap = s.tap := rfl
@[simp] theorem State.setPort_hostp (p : Nat) (x : Port) : (State.setPort s p x).hostp = s.hostp := rfl
@[simp] theorem State.setPort_disp (p : Nat) (x : Port) : (State.setPort s p x).disp = s.disp := rfl
@[simp] theorem State.setPort_ctxs (p : Nat) (x : Port) : (State.setPort s p x).ctxs = s.ctxs := rfl
@[simp] theorem State.setPort_ctxPoison (p : Nat) (x : Port) : (State.setPort s p x).ctxPoison = s.ctxPoison := rfl
@[simp] theorem State.setPort_ctxCache (p : Nat) (x : Port) : (State.setPort s p x).ctxCache = s.ctxCache := rfl
@[simp] theorem State.setPort_runs (p : Nat) (x : Port) : (State.setPort s p x).runs = s.runs := rfl
@[simp] theorem State.setPort_loads (p : Nat) (x : Port) : (State.setPort s p x).loads = s.loads := rfl
@[simp] theorem State.setPort_clusters (p : Nat) (x : Port) : (State.setPort s p x).clusters = s.clusters := rfl
@[simp] theorem State.setPort_net (p : Nat) (x : Port) : (State.setPort s p x).net = s.net := rfl
@[simp] theorem State.setPort_mem (p : Nat) (x : Port) : (State.setPort s p x).mem = s.mem := rfl
@[simp] theorem State.setPort_memc (p : Nat) (x : Port) : (State.setPort s p x).memc = s.memc := rfl
@[simp] theorem State.setPort_gdc (p : Nat) (x : Port) : (State.setPort s p x).gdc = s.gdc := rfl
@[simp] theorem State.setPort_cxlp (p : Nat) (x : Port) : (State.setPort s p x).cxlp = s.cxlp := rfl
@[simp] theorem State.setPort_pace (p : Nat) (x : Port) : (State.setPort s p x).pace = s.pace := rfl
@[simp] theorem State.setPort_ent (p : Nat) (x : Port) : (State.setPort s p x).ent = s.ent := rfl
@[simp] theorem State.setPort_mgmt (p : Nat) (x : Port) : (State.setPort s p x).mgmt = s.mgmt := rfl
@[simp] theorem State.setPort_trace (p : Nat) (x : Port) : (State.setPort s p x).trace = s.trace := rfl

/-! ### State.setOp -/

@[simp] theorem State.setOp_pending (k : Nat) (o : LongOp) : (State.setOp s k o).pending = s.pending := rfl
@[simp] theorem State.setOp_out (k : Nat) (o : LongOp) : (State.setOp s k o).out = s.out := rfl
@[simp] theorem State.setOp_free (k : Nat) (o : LongOp) : (State.setOp s k o).free = s.free := rfl
@[simp] theorem State.setOp_fuses (k : Nat) (o : LongOp) : (State.setOp s k o).fuses = s.fuses := rfl
@[simp] theorem State.setOp_board (k : Nat) (o : LongOp) : (State.setOp s k o).board = s.board := rfl
@[simp] theorem State.setOp_tap (k : Nat) (o : LongOp) : (State.setOp s k o).tap = s.tap := rfl
@[simp] theorem State.setOp_hostp (k : Nat) (o : LongOp) : (State.setOp s k o).hostp = s.hostp := rfl
@[simp] theorem State.setOp_disp (k : Nat) (o : LongOp) : (State.setOp s k o).disp = s.disp := rfl
@[simp] theorem State.setOp_ctxs (k : Nat) (o : LongOp) : (State.setOp s k o).ctxs = s.ctxs := rfl
@[simp] theorem State.setOp_ctxPoison (k : Nat) (o : LongOp) : (State.setOp s k o).ctxPoison = s.ctxPoison := rfl
@[simp] theorem State.setOp_ctxCache (k : Nat) (o : LongOp) : (State.setOp s k o).ctxCache = s.ctxCache := rfl
@[simp] theorem State.setOp_runs (k : Nat) (o : LongOp) : (State.setOp s k o).runs = s.runs := rfl
@[simp] theorem State.setOp_loads (k : Nat) (o : LongOp) : (State.setOp s k o).loads = s.loads := rfl
@[simp] theorem State.setOp_clusters (k : Nat) (o : LongOp) : (State.setOp s k o).clusters = s.clusters := rfl
@[simp] theorem State.setOp_net (k : Nat) (o : LongOp) : (State.setOp s k o).net = s.net := rfl
@[simp] theorem State.setOp_mem (k : Nat) (o : LongOp) : (State.setOp s k o).mem = s.mem := rfl
@[simp] theorem State.setOp_memc (k : Nat) (o : LongOp) : (State.setOp s k o).memc = s.memc := rfl
@[simp] theorem State.setOp_gdc (k : Nat) (o : LongOp) : (State.setOp s k o).gdc = s.gdc := rfl
@[simp] theorem State.setOp_cxlp (k : Nat) (o : LongOp) : (State.setOp s k o).cxlp = s.cxlp := rfl
@[simp] theorem State.setOp_silk (k : Nat) (o : LongOp) : (State.setOp s k o).silk = s.silk := rfl
@[simp] theorem State.setOp_pace (k : Nat) (o : LongOp) : (State.setOp s k o).pace = s.pace := rfl
@[simp] theorem State.setOp_ent (k : Nat) (o : LongOp) : (State.setOp s k o).ent = s.ent := rfl
@[simp] theorem State.setOp_trace (k : Nat) (o : LongOp) : (State.setOp s k o).trace = s.trace := rfl

/-! ### State.setPool -/

@[simp] theorem State.setPool_pending (n : Nat) (x : Pool) : (State.setPool s n x).pending = s.pending := rfl
@[simp] theorem State.setPool_out (n : Nat) (x : Pool) : (State.setPool s n x).out = s.out := rfl
@[simp] theorem State.setPool_free (n : Nat) (x : Pool) : (State.setPool s n x).free = s.free := rfl
@[simp] theorem State.setPool_fuses (n : Nat) (x : Pool) : (State.setPool s n x).fuses = s.fuses := rfl
@[simp] theorem State.setPool_board (n : Nat) (x : Pool) : (State.setPool s n x).board = s.board := rfl
@[simp] theorem State.setPool_tap (n : Nat) (x : Pool) : (State.setPool s n x).tap = s.tap := rfl
@[simp] theorem State.setPool_hostp (n : Nat) (x : Pool) : (State.setPool s n x).hostp = s.hostp := rfl
@[simp] theorem State.setPool_disp (n : Nat) (x : Pool) : (State.setPool s n x).disp = s.disp := rfl
@[simp] theorem State.setPool_ctxs (n : Nat) (x : Pool) : (State.setPool s n x).ctxs = s.ctxs := rfl
@[simp] theorem State.setPool_ctxPoison (n : Nat) (x : Pool) : (State.setPool s n x).ctxPoison = s.ctxPoison := rfl
@[simp] theorem State.setPool_ctxCache (n : Nat) (x : Pool) : (State.setPool s n x).ctxCache = s.ctxCache := rfl
@[simp] theorem State.setPool_runs (n : Nat) (x : Pool) : (State.setPool s n x).runs = s.runs := rfl
@[simp] theorem State.setPool_loads (n : Nat) (x : Pool) : (State.setPool s n x).loads = s.loads := rfl
@[simp] theorem State.setPool_clusters (n : Nat) (x : Pool) : (State.setPool s n x).clusters = s.clusters := rfl
@[simp] theorem State.setPool_net (n : Nat) (x : Pool) : (State.setPool s n x).net = s.net := rfl
@[simp] theorem State.setPool_mem (n : Nat) (x : Pool) : (State.setPool s n x).mem = s.mem := rfl
@[simp] theorem State.setPool_gdc (n : Nat) (x : Pool) : (State.setPool s n x).gdc = s.gdc := rfl
@[simp] theorem State.setPool_cxlp (n : Nat) (x : Pool) : (State.setPool s n x).cxlp = s.cxlp := rfl
@[simp] theorem State.setPool_silk (n : Nat) (x : Pool) : (State.setPool s n x).silk = s.silk := rfl
@[simp] theorem State.setPool_pace (n : Nat) (x : Pool) : (State.setPool s n x).pace = s.pace := rfl
@[simp] theorem State.setPool_ent (n : Nat) (x : Pool) : (State.setPool s n x).ent = s.ent := rfl
@[simp] theorem State.setPool_mgmt (n : Nat) (x : Pool) : (State.setPool s n x).mgmt = s.mgmt := rfl
@[simp] theorem State.setPool_trace (n : Nat) (x : Pool) : (State.setPool s n x).trace = s.trace := rfl

/-! ### State.setFifo -/

@[simp] theorem State.setFifo_pending (n : Nat) (ps : List Pkt) : (State.setFifo s n ps).pending = s.pending := rfl
@[simp] theorem State.setFifo_out (n : Nat) (ps : List Pkt) : (State.setFifo s n ps).out = s.out := rfl
@[simp] theorem State.setFifo_free (n : Nat) (ps : List Pkt) : (State.setFifo s n ps).free = s.free := rfl
@[simp] theorem State.setFifo_fuses (n : Nat) (ps : List Pkt) : (State.setFifo s n ps).fuses = s.fuses := rfl
@[simp] theorem State.setFifo_board (n : Nat) (ps : List Pkt) : (State.setFifo s n ps).board = s.board := rfl
@[simp] theorem State.setFifo_tap (n : Nat) (ps : List Pkt) : (State.setFifo s n ps).tap = s.tap := rfl
@[simp] theorem State.setFifo_hostp (n : Nat) (ps : List Pkt) : (State.setFifo s n ps).hostp = s.hostp := rfl
@[simp] theorem State.setFifo_disp (n : Nat) (ps : List Pkt) : (State.setFifo s n ps).disp = s.disp := rfl
@[simp] theorem State.setFifo_ctxs (n : Nat) (ps : List Pkt) : (State.setFifo s n ps).ctxs = s.ctxs := rfl
@[simp] theorem State.setFifo_ctxPoison (n : Nat) (ps : List Pkt) : (State.setFifo s n ps).ctxPoison = s.ctxPoison := rfl
@[simp] theorem State.setFifo_ctxCache (n : Nat) (ps : List Pkt) : (State.setFifo s n ps).ctxCache = s.ctxCache := rfl
@[simp] theorem State.setFifo_runs (n : Nat) (ps : List Pkt) : (State.setFifo s n ps).runs = s.runs := rfl
@[simp] theorem State.setFifo_loads (n : Nat) (ps : List Pkt) : (State.setFifo s n ps).loads = s.loads := rfl
@[simp] theorem State.setFifo_clusters (n : Nat) (ps : List Pkt) : (State.setFifo s n ps).clusters = s.clusters := rfl
@[simp] theorem State.setFifo_mem (n : Nat) (ps : List Pkt) : (State.setFifo s n ps).mem = s.mem := rfl
@[simp] theorem State.setFifo_memc (n : Nat) (ps : List Pkt) : (State.setFifo s n ps).memc = s.memc := rfl
@[simp] theorem State.setFifo_gdc (n : Nat) (ps : List Pkt) : (State.setFifo s n ps).gdc = s.gdc := rfl
@[simp] theorem State.setFifo_cxlp (n : Nat) (ps : List Pkt) : (State.setFifo s n ps).cxlp = s.cxlp := rfl
@[simp] theorem State.setFifo_silk (n : Nat) (ps : List Pkt) : (State.setFifo s n ps).silk = s.silk := rfl
@[simp] theorem State.setFifo_pace (n : Nat) (ps : List Pkt) : (State.setFifo s n ps).pace = s.pace := rfl
@[simp] theorem State.setFifo_ent (n : Nat) (ps : List Pkt) : (State.setFifo s n ps).ent = s.ent := rfl
@[simp] theorem State.setFifo_mgmt (n : Nat) (ps : List Pkt) : (State.setFifo s n ps).mgmt = s.mgmt := rfl
@[simp] theorem State.setFifo_trace (n : Nat) (ps : List Pkt) : (State.setFifo s n ps).trace = s.trace := rfl

/-! ### State.setCluster -/

@[simp] theorem State.setCluster_pending (c : Nat) (k : Cluster) : (State.setCluster s c k).pending = s.pending := rfl
@[simp] theorem State.setCluster_out (c : Nat) (k : Cluster) : (State.setCluster s c k).out = s.out := rfl
@[simp] theorem State.setCluster_free (c : Nat) (k : Cluster) : (State.setCluster s c k).free = s.free := rfl
@[simp] theorem State.setCluster_fuses (c : Nat) (k : Cluster) : (State.setCluster s c k).fuses = s.fuses := rfl
@[simp] theorem State.setCluster_board (c : Nat) (k : Cluster) : (State.setCluster s c k).board = s.board := rfl
@[simp] theorem State.setCluster_tap (c : Nat) (k : Cluster) : (State.setCluster s c k).tap = s.tap := rfl
@[simp] theorem State.setCluster_hostp (c : Nat) (k : Cluster) : (State.setCluster s c k).hostp = s.hostp := rfl
@[simp] theorem State.setCluster_disp (c : Nat) (k : Cluster) : (State.setCluster s c k).disp = s.disp := rfl
@[simp] theorem State.setCluster_ctxs (c : Nat) (k : Cluster) : (State.setCluster s c k).ctxs = s.ctxs := rfl
@[simp] theorem State.setCluster_ctxPoison (c : Nat) (k : Cluster) : (State.setCluster s c k).ctxPoison = s.ctxPoison := rfl
@[simp] theorem State.setCluster_ctxCache (c : Nat) (k : Cluster) : (State.setCluster s c k).ctxCache = s.ctxCache := rfl
@[simp] theorem State.setCluster_runs (c : Nat) (k : Cluster) : (State.setCluster s c k).runs = s.runs := rfl
@[simp] theorem State.setCluster_loads (c : Nat) (k : Cluster) : (State.setCluster s c k).loads = s.loads := rfl
@[simp] theorem State.setCluster_net (c : Nat) (k : Cluster) : (State.setCluster s c k).net = s.net := rfl
@[simp] theorem State.setCluster_mem (c : Nat) (k : Cluster) : (State.setCluster s c k).mem = s.mem := rfl
@[simp] theorem State.setCluster_memc (c : Nat) (k : Cluster) : (State.setCluster s c k).memc = s.memc := rfl
@[simp] theorem State.setCluster_gdc (c : Nat) (k : Cluster) : (State.setCluster s c k).gdc = s.gdc := rfl
@[simp] theorem State.setCluster_cxlp (c : Nat) (k : Cluster) : (State.setCluster s c k).cxlp = s.cxlp := rfl
@[simp] theorem State.setCluster_silk (c : Nat) (k : Cluster) : (State.setCluster s c k).silk = s.silk := rfl
@[simp] theorem State.setCluster_pace (c : Nat) (k : Cluster) : (State.setCluster s c k).pace = s.pace := rfl
@[simp] theorem State.setCluster_ent (c : Nat) (k : Cluster) : (State.setCluster s c k).ent = s.ent := rfl
@[simp] theorem State.setCluster_mgmt (c : Nat) (k : Cluster) : (State.setCluster s c k).mgmt = s.mgmt := rfl
@[simp] theorem State.setCluster_trace (c : Nat) (k : Cluster) : (State.setCluster s c k).trace = s.trace := rfl

/-! ### State.modCluster -/

@[simp] theorem State.modCluster_pending (c : Nat) (f : Cluster → Cluster) : (State.modCluster s c f).pending = s.pending := rfl
@[simp] theorem State.modCluster_out (c : Nat) (f : Cluster → Cluster) : (State.modCluster s c f).out = s.out := rfl
@[simp] theorem State.modCluster_free (c : Nat) (f : Cluster → Cluster) : (State.modCluster s c f).free = s.free := rfl
@[simp] theorem State.modCluster_fuses (c : Nat) (f : Cluster → Cluster) : (State.modCluster s c f).fuses = s.fuses := rfl
@[simp] theorem State.modCluster_board (c : Nat) (f : Cluster → Cluster) : (State.modCluster s c f).board = s.board := rfl
@[simp] theorem State.modCluster_tap (c : Nat) (f : Cluster → Cluster) : (State.modCluster s c f).tap = s.tap := rfl
@[simp] theorem State.modCluster_hostp (c : Nat) (f : Cluster → Cluster) : (State.modCluster s c f).hostp = s.hostp := rfl
@[simp] theorem State.modCluster_disp (c : Nat) (f : Cluster → Cluster) : (State.modCluster s c f).disp = s.disp := rfl
@[simp] theorem State.modCluster_ctxs (c : Nat) (f : Cluster → Cluster) : (State.modCluster s c f).ctxs = s.ctxs := rfl
@[simp] theorem State.modCluster_ctxPoison (c : Nat) (f : Cluster → Cluster) : (State.modCluster s c f).ctxPoison = s.ctxPoison := rfl
@[simp] theorem State.modCluster_ctxCache (c : Nat) (f : Cluster → Cluster) : (State.modCluster s c f).ctxCache = s.ctxCache := rfl
@[simp] theorem State.modCluster_runs (c : Nat) (f : Cluster → Cluster) : (State.modCluster s c f).runs = s.runs := rfl
@[simp] theorem State.modCluster_loads (c : Nat) (f : Cluster → Cluster) : (State.modCluster s c f).loads = s.loads := rfl
@[simp] theorem State.modCluster_net (c : Nat) (f : Cluster → Cluster) : (State.modCluster s c f).net = s.net := rfl
@[simp] theorem State.modCluster_mem (c : Nat) (f : Cluster → Cluster) : (State.modCluster s c f).mem = s.mem := rfl
@[simp] theorem State.modCluster_memc (c : Nat) (f : Cluster → Cluster) : (State.modCluster s c f).memc = s.memc := rfl
@[simp] theorem State.modCluster_gdc (c : Nat) (f : Cluster → Cluster) : (State.modCluster s c f).gdc = s.gdc := rfl
@[simp] theorem State.modCluster_cxlp (c : Nat) (f : Cluster → Cluster) : (State.modCluster s c f).cxlp = s.cxlp := rfl
@[simp] theorem State.modCluster_silk (c : Nat) (f : Cluster → Cluster) : (State.modCluster s c f).silk = s.silk := rfl
@[simp] theorem State.modCluster_pace (c : Nat) (f : Cluster → Cluster) : (State.modCluster s c f).pace = s.pace := rfl
@[simp] theorem State.modCluster_ent (c : Nat) (f : Cluster → Cluster) : (State.modCluster s c f).ent = s.ent := rfl
@[simp] theorem State.modCluster_mgmt (c : Nat) (f : Cluster → Cluster) : (State.modCluster s c f).mgmt = s.mgmt := rfl
@[simp] theorem State.modCluster_trace (c : Nat) (f : Cluster → Cluster) : (State.modCluster s c f).trace = s.trace := rfl

/-! ### State.modCore -/

@[simp] theorem State.modCore_pending (c l : Nat) (f : Core → Core) : (State.modCore s c l f).pending = s.pending := rfl
@[simp] theorem State.modCore_out (c l : Nat) (f : Core → Core) : (State.modCore s c l f).out = s.out := rfl
@[simp] theorem State.modCore_free (c l : Nat) (f : Core → Core) : (State.modCore s c l f).free = s.free := rfl
@[simp] theorem State.modCore_fuses (c l : Nat) (f : Core → Core) : (State.modCore s c l f).fuses = s.fuses := rfl
@[simp] theorem State.modCore_board (c l : Nat) (f : Core → Core) : (State.modCore s c l f).board = s.board := rfl
@[simp] theorem State.modCore_tap (c l : Nat) (f : Core → Core) : (State.modCore s c l f).tap = s.tap := rfl
@[simp] theorem State.modCore_hostp (c l : Nat) (f : Core → Core) : (State.modCore s c l f).hostp = s.hostp := rfl
@[simp] theorem State.modCore_disp (c l : Nat) (f : Core → Core) : (State.modCore s c l f).disp = s.disp := rfl
@[simp] theorem State.modCore_ctxs (c l : Nat) (f : Core → Core) : (State.modCore s c l f).ctxs = s.ctxs := rfl
@[simp] theorem State.modCore_ctxPoison (c l : Nat) (f : Core → Core) : (State.modCore s c l f).ctxPoison = s.ctxPoison := rfl
@[simp] theorem State.modCore_ctxCache (c l : Nat) (f : Core → Core) : (State.modCore s c l f).ctxCache = s.ctxCache := rfl
@[simp] theorem State.modCore_runs (c l : Nat) (f : Core → Core) : (State.modCore s c l f).runs = s.runs := rfl
@[simp] theorem State.modCore_loads (c l : Nat) (f : Core → Core) : (State.modCore s c l f).loads = s.loads := rfl
@[simp] theorem State.modCore_net (c l : Nat) (f : Core → Core) : (State.modCore s c l f).net = s.net := rfl
@[simp] theorem State.modCore_mem (c l : Nat) (f : Core → Core) : (State.modCore s c l f).mem = s.mem := rfl
@[simp] theorem State.modCore_memc (c l : Nat) (f : Core → Core) : (State.modCore s c l f).memc = s.memc := rfl
@[simp] theorem State.modCore_gdc (c l : Nat) (f : Core → Core) : (State.modCore s c l f).gdc = s.gdc := rfl
@[simp] theorem State.modCore_cxlp (c l : Nat) (f : Core → Core) : (State.modCore s c l f).cxlp = s.cxlp := rfl
@[simp] theorem State.modCore_silk (c l : Nat) (f : Core → Core) : (State.modCore s c l f).silk = s.silk := rfl
@[simp] theorem State.modCore_pace (c l : Nat) (f : Core → Core) : (State.modCore s c l f).pace = s.pace := rfl
@[simp] theorem State.modCore_ent (c l : Nat) (f : Core → Core) : (State.modCore s c l f).ent = s.ent := rfl
@[simp] theorem State.modCore_mgmt (c l : Nat) (f : Core → Core) : (State.modCore s c l f).mgmt = s.mgmt := rfl
@[simp] theorem State.modCore_trace (c l : Nat) (f : Core → Core) : (State.modCore s c l f).trace = s.trace := rfl

/-! ### State.modLaunch -/

@[simp] theorem State.modLaunch_pending (id : Nat) (f : Launch → Launch) : (State.modLaunch s id f).pending = s.pending := rfl
@[simp] theorem State.modLaunch_out (id : Nat) (f : Launch → Launch) : (State.modLaunch s id f).out = s.out := rfl
@[simp] theorem State.modLaunch_free (id : Nat) (f : Launch → Launch) : (State.modLaunch s id f).free = s.free := rfl
@[simp] theorem State.modLaunch_fuses (id : Nat) (f : Launch → Launch) : (State.modLaunch s id f).fuses = s.fuses := rfl
@[simp] theorem State.modLaunch_board (id : Nat) (f : Launch → Launch) : (State.modLaunch s id f).board = s.board := rfl
@[simp] theorem State.modLaunch_tap (id : Nat) (f : Launch → Launch) : (State.modLaunch s id f).tap = s.tap := rfl
@[simp] theorem State.modLaunch_hostp (id : Nat) (f : Launch → Launch) : (State.modLaunch s id f).hostp = s.hostp := rfl
@[simp] theorem State.modLaunch_ctxs (id : Nat) (f : Launch → Launch) : (State.modLaunch s id f).ctxs = s.ctxs := rfl
@[simp] theorem State.modLaunch_ctxPoison (id : Nat) (f : Launch → Launch) : (State.modLaunch s id f).ctxPoison = s.ctxPoison := rfl
@[simp] theorem State.modLaunch_ctxCache (id : Nat) (f : Launch → Launch) : (State.modLaunch s id f).ctxCache = s.ctxCache := rfl
@[simp] theorem State.modLaunch_runs (id : Nat) (f : Launch → Launch) : (State.modLaunch s id f).runs = s.runs := rfl
@[simp] theorem State.modLaunch_loads (id : Nat) (f : Launch → Launch) : (State.modLaunch s id f).loads = s.loads := rfl
@[simp] theorem State.modLaunch_clusters (id : Nat) (f : Launch → Launch) : (State.modLaunch s id f).clusters = s.clusters := rfl
@[simp] theorem State.modLaunch_net (id : Nat) (f : Launch → Launch) : (State.modLaunch s id f).net = s.net := rfl
@[simp] theorem State.modLaunch_mem (id : Nat) (f : Launch → Launch) : (State.modLaunch s id f).mem = s.mem := rfl
@[simp] theorem State.modLaunch_memc (id : Nat) (f : Launch → Launch) : (State.modLaunch s id f).memc = s.memc := rfl
@[simp] theorem State.modLaunch_gdc (id : Nat) (f : Launch → Launch) : (State.modLaunch s id f).gdc = s.gdc := rfl
@[simp] theorem State.modLaunch_cxlp (id : Nat) (f : Launch → Launch) : (State.modLaunch s id f).cxlp = s.cxlp := rfl
@[simp] theorem State.modLaunch_silk (id : Nat) (f : Launch → Launch) : (State.modLaunch s id f).silk = s.silk := rfl
@[simp] theorem State.modLaunch_pace (id : Nat) (f : Launch → Launch) : (State.modLaunch s id f).pace = s.pace := rfl
@[simp] theorem State.modLaunch_ent (id : Nat) (f : Launch → Launch) : (State.modLaunch s id f).ent = s.ent := rfl
@[simp] theorem State.modLaunch_mgmt (id : Nat) (f : Launch → Launch) : (State.modLaunch s id f).mgmt = s.mgmt := rfl
@[simp] theorem State.modLaunch_trace (id : Nat) (f : Launch → Launch) : (State.modLaunch s id f).trace = s.trace := rfl

/-! ### State.setBox -/

@[simp] theorem State.setBox_pending (m : Nat) (b : Box) : (State.setBox s m b).pending = s.pending := rfl
@[simp] theorem State.setBox_out (m : Nat) (b : Box) : (State.setBox s m b).out = s.out := rfl
@[simp] theorem State.setBox_free (m : Nat) (b : Box) : (State.setBox s m b).free = s.free := rfl
@[simp] theorem State.setBox_fuses (m : Nat) (b : Box) : (State.setBox s m b).fuses = s.fuses := rfl
@[simp] theorem State.setBox_board (m : Nat) (b : Box) : (State.setBox s m b).board = s.board := rfl
@[simp] theorem State.setBox_tap (m : Nat) (b : Box) : (State.setBox s m b).tap = s.tap := rfl
@[simp] theorem State.setBox_hostp (m : Nat) (b : Box) : (State.setBox s m b).hostp = s.hostp := rfl
@[simp] theorem State.setBox_disp (m : Nat) (b : Box) : (State.setBox s m b).disp = s.disp := rfl
@[simp] theorem State.setBox_ctxs (m : Nat) (b : Box) : (State.setBox s m b).ctxs = s.ctxs := rfl
@[simp] theorem State.setBox_ctxPoison (m : Nat) (b : Box) : (State.setBox s m b).ctxPoison = s.ctxPoison := rfl
@[simp] theorem State.setBox_ctxCache (m : Nat) (b : Box) : (State.setBox s m b).ctxCache = s.ctxCache := rfl
@[simp] theorem State.setBox_runs (m : Nat) (b : Box) : (State.setBox s m b).runs = s.runs := rfl
@[simp] theorem State.setBox_loads (m : Nat) (b : Box) : (State.setBox s m b).loads = s.loads := rfl
@[simp] theorem State.setBox_clusters (m : Nat) (b : Box) : (State.setBox s m b).clusters = s.clusters := rfl
@[simp] theorem State.setBox_net (m : Nat) (b : Box) : (State.setBox s m b).net = s.net := rfl
@[simp] theorem State.setBox_mem (m : Nat) (b : Box) : (State.setBox s m b).mem = s.mem := rfl
@[simp] theorem State.setBox_memc (m : Nat) (b : Box) : (State.setBox s m b).memc = s.memc := rfl
@[simp] theorem State.setBox_gdc (m : Nat) (b : Box) : (State.setBox s m b).gdc = s.gdc := rfl
@[simp] theorem State.setBox_cxlp (m : Nat) (b : Box) : (State.setBox s m b).cxlp = s.cxlp := rfl
@[simp] theorem State.setBox_silk (m : Nat) (b : Box) : (State.setBox s m b).silk = s.silk := rfl
@[simp] theorem State.setBox_pace (m : Nat) (b : Box) : (State.setBox s m b).pace = s.pace := rfl
@[simp] theorem State.setBox_ent (m : Nat) (b : Box) : (State.setBox s m b).ent = s.ent := rfl
@[simp] theorem State.setBox_trace (m : Nat) (b : Box) : (State.setBox s m b).trace = s.trace := rfl

/-! ### State.setQueue -/

@[simp] theorem State.setQueue_pending (q : Nat) (x : Queue) : (State.setQueue s q x).pending = s.pending := rfl
@[simp] theorem State.setQueue_out (q : Nat) (x : Queue) : (State.setQueue s q x).out = s.out := rfl
@[simp] theorem State.setQueue_free (q : Nat) (x : Queue) : (State.setQueue s q x).free = s.free := rfl
@[simp] theorem State.setQueue_fuses (q : Nat) (x : Queue) : (State.setQueue s q x).fuses = s.fuses := rfl
@[simp] theorem State.setQueue_board (q : Nat) (x : Queue) : (State.setQueue s q x).board = s.board := rfl
@[simp] theorem State.setQueue_tap (q : Nat) (x : Queue) : (State.setQueue s q x).tap = s.tap := rfl
@[simp] theorem State.setQueue_hostp (q : Nat) (x : Queue) : (State.setQueue s q x).hostp = s.hostp := rfl
@[simp] theorem State.setQueue_ctxs (q : Nat) (x : Queue) : (State.setQueue s q x).ctxs = s.ctxs := rfl
@[simp] theorem State.setQueue_ctxPoison (q : Nat) (x : Queue) : (State.setQueue s q x).ctxPoison = s.ctxPoison := rfl
@[simp] theorem State.setQueue_ctxCache (q : Nat) (x : Queue) : (State.setQueue s q x).ctxCache = s.ctxCache := rfl
@[simp] theorem State.setQueue_runs (q : Nat) (x : Queue) : (State.setQueue s q x).runs = s.runs := rfl
@[simp] theorem State.setQueue_loads (q : Nat) (x : Queue) : (State.setQueue s q x).loads = s.loads := rfl
@[simp] theorem State.setQueue_clusters (q : Nat) (x : Queue) : (State.setQueue s q x).clusters = s.clusters := rfl
@[simp] theorem State.setQueue_net (q : Nat) (x : Queue) : (State.setQueue s q x).net = s.net := rfl
@[simp] theorem State.setQueue_mem (q : Nat) (x : Queue) : (State.setQueue s q x).mem = s.mem := rfl
@[simp] theorem State.setQueue_memc (q : Nat) (x : Queue) : (State.setQueue s q x).memc = s.memc := rfl
@[simp] theorem State.setQueue_gdc (q : Nat) (x : Queue) : (State.setQueue s q x).gdc = s.gdc := rfl
@[simp] theorem State.setQueue_cxlp (q : Nat) (x : Queue) : (State.setQueue s q x).cxlp = s.cxlp := rfl
@[simp] theorem State.setQueue_silk (q : Nat) (x : Queue) : (State.setQueue s q x).silk = s.silk := rfl
@[simp] theorem State.setQueue_pace (q : Nat) (x : Queue) : (State.setQueue s q x).pace = s.pace := rfl
@[simp] theorem State.setQueue_ent (q : Nat) (x : Queue) : (State.setQueue s q x).ent = s.ent := rfl
@[simp] theorem State.setQueue_mgmt (q : Nat) (x : Queue) : (State.setQueue s q x).mgmt = s.mgmt := rfl
@[simp] theorem State.setQueue_trace (q : Nat) (x : Queue) : (State.setQueue s q x).trace = s.trace := rfl

/-! ### drawn -/

@[simp] theorem drawn_pending (n : Nat) : (drawn n s).pending = s.pending := rfl
@[simp] theorem drawn_out (n : Nat) : (drawn n s).out = s.out := rfl
@[simp] theorem drawn_fuses (n : Nat) : (drawn n s).fuses = s.fuses := rfl
@[simp] theorem drawn_board (n : Nat) : (drawn n s).board = s.board := rfl
@[simp] theorem drawn_tap (n : Nat) : (drawn n s).tap = s.tap := rfl
@[simp] theorem drawn_hostp (n : Nat) : (drawn n s).hostp = s.hostp := rfl
@[simp] theorem drawn_disp (n : Nat) : (drawn n s).disp = s.disp := rfl
@[simp] theorem drawn_ctxs (n : Nat) : (drawn n s).ctxs = s.ctxs := rfl
@[simp] theorem drawn_ctxPoison (n : Nat) : (drawn n s).ctxPoison = s.ctxPoison := rfl
@[simp] theorem drawn_ctxCache (n : Nat) : (drawn n s).ctxCache = s.ctxCache := rfl
@[simp] theorem drawn_runs (n : Nat) : (drawn n s).runs = s.runs := rfl
@[simp] theorem drawn_loads (n : Nat) : (drawn n s).loads = s.loads := rfl
@[simp] theorem drawn_clusters (n : Nat) : (drawn n s).clusters = s.clusters := rfl
@[simp] theorem drawn_net (n : Nat) : (drawn n s).net = s.net := rfl
@[simp] theorem drawn_mem (n : Nat) : (drawn n s).mem = s.mem := rfl
@[simp] theorem drawn_memc (n : Nat) : (drawn n s).memc = s.memc := rfl
@[simp] theorem drawn_gdc (n : Nat) : (drawn n s).gdc = s.gdc := rfl
@[simp] theorem drawn_cxlp (n : Nat) : (drawn n s).cxlp = s.cxlp := rfl
@[simp] theorem drawn_silk (n : Nat) : (drawn n s).silk = s.silk := rfl
@[simp] theorem drawn_pace (n : Nat) : (drawn n s).pace = s.pace := rfl
@[simp] theorem drawn_ent (n : Nat) : (drawn n s).ent = s.ent := rfl
@[simp] theorem drawn_mgmt (n : Nat) : (drawn n s).mgmt = s.mgmt := rfl
@[simp] theorem drawn_trace (n : Nat) : (drawn n s).trace = s.trace := rfl

/-! ### logEventIf -/

@[simp] theorem logEventIf_pending (b : Bool) (k src w d : Nat) : (logEventIf b k src w d s).pending = s.pending := rfl
@[simp] theorem logEventIf_out (b : Bool) (k src w d : Nat) : (logEventIf b k src w d s).out = s.out := rfl
@[simp] theorem logEventIf_free (b : Bool) (k src w d : Nat) : (logEventIf b k src w d s).free = s.free := rfl
@[simp] theorem logEventIf_fuses (b : Bool) (k src w d : Nat) : (logEventIf b k src w d s).fuses = s.fuses := rfl
@[simp] theorem logEventIf_board (b : Bool) (k src w d : Nat) : (logEventIf b k src w d s).board = s.board := rfl
@[simp] theorem logEventIf_tap (b : Bool) (k src w d : Nat) : (logEventIf b k src w d s).tap = s.tap := rfl
@[simp] theorem logEventIf_hostp (b : Bool) (k src w d : Nat) : (logEventIf b k src w d s).hostp = s.hostp := rfl
@[simp] theorem logEventIf_disp (b : Bool) (k src w d : Nat) : (logEventIf b k src w d s).disp = s.disp := rfl
@[simp] theorem logEventIf_ctxs (b : Bool) (k src w d : Nat) : (logEventIf b k src w d s).ctxs = s.ctxs := rfl
@[simp] theorem logEventIf_ctxPoison (b : Bool) (k src w d : Nat) : (logEventIf b k src w d s).ctxPoison = s.ctxPoison := rfl
@[simp] theorem logEventIf_ctxCache (b : Bool) (k src w d : Nat) : (logEventIf b k src w d s).ctxCache = s.ctxCache := rfl
@[simp] theorem logEventIf_runs (b : Bool) (k src w d : Nat) : (logEventIf b k src w d s).runs = s.runs := rfl
@[simp] theorem logEventIf_loads (b : Bool) (k src w d : Nat) : (logEventIf b k src w d s).loads = s.loads := rfl
@[simp] theorem logEventIf_clusters (b : Bool) (k src w d : Nat) : (logEventIf b k src w d s).clusters = s.clusters := rfl
@[simp] theorem logEventIf_mem (b : Bool) (k src w d : Nat) : (logEventIf b k src w d s).mem = s.mem := rfl
@[simp] theorem logEventIf_memc (b : Bool) (k src w d : Nat) : (logEventIf b k src w d s).memc = s.memc := rfl
@[simp] theorem logEventIf_gdc (b : Bool) (k src w d : Nat) : (logEventIf b k src w d s).gdc = s.gdc := rfl
@[simp] theorem logEventIf_cxlp (b : Bool) (k src w d : Nat) : (logEventIf b k src w d s).cxlp = s.cxlp := rfl
@[simp] theorem logEventIf_silk (b : Bool) (k src w d : Nat) : (logEventIf b k src w d s).silk = s.silk := rfl
@[simp] theorem logEventIf_pace (b : Bool) (k src w d : Nat) : (logEventIf b k src w d s).pace = s.pace := rfl
@[simp] theorem logEventIf_ent (b : Bool) (k src w d : Nat) : (logEventIf b k src w d s).ent = s.ent := rfl
@[simp] theorem logEventIf_mgmt (b : Bool) (k src w d : Nat) : (logEventIf b k src w d s).mgmt = s.mgmt := rfl
@[simp] theorem logEventIf_trace (b : Bool) (k src w d : Nat) : (logEventIf b k src w d s).trace = s.trace := rfl

/-! ### logEvent -/

@[simp] theorem logEvent_pending (k src w d : Nat) : (logEvent k src w d s).pending = s.pending := by simp [logEvent]
@[simp] theorem logEvent_out (k src w d : Nat) : (logEvent k src w d s).out = s.out := by simp [logEvent]
@[simp] theorem logEvent_free (k src w d : Nat) : (logEvent k src w d s).free = s.free := by simp [logEvent]
@[simp] theorem logEvent_fuses (k src w d : Nat) : (logEvent k src w d s).fuses = s.fuses := by simp [logEvent]
@[simp] theorem logEvent_board (k src w d : Nat) : (logEvent k src w d s).board = s.board := by simp [logEvent]
@[simp] theorem logEvent_tap (k src w d : Nat) : (logEvent k src w d s).tap = s.tap := by simp [logEvent]
@[simp] theorem logEvent_hostp (k src w d : Nat) : (logEvent k src w d s).hostp = s.hostp := by simp [logEvent]
@[simp] theorem logEvent_disp (k src w d : Nat) : (logEvent k src w d s).disp = s.disp := by simp [logEvent]
@[simp] theorem logEvent_ctxs (k src w d : Nat) : (logEvent k src w d s).ctxs = s.ctxs := by simp [logEvent]
@[simp] theorem logEvent_ctxPoison (k src w d : Nat) : (logEvent k src w d s).ctxPoison = s.ctxPoison := by simp [logEvent]
@[simp] theorem logEvent_ctxCache (k src w d : Nat) : (logEvent k src w d s).ctxCache = s.ctxCache := by simp [logEvent]
@[simp] theorem logEvent_runs (k src w d : Nat) : (logEvent k src w d s).runs = s.runs := by simp [logEvent]
@[simp] theorem logEvent_loads (k src w d : Nat) : (logEvent k src w d s).loads = s.loads := by simp [logEvent]
@[simp] theorem logEvent_clusters (k src w d : Nat) : (logEvent k src w d s).clusters = s.clusters := by simp [logEvent]
@[simp] theorem logEvent_mem (k src w d : Nat) : (logEvent k src w d s).mem = s.mem := by simp [logEvent]
@[simp] theorem logEvent_memc (k src w d : Nat) : (logEvent k src w d s).memc = s.memc := by simp [logEvent]
@[simp] theorem logEvent_gdc (k src w d : Nat) : (logEvent k src w d s).gdc = s.gdc := by simp [logEvent]
@[simp] theorem logEvent_cxlp (k src w d : Nat) : (logEvent k src w d s).cxlp = s.cxlp := by simp [logEvent]
@[simp] theorem logEvent_silk (k src w d : Nat) : (logEvent k src w d s).silk = s.silk := by simp [logEvent]
@[simp] theorem logEvent_pace (k src w d : Nat) : (logEvent k src w d s).pace = s.pace := by simp [logEvent]
@[simp] theorem logEvent_ent (k src w d : Nat) : (logEvent k src w d s).ent = s.ent := by simp [logEvent]
@[simp] theorem logEvent_mgmt (k src w d : Nat) : (logEvent k src w d s).mgmt = s.mgmt := by simp [logEvent]
@[simp] theorem logEvent_trace (k src w d : Nat) : (logEvent k src w d s).trace = s.trace := by simp [logEvent]

/-! ### sendResult -/

@[simp] theorem sendResult_pending (src : Nat) (r : Result) : (sendResult src r s).pending = s.pending := rfl
@[simp] theorem sendResult_out (src : Nat) (r : Result) : (sendResult src r s).out = s.out := rfl
@[simp] theorem sendResult_free (src : Nat) (r : Result) : (sendResult src r s).free = s.free := rfl
@[simp] theorem sendResult_fuses (src : Nat) (r : Result) : (sendResult src r s).fuses = s.fuses := rfl
@[simp] theorem sendResult_board (src : Nat) (r : Result) : (sendResult src r s).board = s.board := rfl
@[simp] theorem sendResult_tap (src : Nat) (r : Result) : (sendResult src r s).tap = s.tap := rfl
@[simp] theorem sendResult_hostp (src : Nat) (r : Result) : (sendResult src r s).hostp = s.hostp := rfl
@[simp] theorem sendResult_disp (src : Nat) (r : Result) : (sendResult src r s).disp = s.disp := rfl
@[simp] theorem sendResult_ctxs (src : Nat) (r : Result) : (sendResult src r s).ctxs = s.ctxs := rfl
@[simp] theorem sendResult_ctxPoison (src : Nat) (r : Result) : (sendResult src r s).ctxPoison = s.ctxPoison := rfl
@[simp] theorem sendResult_ctxCache (src : Nat) (r : Result) : (sendResult src r s).ctxCache = s.ctxCache := rfl
@[simp] theorem sendResult_runs (src : Nat) (r : Result) : (sendResult src r s).runs = s.runs := rfl
@[simp] theorem sendResult_loads (src : Nat) (r : Result) : (sendResult src r s).loads = s.loads := rfl
@[simp] theorem sendResult_clusters (src : Nat) (r : Result) : (sendResult src r s).clusters = s.clusters := rfl
@[simp] theorem sendResult_mem (src : Nat) (r : Result) : (sendResult src r s).mem = s.mem := rfl
@[simp] theorem sendResult_memc (src : Nat) (r : Result) : (sendResult src r s).memc = s.memc := rfl
@[simp] theorem sendResult_gdc (src : Nat) (r : Result) : (sendResult src r s).gdc = s.gdc := rfl
@[simp] theorem sendResult_cxlp (src : Nat) (r : Result) : (sendResult src r s).cxlp = s.cxlp := rfl
@[simp] theorem sendResult_silk (src : Nat) (r : Result) : (sendResult src r s).silk = s.silk := rfl
@[simp] theorem sendResult_pace (src : Nat) (r : Result) : (sendResult src r s).pace = s.pace := rfl
@[simp] theorem sendResult_ent (src : Nat) (r : Result) : (sendResult src r s).ent = s.ent := rfl
@[simp] theorem sendResult_mgmt (src : Nat) (r : Result) : (sendResult src r s).mgmt = s.mgmt := rfl
@[simp] theorem sendResult_trace (src : Nat) (r : Result) : (sendResult src r s).trace = s.trace := rfl

/-! ### orderTo -/

@[simp] theorem orderTo_pending (u : UnitKind) (c k : Nat) (o : Order) : (orderTo u c k o s).pending = s.pending := rfl
@[simp] theorem orderTo_out (u : UnitKind) (c k : Nat) (o : Order) : (orderTo u c k o s).out = s.out := rfl
@[simp] theorem orderTo_free (u : UnitKind) (c k : Nat) (o : Order) : (orderTo u c k o s).free = s.free := rfl
@[simp] theorem orderTo_fuses (u : UnitKind) (c k : Nat) (o : Order) : (orderTo u c k o s).fuses = s.fuses := rfl
@[simp] theorem orderTo_board (u : UnitKind) (c k : Nat) (o : Order) : (orderTo u c k o s).board = s.board := rfl
@[simp] theorem orderTo_tap (u : UnitKind) (c k : Nat) (o : Order) : (orderTo u c k o s).tap = s.tap := rfl
@[simp] theorem orderTo_hostp (u : UnitKind) (c k : Nat) (o : Order) : (orderTo u c k o s).hostp = s.hostp := rfl
@[simp] theorem orderTo_disp (u : UnitKind) (c k : Nat) (o : Order) : (orderTo u c k o s).disp = s.disp := rfl
@[simp] theorem orderTo_ctxs (u : UnitKind) (c k : Nat) (o : Order) : (orderTo u c k o s).ctxs = s.ctxs := rfl
@[simp] theorem orderTo_ctxPoison (u : UnitKind) (c k : Nat) (o : Order) : (orderTo u c k o s).ctxPoison = s.ctxPoison := rfl
@[simp] theorem orderTo_ctxCache (u : UnitKind) (c k : Nat) (o : Order) : (orderTo u c k o s).ctxCache = s.ctxCache := rfl
@[simp] theorem orderTo_runs (u : UnitKind) (c k : Nat) (o : Order) : (orderTo u c k o s).runs = s.runs := rfl
@[simp] theorem orderTo_loads (u : UnitKind) (c k : Nat) (o : Order) : (orderTo u c k o s).loads = s.loads := rfl
@[simp] theorem orderTo_clusters (u : UnitKind) (c k : Nat) (o : Order) : (orderTo u c k o s).clusters = s.clusters := rfl
@[simp] theorem orderTo_mem (u : UnitKind) (c k : Nat) (o : Order) : (orderTo u c k o s).mem = s.mem := rfl
@[simp] theorem orderTo_memc (u : UnitKind) (c k : Nat) (o : Order) : (orderTo u c k o s).memc = s.memc := rfl
@[simp] theorem orderTo_gdc (u : UnitKind) (c k : Nat) (o : Order) : (orderTo u c k o s).gdc = s.gdc := rfl
@[simp] theorem orderTo_cxlp (u : UnitKind) (c k : Nat) (o : Order) : (orderTo u c k o s).cxlp = s.cxlp := rfl
@[simp] theorem orderTo_silk (u : UnitKind) (c k : Nat) (o : Order) : (orderTo u c k o s).silk = s.silk := rfl
@[simp] theorem orderTo_pace (u : UnitKind) (c k : Nat) (o : Order) : (orderTo u c k o s).pace = s.pace := rfl
@[simp] theorem orderTo_ent (u : UnitKind) (c k : Nat) (o : Order) : (orderTo u c k o s).ent = s.ent := rfl
@[simp] theorem orderTo_mgmt (u : UnitKind) (c k : Nat) (o : Order) : (orderTo u c k o s).mgmt = s.mgmt := rfl
@[simp] theorem orderTo_trace (u : UnitKind) (c k : Nat) (o : Order) : (orderTo u c k o s).trace = s.trace := rfl

/-! ### sendOrder -/

@[simp] theorem sendOrder_pending (c : Nat) (o : Order) : (sendOrder c o s).pending = s.pending := rfl
@[simp] theorem sendOrder_out (c : Nat) (o : Order) : (sendOrder c o s).out = s.out := rfl
@[simp] theorem sendOrder_free (c : Nat) (o : Order) : (sendOrder c o s).free = s.free := rfl
@[simp] theorem sendOrder_fuses (c : Nat) (o : Order) : (sendOrder c o s).fuses = s.fuses := rfl
@[simp] theorem sendOrder_board (c : Nat) (o : Order) : (sendOrder c o s).board = s.board := rfl
@[simp] theorem sendOrder_tap (c : Nat) (o : Order) : (sendOrder c o s).tap = s.tap := rfl
@[simp] theorem sendOrder_hostp (c : Nat) (o : Order) : (sendOrder c o s).hostp = s.hostp := rfl
@[simp] theorem sendOrder_disp (c : Nat) (o : Order) : (sendOrder c o s).disp = s.disp := rfl
@[simp] theorem sendOrder_ctxs (c : Nat) (o : Order) : (sendOrder c o s).ctxs = s.ctxs := rfl
@[simp] theorem sendOrder_ctxPoison (c : Nat) (o : Order) : (sendOrder c o s).ctxPoison = s.ctxPoison := rfl
@[simp] theorem sendOrder_ctxCache (c : Nat) (o : Order) : (sendOrder c o s).ctxCache = s.ctxCache := rfl
@[simp] theorem sendOrder_runs (c : Nat) (o : Order) : (sendOrder c o s).runs = s.runs := rfl
@[simp] theorem sendOrder_loads (c : Nat) (o : Order) : (sendOrder c o s).loads = s.loads := rfl
@[simp] theorem sendOrder_clusters (c : Nat) (o : Order) : (sendOrder c o s).clusters = s.clusters := rfl
@[simp] theorem sendOrder_mem (c : Nat) (o : Order) : (sendOrder c o s).mem = s.mem := rfl
@[simp] theorem sendOrder_memc (c : Nat) (o : Order) : (sendOrder c o s).memc = s.memc := rfl
@[simp] theorem sendOrder_gdc (c : Nat) (o : Order) : (sendOrder c o s).gdc = s.gdc := rfl
@[simp] theorem sendOrder_cxlp (c : Nat) (o : Order) : (sendOrder c o s).cxlp = s.cxlp := rfl
@[simp] theorem sendOrder_silk (c : Nat) (o : Order) : (sendOrder c o s).silk = s.silk := rfl
@[simp] theorem sendOrder_pace (c : Nat) (o : Order) : (sendOrder c o s).pace = s.pace := rfl
@[simp] theorem sendOrder_ent (c : Nat) (o : Order) : (sendOrder c o s).ent = s.ent := rfl
@[simp] theorem sendOrder_mgmt (c : Nat) (o : Order) : (sendOrder c o s).mgmt = s.mgmt := rfl
@[simp] theorem sendOrder_trace (c : Nat) (o : Order) : (sendOrder c o s).trace = s.trace := rfl

/-! ### orderDispatcher -/

@[simp] theorem orderDispatcher_pending (o : Order) : (orderDispatcher o s).pending = s.pending := rfl
@[simp] theorem orderDispatcher_out (o : Order) : (orderDispatcher o s).out = s.out := rfl
@[simp] theorem orderDispatcher_free (o : Order) : (orderDispatcher o s).free = s.free := rfl
@[simp] theorem orderDispatcher_fuses (o : Order) : (orderDispatcher o s).fuses = s.fuses := rfl
@[simp] theorem orderDispatcher_board (o : Order) : (orderDispatcher o s).board = s.board := rfl
@[simp] theorem orderDispatcher_tap (o : Order) : (orderDispatcher o s).tap = s.tap := rfl
@[simp] theorem orderDispatcher_hostp (o : Order) : (orderDispatcher o s).hostp = s.hostp := rfl
@[simp] theorem orderDispatcher_disp (o : Order) : (orderDispatcher o s).disp = s.disp := rfl
@[simp] theorem orderDispatcher_ctxs (o : Order) : (orderDispatcher o s).ctxs = s.ctxs := rfl
@[simp] theorem orderDispatcher_ctxPoison (o : Order) : (orderDispatcher o s).ctxPoison = s.ctxPoison := rfl
@[simp] theorem orderDispatcher_ctxCache (o : Order) : (orderDispatcher o s).ctxCache = s.ctxCache := rfl
@[simp] theorem orderDispatcher_runs (o : Order) : (orderDispatcher o s).runs = s.runs := rfl
@[simp] theorem orderDispatcher_loads (o : Order) : (orderDispatcher o s).loads = s.loads := rfl
@[simp] theorem orderDispatcher_clusters (o : Order) : (orderDispatcher o s).clusters = s.clusters := rfl
@[simp] theorem orderDispatcher_mem (o : Order) : (orderDispatcher o s).mem = s.mem := rfl
@[simp] theorem orderDispatcher_memc (o : Order) : (orderDispatcher o s).memc = s.memc := rfl
@[simp] theorem orderDispatcher_gdc (o : Order) : (orderDispatcher o s).gdc = s.gdc := rfl
@[simp] theorem orderDispatcher_cxlp (o : Order) : (orderDispatcher o s).cxlp = s.cxlp := rfl
@[simp] theorem orderDispatcher_silk (o : Order) : (orderDispatcher o s).silk = s.silk := rfl
@[simp] theorem orderDispatcher_pace (o : Order) : (orderDispatcher o s).pace = s.pace := rfl
@[simp] theorem orderDispatcher_ent (o : Order) : (orderDispatcher o s).ent = s.ent := rfl
@[simp] theorem orderDispatcher_mgmt (o : Order) : (orderDispatcher o s).mgmt = s.mgmt := rfl
@[simp] theorem orderDispatcher_trace (o : Order) : (orderDispatcher o s).trace = s.trace := rfl

/-! ### orderHub -/

@[simp] theorem orderHub_pending (u : Nat) (o : Order) : (orderHub u o s).pending = s.pending := rfl
@[simp] theorem orderHub_out (u : Nat) (o : Order) : (orderHub u o s).out = s.out := rfl
@[simp] theorem orderHub_free (u : Nat) (o : Order) : (orderHub u o s).free = s.free := rfl
@[simp] theorem orderHub_fuses (u : Nat) (o : Order) : (orderHub u o s).fuses = s.fuses := rfl
@[simp] theorem orderHub_board (u : Nat) (o : Order) : (orderHub u o s).board = s.board := rfl
@[simp] theorem orderHub_tap (u : Nat) (o : Order) : (orderHub u o s).tap = s.tap := rfl
@[simp] theorem orderHub_hostp (u : Nat) (o : Order) : (orderHub u o s).hostp = s.hostp := rfl
@[simp] theorem orderHub_disp (u : Nat) (o : Order) : (orderHub u o s).disp = s.disp := rfl
@[simp] theorem orderHub_ctxs (u : Nat) (o : Order) : (orderHub u o s).ctxs = s.ctxs := rfl
@[simp] theorem orderHub_ctxPoison (u : Nat) (o : Order) : (orderHub u o s).ctxPoison = s.ctxPoison := rfl
@[simp] theorem orderHub_ctxCache (u : Nat) (o : Order) : (orderHub u o s).ctxCache = s.ctxCache := rfl
@[simp] theorem orderHub_runs (u : Nat) (o : Order) : (orderHub u o s).runs = s.runs := rfl
@[simp] theorem orderHub_loads (u : Nat) (o : Order) : (orderHub u o s).loads = s.loads := rfl
@[simp] theorem orderHub_clusters (u : Nat) (o : Order) : (orderHub u o s).clusters = s.clusters := rfl
@[simp] theorem orderHub_mem (u : Nat) (o : Order) : (orderHub u o s).mem = s.mem := rfl
@[simp] theorem orderHub_memc (u : Nat) (o : Order) : (orderHub u o s).memc = s.memc := rfl
@[simp] theorem orderHub_gdc (u : Nat) (o : Order) : (orderHub u o s).gdc = s.gdc := rfl
@[simp] theorem orderHub_cxlp (u : Nat) (o : Order) : (orderHub u o s).cxlp = s.cxlp := rfl
@[simp] theorem orderHub_silk (u : Nat) (o : Order) : (orderHub u o s).silk = s.silk := rfl
@[simp] theorem orderHub_pace (u : Nat) (o : Order) : (orderHub u o s).pace = s.pace := rfl
@[simp] theorem orderHub_ent (u : Nat) (o : Order) : (orderHub u o s).ent = s.ent := rfl
@[simp] theorem orderHub_mgmt (u : Nat) (o : Order) : (orderHub u o s).mgmt = s.mgmt := rfl
@[simp] theorem orderHub_trace (u : Nat) (o : Order) : (orderHub u o s).trace = s.trace := rfl

/-! ### pushPort -/

@[simp] theorem pushPort_pending (n : Nat) (ps : List Pkt) : (pushPort n ps s).pending = s.pending := rfl
@[simp] theorem pushPort_out (n : Nat) (ps : List Pkt) : (pushPort n ps s).out = s.out := rfl
@[simp] theorem pushPort_free (n : Nat) (ps : List Pkt) : (pushPort n ps s).free = s.free := rfl
@[simp] theorem pushPort_fuses (n : Nat) (ps : List Pkt) : (pushPort n ps s).fuses = s.fuses := rfl
@[simp] theorem pushPort_board (n : Nat) (ps : List Pkt) : (pushPort n ps s).board = s.board := rfl
@[simp] theorem pushPort_tap (n : Nat) (ps : List Pkt) : (pushPort n ps s).tap = s.tap := rfl
@[simp] theorem pushPort_hostp (n : Nat) (ps : List Pkt) : (pushPort n ps s).hostp = s.hostp := rfl
@[simp] theorem pushPort_disp (n : Nat) (ps : List Pkt) : (pushPort n ps s).disp = s.disp := rfl
@[simp] theorem pushPort_ctxs (n : Nat) (ps : List Pkt) : (pushPort n ps s).ctxs = s.ctxs := rfl
@[simp] theorem pushPort_ctxPoison (n : Nat) (ps : List Pkt) : (pushPort n ps s).ctxPoison = s.ctxPoison := rfl
@[simp] theorem pushPort_ctxCache (n : Nat) (ps : List Pkt) : (pushPort n ps s).ctxCache = s.ctxCache := rfl
@[simp] theorem pushPort_runs (n : Nat) (ps : List Pkt) : (pushPort n ps s).runs = s.runs := rfl
@[simp] theorem pushPort_loads (n : Nat) (ps : List Pkt) : (pushPort n ps s).loads = s.loads := rfl
@[simp] theorem pushPort_clusters (n : Nat) (ps : List Pkt) : (pushPort n ps s).clusters = s.clusters := rfl
@[simp] theorem pushPort_mem (n : Nat) (ps : List Pkt) : (pushPort n ps s).mem = s.mem := rfl
@[simp] theorem pushPort_memc (n : Nat) (ps : List Pkt) : (pushPort n ps s).memc = s.memc := rfl
@[simp] theorem pushPort_gdc (n : Nat) (ps : List Pkt) : (pushPort n ps s).gdc = s.gdc := rfl
@[simp] theorem pushPort_cxlp (n : Nat) (ps : List Pkt) : (pushPort n ps s).cxlp = s.cxlp := rfl
@[simp] theorem pushPort_silk (n : Nat) (ps : List Pkt) : (pushPort n ps s).silk = s.silk := rfl
@[simp] theorem pushPort_pace (n : Nat) (ps : List Pkt) : (pushPort n ps s).pace = s.pace := rfl
@[simp] theorem pushPort_ent (n : Nat) (ps : List Pkt) : (pushPort n ps s).ent = s.ent := rfl
@[simp] theorem pushPort_mgmt (n : Nat) (ps : List Pkt) : (pushPort n ps s).mgmt = s.mgmt := rfl
@[simp] theorem pushPort_trace (n : Nat) (ps : List Pkt) : (pushPort n ps s).trace = s.trace := rfl

/-! ### overflowEvent -/

@[simp] theorem overflowEvent_pending (b : Bool) (src r : Nat) : (overflowEvent b src r s).pending = s.pending := by simp [overflowEvent]
@[simp] theorem overflowEvent_out (b : Bool) (src r : Nat) : (overflowEvent b src r s).out = s.out := by simp [overflowEvent]
@[simp] theorem overflowEvent_free (b : Bool) (src r : Nat) : (overflowEvent b src r s).free = s.free := by simp [overflowEvent]
@[simp] theorem overflowEvent_fuses (b : Bool) (src r : Nat) : (overflowEvent b src r s).fuses = s.fuses := by simp [overflowEvent]
@[simp] theorem overflowEvent_board (b : Bool) (src r : Nat) : (overflowEvent b src r s).board = s.board := by simp [overflowEvent]
@[simp] theorem overflowEvent_tap (b : Bool) (src r : Nat) : (overflowEvent b src r s).tap = s.tap := by simp [overflowEvent]
@[simp] theorem overflowEvent_hostp (b : Bool) (src r : Nat) : (overflowEvent b src r s).hostp = s.hostp := by simp [overflowEvent]
@[simp] theorem overflowEvent_disp (b : Bool) (src r : Nat) : (overflowEvent b src r s).disp = s.disp := by simp [overflowEvent]
@[simp] theorem overflowEvent_ctxs (b : Bool) (src r : Nat) : (overflowEvent b src r s).ctxs = s.ctxs := by simp [overflowEvent]
@[simp] theorem overflowEvent_ctxPoison (b : Bool) (src r : Nat) : (overflowEvent b src r s).ctxPoison = s.ctxPoison := by simp [overflowEvent]
@[simp] theorem overflowEvent_ctxCache (b : Bool) (src r : Nat) : (overflowEvent b src r s).ctxCache = s.ctxCache := by simp [overflowEvent]
@[simp] theorem overflowEvent_runs (b : Bool) (src r : Nat) : (overflowEvent b src r s).runs = s.runs := by simp [overflowEvent]
@[simp] theorem overflowEvent_loads (b : Bool) (src r : Nat) : (overflowEvent b src r s).loads = s.loads := by simp [overflowEvent]
@[simp] theorem overflowEvent_clusters (b : Bool) (src r : Nat) : (overflowEvent b src r s).clusters = s.clusters := by simp [overflowEvent]
@[simp] theorem overflowEvent_mem (b : Bool) (src r : Nat) : (overflowEvent b src r s).mem = s.mem := by simp [overflowEvent]
@[simp] theorem overflowEvent_memc (b : Bool) (src r : Nat) : (overflowEvent b src r s).memc = s.memc := by simp [overflowEvent]
@[simp] theorem overflowEvent_gdc (b : Bool) (src r : Nat) : (overflowEvent b src r s).gdc = s.gdc := by simp [overflowEvent]
@[simp] theorem overflowEvent_cxlp (b : Bool) (src r : Nat) : (overflowEvent b src r s).cxlp = s.cxlp := by simp [overflowEvent]
@[simp] theorem overflowEvent_silk (b : Bool) (src r : Nat) : (overflowEvent b src r s).silk = s.silk := by simp [overflowEvent]
@[simp] theorem overflowEvent_pace (b : Bool) (src r : Nat) : (overflowEvent b src r s).pace = s.pace := by simp [overflowEvent]
@[simp] theorem overflowEvent_ent (b : Bool) (src r : Nat) : (overflowEvent b src r s).ent = s.ent := by simp [overflowEvent]
@[simp] theorem overflowEvent_mgmt (b : Bool) (src r : Nat) : (overflowEvent b src r s).mgmt = s.mgmt := by simp [overflowEvent]
@[simp] theorem overflowEvent_trace (b : Bool) (src r : Nat) : (overflowEvent b src r s).trace = s.trace := by simp [overflowEvent]

/-! ### memcEvent -/

@[simp] theorem memcEvent_pending (b : Nat) : (memcEvent b s).pending = s.pending := rfl
@[simp] theorem memcEvent_out (b : Nat) : (memcEvent b s).out = s.out := rfl
@[simp] theorem memcEvent_free (b : Nat) : (memcEvent b s).free = s.free := rfl
@[simp] theorem memcEvent_fuses (b : Nat) : (memcEvent b s).fuses = s.fuses := rfl
@[simp] theorem memcEvent_board (b : Nat) : (memcEvent b s).board = s.board := rfl
@[simp] theorem memcEvent_tap (b : Nat) : (memcEvent b s).tap = s.tap := rfl
@[simp] theorem memcEvent_hostp (b : Nat) : (memcEvent b s).hostp = s.hostp := rfl
@[simp] theorem memcEvent_disp (b : Nat) : (memcEvent b s).disp = s.disp := rfl
@[simp] theorem memcEvent_ctxs (b : Nat) : (memcEvent b s).ctxs = s.ctxs := rfl
@[simp] theorem memcEvent_ctxPoison (b : Nat) : (memcEvent b s).ctxPoison = s.ctxPoison := rfl
@[simp] theorem memcEvent_ctxCache (b : Nat) : (memcEvent b s).ctxCache = s.ctxCache := rfl
@[simp] theorem memcEvent_runs (b : Nat) : (memcEvent b s).runs = s.runs := rfl
@[simp] theorem memcEvent_loads (b : Nat) : (memcEvent b s).loads = s.loads := rfl
@[simp] theorem memcEvent_clusters (b : Nat) : (memcEvent b s).clusters = s.clusters := rfl
@[simp] theorem memcEvent_net (b : Nat) : (memcEvent b s).net = s.net := rfl
@[simp] theorem memcEvent_mem (b : Nat) : (memcEvent b s).mem = s.mem := rfl
@[simp] theorem memcEvent_gdc (b : Nat) : (memcEvent b s).gdc = s.gdc := rfl
@[simp] theorem memcEvent_cxlp (b : Nat) : (memcEvent b s).cxlp = s.cxlp := rfl
@[simp] theorem memcEvent_silk (b : Nat) : (memcEvent b s).silk = s.silk := rfl
@[simp] theorem memcEvent_pace (b : Nat) : (memcEvent b s).pace = s.pace := rfl
@[simp] theorem memcEvent_ent (b : Nat) : (memcEvent b s).ent = s.ent := rfl
@[simp] theorem memcEvent_mgmt (b : Nat) : (memcEvent b s).mgmt = s.mgmt := rfl
@[simp] theorem memcEvent_trace (b : Nat) : (memcEvent b s).trace = s.trace := rfl

/-! ### gdcEvent -/

@[simp] theorem gdcEvent_pending (q b : Nat) : (gdcEvent q b s).pending = s.pending := by simp [gdcEvent]
@[simp] theorem gdcEvent_out (q b : Nat) : (gdcEvent q b s).out = s.out := by simp [gdcEvent]
@[simp] theorem gdcEvent_free (q b : Nat) : (gdcEvent q b s).free = s.free := by simp [gdcEvent]
@[simp] theorem gdcEvent_fuses (q b : Nat) : (gdcEvent q b s).fuses = s.fuses := by simp [gdcEvent]
@[simp] theorem gdcEvent_board (q b : Nat) : (gdcEvent q b s).board = s.board := by simp [gdcEvent]
@[simp] theorem gdcEvent_tap (q b : Nat) : (gdcEvent q b s).tap = s.tap := by simp [gdcEvent]
@[simp] theorem gdcEvent_hostp (q b : Nat) : (gdcEvent q b s).hostp = s.hostp := by simp [gdcEvent]
@[simp] theorem gdcEvent_disp (q b : Nat) : (gdcEvent q b s).disp = s.disp := by simp [gdcEvent]
@[simp] theorem gdcEvent_ctxs (q b : Nat) : (gdcEvent q b s).ctxs = s.ctxs := by simp [gdcEvent]
@[simp] theorem gdcEvent_ctxPoison (q b : Nat) : (gdcEvent q b s).ctxPoison = s.ctxPoison := by simp [gdcEvent]
@[simp] theorem gdcEvent_ctxCache (q b : Nat) : (gdcEvent q b s).ctxCache = s.ctxCache := by simp [gdcEvent]
@[simp] theorem gdcEvent_runs (q b : Nat) : (gdcEvent q b s).runs = s.runs := by simp [gdcEvent]
@[simp] theorem gdcEvent_loads (q b : Nat) : (gdcEvent q b s).loads = s.loads := by simp [gdcEvent]
@[simp] theorem gdcEvent_clusters (q b : Nat) : (gdcEvent q b s).clusters = s.clusters := by simp [gdcEvent]
@[simp] theorem gdcEvent_net (q b : Nat) : (gdcEvent q b s).net = s.net := by simp [gdcEvent]
@[simp] theorem gdcEvent_mem (q b : Nat) : (gdcEvent q b s).mem = s.mem := by simp [gdcEvent]
@[simp] theorem gdcEvent_memc (q b : Nat) : (gdcEvent q b s).memc = s.memc := by simp [gdcEvent]
@[simp] theorem gdcEvent_cxlp (q b : Nat) : (gdcEvent q b s).cxlp = s.cxlp := by simp [gdcEvent]
@[simp] theorem gdcEvent_silk (q b : Nat) : (gdcEvent q b s).silk = s.silk := by simp [gdcEvent]
@[simp] theorem gdcEvent_pace (q b : Nat) : (gdcEvent q b s).pace = s.pace := by simp [gdcEvent]
@[simp] theorem gdcEvent_ent (q b : Nat) : (gdcEvent q b s).ent = s.ent := by simp [gdcEvent]
@[simp] theorem gdcEvent_mgmt (q b : Nat) : (gdcEvent q b s).mgmt = s.mgmt := by simp [gdcEvent]
@[simp] theorem gdcEvent_trace (q b : Nat) : (gdcEvent q b s).trace = s.trace := by simp [gdcEvent]

/-! ### cxlEvent -/

@[simp] theorem cxlEvent_pending (d b : Nat) : (cxlEvent d b s).pending = s.pending := by simp [cxlEvent]
@[simp] theorem cxlEvent_out (d b : Nat) : (cxlEvent d b s).out = s.out := by simp [cxlEvent]
@[simp] theorem cxlEvent_free (d b : Nat) : (cxlEvent d b s).free = s.free := by simp [cxlEvent]
@[simp] theorem cxlEvent_fuses (d b : Nat) : (cxlEvent d b s).fuses = s.fuses := by simp [cxlEvent]
@[simp] theorem cxlEvent_board (d b : Nat) : (cxlEvent d b s).board = s.board := by simp [cxlEvent]
@[simp] theorem cxlEvent_tap (d b : Nat) : (cxlEvent d b s).tap = s.tap := by simp [cxlEvent]
@[simp] theorem cxlEvent_hostp (d b : Nat) : (cxlEvent d b s).hostp = s.hostp := by simp [cxlEvent]
@[simp] theorem cxlEvent_disp (d b : Nat) : (cxlEvent d b s).disp = s.disp := by simp [cxlEvent]
@[simp] theorem cxlEvent_ctxs (d b : Nat) : (cxlEvent d b s).ctxs = s.ctxs := by simp [cxlEvent]
@[simp] theorem cxlEvent_ctxPoison (d b : Nat) : (cxlEvent d b s).ctxPoison = s.ctxPoison := by simp [cxlEvent]
@[simp] theorem cxlEvent_ctxCache (d b : Nat) : (cxlEvent d b s).ctxCache = s.ctxCache := by simp [cxlEvent]
@[simp] theorem cxlEvent_runs (d b : Nat) : (cxlEvent d b s).runs = s.runs := by simp [cxlEvent]
@[simp] theorem cxlEvent_loads (d b : Nat) : (cxlEvent d b s).loads = s.loads := by simp [cxlEvent]
@[simp] theorem cxlEvent_clusters (d b : Nat) : (cxlEvent d b s).clusters = s.clusters := by simp [cxlEvent]
@[simp] theorem cxlEvent_net (d b : Nat) : (cxlEvent d b s).net = s.net := by simp [cxlEvent]
@[simp] theorem cxlEvent_mem (d b : Nat) : (cxlEvent d b s).mem = s.mem := by simp [cxlEvent]
@[simp] theorem cxlEvent_memc (d b : Nat) : (cxlEvent d b s).memc = s.memc := by simp [cxlEvent]
@[simp] theorem cxlEvent_gdc (d b : Nat) : (cxlEvent d b s).gdc = s.gdc := by simp [cxlEvent]
@[simp] theorem cxlEvent_silk (d b : Nat) : (cxlEvent d b s).silk = s.silk := by simp [cxlEvent]
@[simp] theorem cxlEvent_pace (d b : Nat) : (cxlEvent d b s).pace = s.pace := by simp [cxlEvent]
@[simp] theorem cxlEvent_ent (d b : Nat) : (cxlEvent d b s).ent = s.ent := by simp [cxlEvent]
@[simp] theorem cxlEvent_mgmt (d b : Nat) : (cxlEvent d b s).mgmt = s.mgmt := by simp [cxlEvent]
@[simp] theorem cxlEvent_trace (d b : Nat) : (cxlEvent d b s).trace = s.trace := by simp [cxlEvent]

/-! ### hostEvent -/

@[simp] theorem hostEvent_pending (b : Nat) : (hostEvent b s).pending = s.pending := rfl
@[simp] theorem hostEvent_out (b : Nat) : (hostEvent b s).out = s.out := rfl
@[simp] theorem hostEvent_free (b : Nat) : (hostEvent b s).free = s.free := rfl
@[simp] theorem hostEvent_fuses (b : Nat) : (hostEvent b s).fuses = s.fuses := rfl
@[simp] theorem hostEvent_board (b : Nat) : (hostEvent b s).board = s.board := rfl
@[simp] theorem hostEvent_tap (b : Nat) : (hostEvent b s).tap = s.tap := rfl
@[simp] theorem hostEvent_disp (b : Nat) : (hostEvent b s).disp = s.disp := rfl
@[simp] theorem hostEvent_ctxs (b : Nat) : (hostEvent b s).ctxs = s.ctxs := rfl
@[simp] theorem hostEvent_ctxPoison (b : Nat) : (hostEvent b s).ctxPoison = s.ctxPoison := rfl
@[simp] theorem hostEvent_ctxCache (b : Nat) : (hostEvent b s).ctxCache = s.ctxCache := rfl
@[simp] theorem hostEvent_runs (b : Nat) : (hostEvent b s).runs = s.runs := rfl
@[simp] theorem hostEvent_loads (b : Nat) : (hostEvent b s).loads = s.loads := rfl
@[simp] theorem hostEvent_clusters (b : Nat) : (hostEvent b s).clusters = s.clusters := rfl
@[simp] theorem hostEvent_net (b : Nat) : (hostEvent b s).net = s.net := rfl
@[simp] theorem hostEvent_mem (b : Nat) : (hostEvent b s).mem = s.mem := rfl
@[simp] theorem hostEvent_memc (b : Nat) : (hostEvent b s).memc = s.memc := rfl
@[simp] theorem hostEvent_gdc (b : Nat) : (hostEvent b s).gdc = s.gdc := rfl
@[simp] theorem hostEvent_cxlp (b : Nat) : (hostEvent b s).cxlp = s.cxlp := rfl
@[simp] theorem hostEvent_silk (b : Nat) : (hostEvent b s).silk = s.silk := rfl
@[simp] theorem hostEvent_pace (b : Nat) : (hostEvent b s).pace = s.pace := rfl
@[simp] theorem hostEvent_ent (b : Nat) : (hostEvent b s).ent = s.ent := rfl
@[simp] theorem hostEvent_mgmt (b : Nat) : (hostEvent b s).mgmt = s.mgmt := rfl
@[simp] theorem hostEvent_trace (b : Nat) : (hostEvent b s).trace = s.trace := rfl

/-! ### dispEvent -/

@[simp] theorem dispEvent_pending (b : Nat) : (dispEvent b s).pending = s.pending := rfl
@[simp] theorem dispEvent_out (b : Nat) : (dispEvent b s).out = s.out := rfl
@[simp] theorem dispEvent_free (b : Nat) : (dispEvent b s).free = s.free := rfl
@[simp] theorem dispEvent_fuses (b : Nat) : (dispEvent b s).fuses = s.fuses := rfl
@[simp] theorem dispEvent_board (b : Nat) : (dispEvent b s).board = s.board := rfl
@[simp] theorem dispEvent_tap (b : Nat) : (dispEvent b s).tap = s.tap := rfl
@[simp] theorem dispEvent_hostp (b : Nat) : (dispEvent b s).hostp = s.hostp := rfl
@[simp] theorem dispEvent_ctxs (b : Nat) : (dispEvent b s).ctxs = s.ctxs := rfl
@[simp] theorem dispEvent_ctxPoison (b : Nat) : (dispEvent b s).ctxPoison = s.ctxPoison := rfl
@[simp] theorem dispEvent_ctxCache (b : Nat) : (dispEvent b s).ctxCache = s.ctxCache := rfl
@[simp] theorem dispEvent_runs (b : Nat) : (dispEvent b s).runs = s.runs := rfl
@[simp] theorem dispEvent_loads (b : Nat) : (dispEvent b s).loads = s.loads := rfl
@[simp] theorem dispEvent_clusters (b : Nat) : (dispEvent b s).clusters = s.clusters := rfl
@[simp] theorem dispEvent_net (b : Nat) : (dispEvent b s).net = s.net := rfl
@[simp] theorem dispEvent_mem (b : Nat) : (dispEvent b s).mem = s.mem := rfl
@[simp] theorem dispEvent_memc (b : Nat) : (dispEvent b s).memc = s.memc := rfl
@[simp] theorem dispEvent_gdc (b : Nat) : (dispEvent b s).gdc = s.gdc := rfl
@[simp] theorem dispEvent_cxlp (b : Nat) : (dispEvent b s).cxlp = s.cxlp := rfl
@[simp] theorem dispEvent_silk (b : Nat) : (dispEvent b s).silk = s.silk := rfl
@[simp] theorem dispEvent_pace (b : Nat) : (dispEvent b s).pace = s.pace := rfl
@[simp] theorem dispEvent_ent (b : Nat) : (dispEvent b s).ent = s.ent := rfl
@[simp] theorem dispEvent_mgmt (b : Nat) : (dispEvent b s).mgmt = s.mgmt := rfl
@[simp] theorem dispEvent_trace (b : Nat) : (dispEvent b s).trace = s.trace := rfl

/-! ### paceEvent -/

@[simp] theorem paceEvent_pending (b : Nat) : (paceEvent b s).pending = s.pending := rfl
@[simp] theorem paceEvent_out (b : Nat) : (paceEvent b s).out = s.out := rfl
@[simp] theorem paceEvent_free (b : Nat) : (paceEvent b s).free = s.free := rfl
@[simp] theorem paceEvent_fuses (b : Nat) : (paceEvent b s).fuses = s.fuses := rfl
@[simp] theorem paceEvent_board (b : Nat) : (paceEvent b s).board = s.board := rfl
@[simp] theorem paceEvent_tap (b : Nat) : (paceEvent b s).tap = s.tap := rfl
@[simp] theorem paceEvent_hostp (b : Nat) : (paceEvent b s).hostp = s.hostp := rfl
@[simp] theorem paceEvent_disp (b : Nat) : (paceEvent b s).disp = s.disp := rfl
@[simp] theorem paceEvent_ctxs (b : Nat) : (paceEvent b s).ctxs = s.ctxs := rfl
@[simp] theorem paceEvent_ctxPoison (b : Nat) : (paceEvent b s).ctxPoison = s.ctxPoison := rfl
@[simp] theorem paceEvent_ctxCache (b : Nat) : (paceEvent b s).ctxCache = s.ctxCache := rfl
@[simp] theorem paceEvent_runs (b : Nat) : (paceEvent b s).runs = s.runs := rfl
@[simp] theorem paceEvent_loads (b : Nat) : (paceEvent b s).loads = s.loads := rfl
@[simp] theorem paceEvent_clusters (b : Nat) : (paceEvent b s).clusters = s.clusters := rfl
@[simp] theorem paceEvent_net (b : Nat) : (paceEvent b s).net = s.net := rfl
@[simp] theorem paceEvent_mem (b : Nat) : (paceEvent b s).mem = s.mem := rfl
@[simp] theorem paceEvent_memc (b : Nat) : (paceEvent b s).memc = s.memc := rfl
@[simp] theorem paceEvent_gdc (b : Nat) : (paceEvent b s).gdc = s.gdc := rfl
@[simp] theorem paceEvent_cxlp (b : Nat) : (paceEvent b s).cxlp = s.cxlp := rfl
@[simp] theorem paceEvent_silk (b : Nat) : (paceEvent b s).silk = s.silk := rfl
@[simp] theorem paceEvent_ent (b : Nat) : (paceEvent b s).ent = s.ent := rfl
@[simp] theorem paceEvent_mgmt (b : Nat) : (paceEvent b s).mgmt = s.mgmt := rfl
@[simp] theorem paceEvent_trace (b : Nat) : (paceEvent b s).trace = s.trace := rfl

/-! ### entEvent -/

@[simp] theorem entEvent_pending (b : Nat) : (entEvent b s).pending = s.pending := rfl
@[simp] theorem entEvent_out (b : Nat) : (entEvent b s).out = s.out := rfl
@[simp] theorem entEvent_free (b : Nat) : (entEvent b s).free = s.free := rfl
@[simp] theorem entEvent_fuses (b : Nat) : (entEvent b s).fuses = s.fuses := rfl
@[simp] theorem entEvent_board (b : Nat) : (entEvent b s).board = s.board := rfl
@[simp] theorem entEvent_tap (b : Nat) : (entEvent b s).tap = s.tap := rfl
@[simp] theorem entEvent_hostp (b : Nat) : (entEvent b s).hostp = s.hostp := rfl
@[simp] theorem entEvent_disp (b : Nat) : (entEvent b s).disp = s.disp := rfl
@[simp] theorem entEvent_ctxs (b : Nat) : (entEvent b s).ctxs = s.ctxs := rfl
@[simp] theorem entEvent_ctxPoison (b : Nat) : (entEvent b s).ctxPoison = s.ctxPoison := rfl
@[simp] theorem entEvent_ctxCache (b : Nat) : (entEvent b s).ctxCache = s.ctxCache := rfl
@[simp] theorem entEvent_runs (b : Nat) : (entEvent b s).runs = s.runs := rfl
@[simp] theorem entEvent_loads (b : Nat) : (entEvent b s).loads = s.loads := rfl
@[simp] theorem entEvent_clusters (b : Nat) : (entEvent b s).clusters = s.clusters := rfl
@[simp] theorem entEvent_net (b : Nat) : (entEvent b s).net = s.net := rfl
@[simp] theorem entEvent_mem (b : Nat) : (entEvent b s).mem = s.mem := rfl
@[simp] theorem entEvent_memc (b : Nat) : (entEvent b s).memc = s.memc := rfl
@[simp] theorem entEvent_gdc (b : Nat) : (entEvent b s).gdc = s.gdc := rfl
@[simp] theorem entEvent_cxlp (b : Nat) : (entEvent b s).cxlp = s.cxlp := rfl
@[simp] theorem entEvent_silk (b : Nat) : (entEvent b s).silk = s.silk := rfl
@[simp] theorem entEvent_pace (b : Nat) : (entEvent b s).pace = s.pace := rfl
@[simp] theorem entEvent_mgmt (b : Nat) : (entEvent b s).mgmt = s.mgmt := rfl
@[simp] theorem entEvent_trace (b : Nat) : (entEvent b s).trace = s.trace := rfl

/-! ### silkEvent -/

@[simp] theorem silkEvent_pending (b : Nat) : (silkEvent b s).pending = s.pending := rfl
@[simp] theorem silkEvent_out (b : Nat) : (silkEvent b s).out = s.out := rfl
@[simp] theorem silkEvent_free (b : Nat) : (silkEvent b s).free = s.free := rfl
@[simp] theorem silkEvent_fuses (b : Nat) : (silkEvent b s).fuses = s.fuses := rfl
@[simp] theorem silkEvent_board (b : Nat) : (silkEvent b s).board = s.board := rfl
@[simp] theorem silkEvent_tap (b : Nat) : (silkEvent b s).tap = s.tap := rfl
@[simp] theorem silkEvent_hostp (b : Nat) : (silkEvent b s).hostp = s.hostp := rfl
@[simp] theorem silkEvent_disp (b : Nat) : (silkEvent b s).disp = s.disp := rfl
@[simp] theorem silkEvent_ctxs (b : Nat) : (silkEvent b s).ctxs = s.ctxs := rfl
@[simp] theorem silkEvent_ctxPoison (b : Nat) : (silkEvent b s).ctxPoison = s.ctxPoison := rfl
@[simp] theorem silkEvent_ctxCache (b : Nat) : (silkEvent b s).ctxCache = s.ctxCache := rfl
@[simp] theorem silkEvent_runs (b : Nat) : (silkEvent b s).runs = s.runs := rfl
@[simp] theorem silkEvent_loads (b : Nat) : (silkEvent b s).loads = s.loads := rfl
@[simp] theorem silkEvent_clusters (b : Nat) : (silkEvent b s).clusters = s.clusters := rfl
@[simp] theorem silkEvent_net (b : Nat) : (silkEvent b s).net = s.net := rfl
@[simp] theorem silkEvent_mem (b : Nat) : (silkEvent b s).mem = s.mem := rfl
@[simp] theorem silkEvent_memc (b : Nat) : (silkEvent b s).memc = s.memc := rfl
@[simp] theorem silkEvent_gdc (b : Nat) : (silkEvent b s).gdc = s.gdc := rfl
@[simp] theorem silkEvent_cxlp (b : Nat) : (silkEvent b s).cxlp = s.cxlp := rfl
@[simp] theorem silkEvent_pace (b : Nat) : (silkEvent b s).pace = s.pace := rfl
@[simp] theorem silkEvent_ent (b : Nat) : (silkEvent b s).ent = s.ent := rfl
@[simp] theorem silkEvent_mgmt (b : Nat) : (silkEvent b s).mgmt = s.mgmt := rfl
@[simp] theorem silkEvent_trace (b : Nat) : (silkEvent b s).trace = s.trace := rfl

/-! ### mgmtEvent -/

@[simp] theorem mgmtEvent_pending (b : Nat) : (mgmtEvent b s).pending = s.pending := rfl
@[simp] theorem mgmtEvent_out (b : Nat) : (mgmtEvent b s).out = s.out := rfl
@[simp] theorem mgmtEvent_free (b : Nat) : (mgmtEvent b s).free = s.free := rfl
@[simp] theorem mgmtEvent_fuses (b : Nat) : (mgmtEvent b s).fuses = s.fuses := rfl
@[simp] theorem mgmtEvent_board (b : Nat) : (mgmtEvent b s).board = s.board := rfl
@[simp] theorem mgmtEvent_tap (b : Nat) : (mgmtEvent b s).tap = s.tap := rfl
@[simp] theorem mgmtEvent_hostp (b : Nat) : (mgmtEvent b s).hostp = s.hostp := rfl
@[simp] theorem mgmtEvent_disp (b : Nat) : (mgmtEvent b s).disp = s.disp := rfl
@[simp] theorem mgmtEvent_ctxs (b : Nat) : (mgmtEvent b s).ctxs = s.ctxs := rfl
@[simp] theorem mgmtEvent_ctxPoison (b : Nat) : (mgmtEvent b s).ctxPoison = s.ctxPoison := rfl
@[simp] theorem mgmtEvent_ctxCache (b : Nat) : (mgmtEvent b s).ctxCache = s.ctxCache := rfl
@[simp] theorem mgmtEvent_runs (b : Nat) : (mgmtEvent b s).runs = s.runs := rfl
@[simp] theorem mgmtEvent_loads (b : Nat) : (mgmtEvent b s).loads = s.loads := rfl
@[simp] theorem mgmtEvent_clusters (b : Nat) : (mgmtEvent b s).clusters = s.clusters := rfl
@[simp] theorem mgmtEvent_net (b : Nat) : (mgmtEvent b s).net = s.net := rfl
@[simp] theorem mgmtEvent_mem (b : Nat) : (mgmtEvent b s).mem = s.mem := rfl
@[simp] theorem mgmtEvent_memc (b : Nat) : (mgmtEvent b s).memc = s.memc := rfl
@[simp] theorem mgmtEvent_gdc (b : Nat) : (mgmtEvent b s).gdc = s.gdc := rfl
@[simp] theorem mgmtEvent_cxlp (b : Nat) : (mgmtEvent b s).cxlp = s.cxlp := rfl
@[simp] theorem mgmtEvent_silk (b : Nat) : (mgmtEvent b s).silk = s.silk := rfl
@[simp] theorem mgmtEvent_pace (b : Nat) : (mgmtEvent b s).pace = s.pace := rfl
@[simp] theorem mgmtEvent_ent (b : Nat) : (mgmtEvent b s).ent = s.ent := rfl
@[simp] theorem mgmtEvent_trace (b : Nat) : (mgmtEvent b s).trace = s.trace := rfl

/-! ### portEvent -/

@[simp] theorem portEvent_pending (p b : Nat) : (portEvent p b s).pending = s.pending := by simp [portEvent]
@[simp] theorem portEvent_out (p b : Nat) : (portEvent p b s).out = s.out := by simp [portEvent]
@[simp] theorem portEvent_free (p b : Nat) : (portEvent p b s).free = s.free := by simp [portEvent]
@[simp] theorem portEvent_fuses (p b : Nat) : (portEvent p b s).fuses = s.fuses := by simp [portEvent]
@[simp] theorem portEvent_board (p b : Nat) : (portEvent p b s).board = s.board := by simp [portEvent]
@[simp] theorem portEvent_tap (p b : Nat) : (portEvent p b s).tap = s.tap := by simp [portEvent]
@[simp] theorem portEvent_hostp (p b : Nat) : (portEvent p b s).hostp = s.hostp := by simp [portEvent]
@[simp] theorem portEvent_disp (p b : Nat) : (portEvent p b s).disp = s.disp := by simp [portEvent]
@[simp] theorem portEvent_ctxs (p b : Nat) : (portEvent p b s).ctxs = s.ctxs := by simp [portEvent]
@[simp] theorem portEvent_ctxPoison (p b : Nat) : (portEvent p b s).ctxPoison = s.ctxPoison := by simp [portEvent]
@[simp] theorem portEvent_ctxCache (p b : Nat) : (portEvent p b s).ctxCache = s.ctxCache := by simp [portEvent]
@[simp] theorem portEvent_runs (p b : Nat) : (portEvent p b s).runs = s.runs := by simp [portEvent]
@[simp] theorem portEvent_loads (p b : Nat) : (portEvent p b s).loads = s.loads := by simp [portEvent]
@[simp] theorem portEvent_clusters (p b : Nat) : (portEvent p b s).clusters = s.clusters := by simp [portEvent]
@[simp] theorem portEvent_net (p b : Nat) : (portEvent p b s).net = s.net := by simp [portEvent]
@[simp] theorem portEvent_mem (p b : Nat) : (portEvent p b s).mem = s.mem := by simp [portEvent]
@[simp] theorem portEvent_memc (p b : Nat) : (portEvent p b s).memc = s.memc := by simp [portEvent]
@[simp] theorem portEvent_gdc (p b : Nat) : (portEvent p b s).gdc = s.gdc := by simp [portEvent]
@[simp] theorem portEvent_cxlp (p b : Nat) : (portEvent p b s).cxlp = s.cxlp := by simp [portEvent]
@[simp] theorem portEvent_pace (p b : Nat) : (portEvent p b s).pace = s.pace := by simp [portEvent]
@[simp] theorem portEvent_ent (p b : Nat) : (portEvent p b s).ent = s.ent := by simp [portEvent]
@[simp] theorem portEvent_mgmt (p b : Nat) : (portEvent p b s).mgmt = s.mgmt := by simp [portEvent]
@[simp] theorem portEvent_trace (p b : Nat) : (portEvent p b s).trace = s.trace := by simp [portEvent]

/-! ### traceEvent -/

@[simp] theorem traceEvent_pending (b : Nat) : (traceEvent b s).pending = s.pending := rfl
@[simp] theorem traceEvent_out (b : Nat) : (traceEvent b s).out = s.out := rfl
@[simp] theorem traceEvent_free (b : Nat) : (traceEvent b s).free = s.free := rfl
@[simp] theorem traceEvent_fuses (b : Nat) : (traceEvent b s).fuses = s.fuses := rfl
@[simp] theorem traceEvent_board (b : Nat) : (traceEvent b s).board = s.board := rfl
@[simp] theorem traceEvent_tap (b : Nat) : (traceEvent b s).tap = s.tap := rfl
@[simp] theorem traceEvent_hostp (b : Nat) : (traceEvent b s).hostp = s.hostp := rfl
@[simp] theorem traceEvent_disp (b : Nat) : (traceEvent b s).disp = s.disp := rfl
@[simp] theorem traceEvent_ctxs (b : Nat) : (traceEvent b s).ctxs = s.ctxs := rfl
@[simp] theorem traceEvent_ctxPoison (b : Nat) : (traceEvent b s).ctxPoison = s.ctxPoison := rfl
@[simp] theorem traceEvent_ctxCache (b : Nat) : (traceEvent b s).ctxCache = s.ctxCache := rfl
@[simp] theorem traceEvent_runs (b : Nat) : (traceEvent b s).runs = s.runs := rfl
@[simp] theorem traceEvent_loads (b : Nat) : (traceEvent b s).loads = s.loads := rfl
@[simp] theorem traceEvent_clusters (b : Nat) : (traceEvent b s).clusters = s.clusters := rfl
@[simp] theorem traceEvent_net (b : Nat) : (traceEvent b s).net = s.net := rfl
@[simp] theorem traceEvent_mem (b : Nat) : (traceEvent b s).mem = s.mem := rfl
@[simp] theorem traceEvent_memc (b : Nat) : (traceEvent b s).memc = s.memc := rfl
@[simp] theorem traceEvent_gdc (b : Nat) : (traceEvent b s).gdc = s.gdc := rfl
@[simp] theorem traceEvent_cxlp (b : Nat) : (traceEvent b s).cxlp = s.cxlp := rfl
@[simp] theorem traceEvent_silk (b : Nat) : (traceEvent b s).silk = s.silk := rfl
@[simp] theorem traceEvent_pace (b : Nat) : (traceEvent b s).pace = s.pace := rfl
@[simp] theorem traceEvent_ent (b : Nat) : (traceEvent b s).ent = s.ent := rfl
@[simp] theorem traceEvent_mgmt (b : Nat) : (traceEvent b s).mgmt = s.mgmt := rfl

/-! ### cluEvent -/

@[simp] theorem cluEvent_pending (c b : Nat) : (cluEvent c b s).pending = s.pending := by simp [cluEvent]
@[simp] theorem cluEvent_out (c b : Nat) : (cluEvent c b s).out = s.out := by simp [cluEvent]
@[simp] theorem cluEvent_free (c b : Nat) : (cluEvent c b s).free = s.free := by simp [cluEvent]
@[simp] theorem cluEvent_fuses (c b : Nat) : (cluEvent c b s).fuses = s.fuses := by simp [cluEvent]
@[simp] theorem cluEvent_board (c b : Nat) : (cluEvent c b s).board = s.board := by simp [cluEvent]
@[simp] theorem cluEvent_tap (c b : Nat) : (cluEvent c b s).tap = s.tap := by simp [cluEvent]
@[simp] theorem cluEvent_hostp (c b : Nat) : (cluEvent c b s).hostp = s.hostp := by simp [cluEvent]
@[simp] theorem cluEvent_disp (c b : Nat) : (cluEvent c b s).disp = s.disp := by simp [cluEvent]
@[simp] theorem cluEvent_ctxs (c b : Nat) : (cluEvent c b s).ctxs = s.ctxs := by simp [cluEvent]
@[simp] theorem cluEvent_ctxPoison (c b : Nat) : (cluEvent c b s).ctxPoison = s.ctxPoison := by simp [cluEvent]
@[simp] theorem cluEvent_ctxCache (c b : Nat) : (cluEvent c b s).ctxCache = s.ctxCache := by simp [cluEvent]
@[simp] theorem cluEvent_runs (c b : Nat) : (cluEvent c b s).runs = s.runs := by simp [cluEvent]
@[simp] theorem cluEvent_loads (c b : Nat) : (cluEvent c b s).loads = s.loads := by simp [cluEvent]
@[simp] theorem cluEvent_net (c b : Nat) : (cluEvent c b s).net = s.net := by simp [cluEvent]
@[simp] theorem cluEvent_mem (c b : Nat) : (cluEvent c b s).mem = s.mem := by simp [cluEvent]
@[simp] theorem cluEvent_memc (c b : Nat) : (cluEvent c b s).memc = s.memc := by simp [cluEvent]
@[simp] theorem cluEvent_gdc (c b : Nat) : (cluEvent c b s).gdc = s.gdc := by simp [cluEvent]
@[simp] theorem cluEvent_cxlp (c b : Nat) : (cluEvent c b s).cxlp = s.cxlp := by simp [cluEvent]
@[simp] theorem cluEvent_silk (c b : Nat) : (cluEvent c b s).silk = s.silk := by simp [cluEvent]
@[simp] theorem cluEvent_pace (c b : Nat) : (cluEvent c b s).pace = s.pace := by simp [cluEvent]
@[simp] theorem cluEvent_ent (c b : Nat) : (cluEvent c b s).ent = s.ent := by simp [cluEvent]
@[simp] theorem cluEvent_mgmt (c b : Nat) : (cluEvent c b s).mgmt = s.mgmt := by simp [cluEvent]
@[simp] theorem cluEvent_trace (c b : Nat) : (cluEvent c b s).trace = s.trace := by simp [cluEvent]

/-! ### coreEvent -/

@[simp] theorem coreEvent_pending (c l b : Nat) : (coreEvent c l b s).pending = s.pending := by simp [coreEvent]
@[simp] theorem coreEvent_out (c l b : Nat) : (coreEvent c l b s).out = s.out := by simp [coreEvent]
@[simp] theorem coreEvent_free (c l b : Nat) : (coreEvent c l b s).free = s.free := by simp [coreEvent]
@[simp] theorem coreEvent_fuses (c l b : Nat) : (coreEvent c l b s).fuses = s.fuses := by simp [coreEvent]
@[simp] theorem coreEvent_board (c l b : Nat) : (coreEvent c l b s).board = s.board := by simp [coreEvent]
@[simp] theorem coreEvent_tap (c l b : Nat) : (coreEvent c l b s).tap = s.tap := by simp [coreEvent]
@[simp] theorem coreEvent_hostp (c l b : Nat) : (coreEvent c l b s).hostp = s.hostp := by simp [coreEvent]
@[simp] theorem coreEvent_disp (c l b : Nat) : (coreEvent c l b s).disp = s.disp := by simp [coreEvent]
@[simp] theorem coreEvent_ctxs (c l b : Nat) : (coreEvent c l b s).ctxs = s.ctxs := by simp [coreEvent]
@[simp] theorem coreEvent_ctxPoison (c l b : Nat) : (coreEvent c l b s).ctxPoison = s.ctxPoison := by simp [coreEvent]
@[simp] theorem coreEvent_ctxCache (c l b : Nat) : (coreEvent c l b s).ctxCache = s.ctxCache := by simp [coreEvent]
@[simp] theorem coreEvent_runs (c l b : Nat) : (coreEvent c l b s).runs = s.runs := by simp [coreEvent]
@[simp] theorem coreEvent_loads (c l b : Nat) : (coreEvent c l b s).loads = s.loads := by simp [coreEvent]
@[simp] theorem coreEvent_net (c l b : Nat) : (coreEvent c l b s).net = s.net := by simp [coreEvent]
@[simp] theorem coreEvent_mem (c l b : Nat) : (coreEvent c l b s).mem = s.mem := by simp [coreEvent]
@[simp] theorem coreEvent_memc (c l b : Nat) : (coreEvent c l b s).memc = s.memc := by simp [coreEvent]
@[simp] theorem coreEvent_gdc (c l b : Nat) : (coreEvent c l b s).gdc = s.gdc := by simp [coreEvent]
@[simp] theorem coreEvent_cxlp (c l b : Nat) : (coreEvent c l b s).cxlp = s.cxlp := by simp [coreEvent]
@[simp] theorem coreEvent_silk (c l b : Nat) : (coreEvent c l b s).silk = s.silk := by simp [coreEvent]
@[simp] theorem coreEvent_pace (c l b : Nat) : (coreEvent c l b s).pace = s.pace := by simp [coreEvent]
@[simp] theorem coreEvent_ent (c l b : Nat) : (coreEvent c l b s).ent = s.ent := by simp [coreEvent]
@[simp] theorem coreEvent_mgmt (c l b : Nat) : (coreEvent c l b s).mgmt = s.mgmt := by simp [coreEvent]
@[simp] theorem coreEvent_trace (c l b : Nat) : (coreEvent c l b s).trace = s.trace := by simp [coreEvent]

/-! ### memcCount -/

@[simp] theorem memcCount_pending (g : Memc → Counter) (p : Memc → Counter → Memc) (o : Nat) : (memcCount g p o s).pending = s.pending := by simp [memcCount]
@[simp] theorem memcCount_out (g : Memc → Counter) (p : Memc → Counter → Memc) (o : Nat) : (memcCount g p o s).out = s.out := by simp [memcCount]
@[simp] theorem memcCount_free (g : Memc → Counter) (p : Memc → Counter → Memc) (o : Nat) : (memcCount g p o s).free = s.free := by simp [memcCount]
@[simp] theorem memcCount_fuses (g : Memc → Counter) (p : Memc → Counter → Memc) (o : Nat) : (memcCount g p o s).fuses = s.fuses := by simp [memcCount]
@[simp] theorem memcCount_board (g : Memc → Counter) (p : Memc → Counter → Memc) (o : Nat) : (memcCount g p o s).board = s.board := by simp [memcCount]
@[simp] theorem memcCount_tap (g : Memc → Counter) (p : Memc → Counter → Memc) (o : Nat) : (memcCount g p o s).tap = s.tap := by simp [memcCount]
@[simp] theorem memcCount_hostp (g : Memc → Counter) (p : Memc → Counter → Memc) (o : Nat) : (memcCount g p o s).hostp = s.hostp := by simp [memcCount]
@[simp] theorem memcCount_disp (g : Memc → Counter) (p : Memc → Counter → Memc) (o : Nat) : (memcCount g p o s).disp = s.disp := by simp [memcCount]
@[simp] theorem memcCount_ctxs (g : Memc → Counter) (p : Memc → Counter → Memc) (o : Nat) : (memcCount g p o s).ctxs = s.ctxs := by simp [memcCount]
@[simp] theorem memcCount_ctxPoison (g : Memc → Counter) (p : Memc → Counter → Memc) (o : Nat) : (memcCount g p o s).ctxPoison = s.ctxPoison := by simp [memcCount]
@[simp] theorem memcCount_ctxCache (g : Memc → Counter) (p : Memc → Counter → Memc) (o : Nat) : (memcCount g p o s).ctxCache = s.ctxCache := by simp [memcCount]
@[simp] theorem memcCount_runs (g : Memc → Counter) (p : Memc → Counter → Memc) (o : Nat) : (memcCount g p o s).runs = s.runs := by simp [memcCount]
@[simp] theorem memcCount_loads (g : Memc → Counter) (p : Memc → Counter → Memc) (o : Nat) : (memcCount g p o s).loads = s.loads := by simp [memcCount]
@[simp] theorem memcCount_clusters (g : Memc → Counter) (p : Memc → Counter → Memc) (o : Nat) : (memcCount g p o s).clusters = s.clusters := by simp [memcCount]
@[simp] theorem memcCount_mem (g : Memc → Counter) (p : Memc → Counter → Memc) (o : Nat) : (memcCount g p o s).mem = s.mem := by simp [memcCount]
@[simp] theorem memcCount_gdc (g : Memc → Counter) (p : Memc → Counter → Memc) (o : Nat) : (memcCount g p o s).gdc = s.gdc := by simp [memcCount]
@[simp] theorem memcCount_cxlp (g : Memc → Counter) (p : Memc → Counter → Memc) (o : Nat) : (memcCount g p o s).cxlp = s.cxlp := by simp [memcCount]
@[simp] theorem memcCount_silk (g : Memc → Counter) (p : Memc → Counter → Memc) (o : Nat) : (memcCount g p o s).silk = s.silk := by simp [memcCount]
@[simp] theorem memcCount_pace (g : Memc → Counter) (p : Memc → Counter → Memc) (o : Nat) : (memcCount g p o s).pace = s.pace := by simp [memcCount]
@[simp] theorem memcCount_ent (g : Memc → Counter) (p : Memc → Counter → Memc) (o : Nat) : (memcCount g p o s).ent = s.ent := by simp [memcCount]
@[simp] theorem memcCount_mgmt (g : Memc → Counter) (p : Memc → Counter → Memc) (o : Nat) : (memcCount g p o s).mgmt = s.mgmt := by simp [memcCount]
@[simp] theorem memcCount_trace (g : Memc → Counter) (p : Memc → Counter → Memc) (o : Nat) : (memcCount g p o s).trace = s.trace := by simp [memcCount]

/-! ### memcPoison -/

@[simp] theorem memcPoison_pending : (memcPoison s).pending = s.pending := by simp [memcPoison]
@[simp] theorem memcPoison_out : (memcPoison s).out = s.out := by simp [memcPoison]
@[simp] theorem memcPoison_free : (memcPoison s).free = s.free := by simp [memcPoison]
@[simp] theorem memcPoison_fuses : (memcPoison s).fuses = s.fuses := by simp [memcPoison]
@[simp] theorem memcPoison_board : (memcPoison s).board = s.board := by simp [memcPoison]
@[simp] theorem memcPoison_tap : (memcPoison s).tap = s.tap := by simp [memcPoison]
@[simp] theorem memcPoison_hostp : (memcPoison s).hostp = s.hostp := by simp [memcPoison]
@[simp] theorem memcPoison_disp : (memcPoison s).disp = s.disp := by simp [memcPoison]
@[simp] theorem memcPoison_ctxs : (memcPoison s).ctxs = s.ctxs := by simp [memcPoison]
@[simp] theorem memcPoison_ctxPoison : (memcPoison s).ctxPoison = s.ctxPoison := by simp [memcPoison]
@[simp] theorem memcPoison_ctxCache : (memcPoison s).ctxCache = s.ctxCache := by simp [memcPoison]
@[simp] theorem memcPoison_runs : (memcPoison s).runs = s.runs := by simp [memcPoison]
@[simp] theorem memcPoison_loads : (memcPoison s).loads = s.loads := by simp [memcPoison]
@[simp] theorem memcPoison_clusters : (memcPoison s).clusters = s.clusters := by simp [memcPoison]
@[simp] theorem memcPoison_mem : (memcPoison s).mem = s.mem := by simp [memcPoison]
@[simp] theorem memcPoison_gdc : (memcPoison s).gdc = s.gdc := by simp [memcPoison]
@[simp] theorem memcPoison_cxlp : (memcPoison s).cxlp = s.cxlp := by simp [memcPoison]
@[simp] theorem memcPoison_silk : (memcPoison s).silk = s.silk := by simp [memcPoison]
@[simp] theorem memcPoison_pace : (memcPoison s).pace = s.pace := by simp [memcPoison]
@[simp] theorem memcPoison_ent : (memcPoison s).ent = s.ent := by simp [memcPoison]
@[simp] theorem memcPoison_mgmt : (memcPoison s).mgmt = s.mgmt := by simp [memcPoison]
@[simp] theorem memcPoison_trace : (memcPoison s).trace = s.trace := by simp [memcPoison]

/-! ### memcRecompute -/

@[simp] theorem memcRecompute_pending : (memcRecompute s).pending = s.pending := by simp [memcRecompute]
@[simp] theorem memcRecompute_out : (memcRecompute s).out = s.out := by simp [memcRecompute]
@[simp] theorem memcRecompute_free : (memcRecompute s).free = s.free := by simp [memcRecompute]
@[simp] theorem memcRecompute_fuses : (memcRecompute s).fuses = s.fuses := by simp [memcRecompute]
@[simp] theorem memcRecompute_board : (memcRecompute s).board = s.board := by simp [memcRecompute]
@[simp] theorem memcRecompute_tap : (memcRecompute s).tap = s.tap := by simp [memcRecompute]
@[simp] theorem memcRecompute_hostp : (memcRecompute s).hostp = s.hostp := by simp [memcRecompute]
@[simp] theorem memcRecompute_disp : (memcRecompute s).disp = s.disp := by simp [memcRecompute]
@[simp] theorem memcRecompute_ctxs : (memcRecompute s).ctxs = s.ctxs := by simp [memcRecompute]
@[simp] theorem memcRecompute_ctxPoison : (memcRecompute s).ctxPoison = s.ctxPoison := by simp [memcRecompute]
@[simp] theorem memcRecompute_ctxCache : (memcRecompute s).ctxCache = s.ctxCache := by simp [memcRecompute]
@[simp] theorem memcRecompute_runs : (memcRecompute s).runs = s.runs := by simp [memcRecompute]
@[simp] theorem memcRecompute_loads : (memcRecompute s).loads = s.loads := by simp [memcRecompute]
@[simp] theorem memcRecompute_clusters : (memcRecompute s).clusters = s.clusters := by simp [memcRecompute]
@[simp] theorem memcRecompute_mem : (memcRecompute s).mem = s.mem := by simp [memcRecompute]
@[simp] theorem memcRecompute_gdc : (memcRecompute s).gdc = s.gdc := by simp [memcRecompute]
@[simp] theorem memcRecompute_cxlp : (memcRecompute s).cxlp = s.cxlp := by simp [memcRecompute]
@[simp] theorem memcRecompute_silk : (memcRecompute s).silk = s.silk := by simp [memcRecompute]
@[simp] theorem memcRecompute_pace : (memcRecompute s).pace = s.pace := by simp [memcRecompute]
@[simp] theorem memcRecompute_ent : (memcRecompute s).ent = s.ent := by simp [memcRecompute]
@[simp] theorem memcRecompute_mgmt : (memcRecompute s).mgmt = s.mgmt := by simp [memcRecompute]
@[simp] theorem memcRecompute_trace : (memcRecompute s).trace = s.trace := by simp [memcRecompute]

/-! ### memcMigration -/

@[simp] theorem memcMigration_pending : (memcMigration s).pending = s.pending := by simp [memcMigration]
@[simp] theorem memcMigration_out : (memcMigration s).out = s.out := by simp [memcMigration]
@[simp] theorem memcMigration_free : (memcMigration s).free = s.free := by simp [memcMigration]
@[simp] theorem memcMigration_fuses : (memcMigration s).fuses = s.fuses := by simp [memcMigration]
@[simp] theorem memcMigration_board : (memcMigration s).board = s.board := by simp [memcMigration]
@[simp] theorem memcMigration_tap : (memcMigration s).tap = s.tap := by simp [memcMigration]
@[simp] theorem memcMigration_hostp : (memcMigration s).hostp = s.hostp := by simp [memcMigration]
@[simp] theorem memcMigration_disp : (memcMigration s).disp = s.disp := by simp [memcMigration]
@[simp] theorem memcMigration_ctxs : (memcMigration s).ctxs = s.ctxs := by simp [memcMigration]
@[simp] theorem memcMigration_ctxPoison : (memcMigration s).ctxPoison = s.ctxPoison := by simp [memcMigration]
@[simp] theorem memcMigration_ctxCache : (memcMigration s).ctxCache = s.ctxCache := by simp [memcMigration]
@[simp] theorem memcMigration_runs : (memcMigration s).runs = s.runs := by simp [memcMigration]
@[simp] theorem memcMigration_loads : (memcMigration s).loads = s.loads := by simp [memcMigration]
@[simp] theorem memcMigration_clusters : (memcMigration s).clusters = s.clusters := by simp [memcMigration]
@[simp] theorem memcMigration_mem : (memcMigration s).mem = s.mem := by simp [memcMigration]
@[simp] theorem memcMigration_gdc : (memcMigration s).gdc = s.gdc := by simp [memcMigration]
@[simp] theorem memcMigration_cxlp : (memcMigration s).cxlp = s.cxlp := by simp [memcMigration]
@[simp] theorem memcMigration_silk : (memcMigration s).silk = s.silk := by simp [memcMigration]
@[simp] theorem memcMigration_pace : (memcMigration s).pace = s.pace := by simp [memcMigration]
@[simp] theorem memcMigration_ent : (memcMigration s).ent = s.ent := by simp [memcMigration]
@[simp] theorem memcMigration_mgmt : (memcMigration s).mgmt = s.mgmt := by simp [memcMigration]
@[simp] theorem memcMigration_trace : (memcMigration s).trace = s.trace := by simp [memcMigration]

/-! ### gdcCount -/

@[simp] theorem gdcCount_pending (q : Nat) (g : Gdc → Counter) (p : Gdc → Counter → Gdc) (o n : Nat) : (gdcCount q g p o n s).pending = s.pending := by simp [gdcCount]
@[simp] theorem gdcCount_out (q : Nat) (g : Gdc → Counter) (p : Gdc → Counter → Gdc) (o n : Nat) : (gdcCount q g p o n s).out = s.out := by simp [gdcCount]
@[simp] theorem gdcCount_free (q : Nat) (g : Gdc → Counter) (p : Gdc → Counter → Gdc) (o n : Nat) : (gdcCount q g p o n s).free = s.free := by simp [gdcCount]
@[simp] theorem gdcCount_fuses (q : Nat) (g : Gdc → Counter) (p : Gdc → Counter → Gdc) (o n : Nat) : (gdcCount q g p o n s).fuses = s.fuses := by simp [gdcCount]
@[simp] theorem gdcCount_board (q : Nat) (g : Gdc → Counter) (p : Gdc → Counter → Gdc) (o n : Nat) : (gdcCount q g p o n s).board = s.board := by simp [gdcCount]
@[simp] theorem gdcCount_tap (q : Nat) (g : Gdc → Counter) (p : Gdc → Counter → Gdc) (o n : Nat) : (gdcCount q g p o n s).tap = s.tap := by simp [gdcCount]
@[simp] theorem gdcCount_hostp (q : Nat) (g : Gdc → Counter) (p : Gdc → Counter → Gdc) (o n : Nat) : (gdcCount q g p o n s).hostp = s.hostp := by simp [gdcCount]
@[simp] theorem gdcCount_disp (q : Nat) (g : Gdc → Counter) (p : Gdc → Counter → Gdc) (o n : Nat) : (gdcCount q g p o n s).disp = s.disp := by simp [gdcCount]
@[simp] theorem gdcCount_ctxs (q : Nat) (g : Gdc → Counter) (p : Gdc → Counter → Gdc) (o n : Nat) : (gdcCount q g p o n s).ctxs = s.ctxs := by simp [gdcCount]
@[simp] theorem gdcCount_ctxPoison (q : Nat) (g : Gdc → Counter) (p : Gdc → Counter → Gdc) (o n : Nat) : (gdcCount q g p o n s).ctxPoison = s.ctxPoison := by simp [gdcCount]
@[simp] theorem gdcCount_ctxCache (q : Nat) (g : Gdc → Counter) (p : Gdc → Counter → Gdc) (o n : Nat) : (gdcCount q g p o n s).ctxCache = s.ctxCache := by simp [gdcCount]
@[simp] theorem gdcCount_runs (q : Nat) (g : Gdc → Counter) (p : Gdc → Counter → Gdc) (o n : Nat) : (gdcCount q g p o n s).runs = s.runs := by simp [gdcCount]
@[simp] theorem gdcCount_loads (q : Nat) (g : Gdc → Counter) (p : Gdc → Counter → Gdc) (o n : Nat) : (gdcCount q g p o n s).loads = s.loads := by simp [gdcCount]
@[simp] theorem gdcCount_clusters (q : Nat) (g : Gdc → Counter) (p : Gdc → Counter → Gdc) (o n : Nat) : (gdcCount q g p o n s).clusters = s.clusters := by simp [gdcCount]
@[simp] theorem gdcCount_mem (q : Nat) (g : Gdc → Counter) (p : Gdc → Counter → Gdc) (o n : Nat) : (gdcCount q g p o n s).mem = s.mem := by simp [gdcCount]
@[simp] theorem gdcCount_memc (q : Nat) (g : Gdc → Counter) (p : Gdc → Counter → Gdc) (o n : Nat) : (gdcCount q g p o n s).memc = s.memc := by simp [gdcCount]
@[simp] theorem gdcCount_cxlp (q : Nat) (g : Gdc → Counter) (p : Gdc → Counter → Gdc) (o n : Nat) : (gdcCount q g p o n s).cxlp = s.cxlp := by simp [gdcCount]
@[simp] theorem gdcCount_silk (q : Nat) (g : Gdc → Counter) (p : Gdc → Counter → Gdc) (o n : Nat) : (gdcCount q g p o n s).silk = s.silk := by simp [gdcCount]
@[simp] theorem gdcCount_pace (q : Nat) (g : Gdc → Counter) (p : Gdc → Counter → Gdc) (o n : Nat) : (gdcCount q g p o n s).pace = s.pace := by simp [gdcCount]
@[simp] theorem gdcCount_ent (q : Nat) (g : Gdc → Counter) (p : Gdc → Counter → Gdc) (o n : Nat) : (gdcCount q g p o n s).ent = s.ent := by simp [gdcCount]
@[simp] theorem gdcCount_mgmt (q : Nat) (g : Gdc → Counter) (p : Gdc → Counter → Gdc) (o n : Nat) : (gdcCount q g p o n s).mgmt = s.mgmt := by simp [gdcCount]
@[simp] theorem gdcCount_trace (q : Nat) (g : Gdc → Counter) (p : Gdc → Counter → Gdc) (o n : Nat) : (gdcCount q g p o n s).trace = s.trace := by simp [gdcCount]

/-! ### dispCount -/

@[simp] theorem dispCount_pending (g : Disp → Counter) (p : Disp → Counter → Disp) (o : Nat) : (dispCount g p o s).pending = s.pending := by simp [dispCount]
@[simp] theorem dispCount_out (g : Disp → Counter) (p : Disp → Counter → Disp) (o : Nat) : (dispCount g p o s).out = s.out := by simp [dispCount]
@[simp] theorem dispCount_free (g : Disp → Counter) (p : Disp → Counter → Disp) (o : Nat) : (dispCount g p o s).free = s.free := by simp [dispCount]
@[simp] theorem dispCount_fuses (g : Disp → Counter) (p : Disp → Counter → Disp) (o : Nat) : (dispCount g p o s).fuses = s.fuses := by simp [dispCount]
@[simp] theorem dispCount_board (g : Disp → Counter) (p : Disp → Counter → Disp) (o : Nat) : (dispCount g p o s).board = s.board := by simp [dispCount]
@[simp] theorem dispCount_tap (g : Disp → Counter) (p : Disp → Counter → Disp) (o : Nat) : (dispCount g p o s).tap = s.tap := by simp [dispCount]
@[simp] theorem dispCount_hostp (g : Disp → Counter) (p : Disp → Counter → Disp) (o : Nat) : (dispCount g p o s).hostp = s.hostp := by simp [dispCount]
@[simp] theorem dispCount_ctxs (g : Disp → Counter) (p : Disp → Counter → Disp) (o : Nat) : (dispCount g p o s).ctxs = s.ctxs := by simp [dispCount]
@[simp] theorem dispCount_ctxPoison (g : Disp → Counter) (p : Disp → Counter → Disp) (o : Nat) : (dispCount g p o s).ctxPoison = s.ctxPoison := by simp [dispCount]
@[simp] theorem dispCount_ctxCache (g : Disp → Counter) (p : Disp → Counter → Disp) (o : Nat) : (dispCount g p o s).ctxCache = s.ctxCache := by simp [dispCount]
@[simp] theorem dispCount_runs (g : Disp → Counter) (p : Disp → Counter → Disp) (o : Nat) : (dispCount g p o s).runs = s.runs := by simp [dispCount]
@[simp] theorem dispCount_loads (g : Disp → Counter) (p : Disp → Counter → Disp) (o : Nat) : (dispCount g p o s).loads = s.loads := by simp [dispCount]
@[simp] theorem dispCount_clusters (g : Disp → Counter) (p : Disp → Counter → Disp) (o : Nat) : (dispCount g p o s).clusters = s.clusters := by simp [dispCount]
@[simp] theorem dispCount_mem (g : Disp → Counter) (p : Disp → Counter → Disp) (o : Nat) : (dispCount g p o s).mem = s.mem := by simp [dispCount]
@[simp] theorem dispCount_memc (g : Disp → Counter) (p : Disp → Counter → Disp) (o : Nat) : (dispCount g p o s).memc = s.memc := by simp [dispCount]
@[simp] theorem dispCount_gdc (g : Disp → Counter) (p : Disp → Counter → Disp) (o : Nat) : (dispCount g p o s).gdc = s.gdc := by simp [dispCount]
@[simp] theorem dispCount_cxlp (g : Disp → Counter) (p : Disp → Counter → Disp) (o : Nat) : (dispCount g p o s).cxlp = s.cxlp := by simp [dispCount]
@[simp] theorem dispCount_silk (g : Disp → Counter) (p : Disp → Counter → Disp) (o : Nat) : (dispCount g p o s).silk = s.silk := by simp [dispCount]
@[simp] theorem dispCount_pace (g : Disp → Counter) (p : Disp → Counter → Disp) (o : Nat) : (dispCount g p o s).pace = s.pace := by simp [dispCount]
@[simp] theorem dispCount_ent (g : Disp → Counter) (p : Disp → Counter → Disp) (o : Nat) : (dispCount g p o s).ent = s.ent := by simp [dispCount]
@[simp] theorem dispCount_mgmt (g : Disp → Counter) (p : Disp → Counter → Disp) (o : Nat) : (dispCount g p o s).mgmt = s.mgmt := by simp [dispCount]
@[simp] theorem dispCount_trace (g : Disp → Counter) (p : Disp → Counter → Disp) (o : Nat) : (dispCount g p o s).trace = s.trace := by simp [dispCount]

/-! ### paceCount -/

@[simp] theorem paceCount_pending (g : Pace → Counter) (p : Pace → Counter → Pace) (o n : Nat) : (paceCount g p o n s).pending = s.pending := by simp [paceCount]
@[simp] theorem paceCount_out (g : Pace → Counter) (p : Pace → Counter → Pace) (o n : Nat) : (paceCount g p o n s).out = s.out := by simp [paceCount]
@[simp] theorem paceCount_free (g : Pace → Counter) (p : Pace → Counter → Pace) (o n : Nat) : (paceCount g p o n s).free = s.free := by simp [paceCount]
@[simp] theorem paceCount_fuses (g : Pace → Counter) (p : Pace → Counter → Pace) (o n : Nat) : (paceCount g p o n s).fuses = s.fuses := by simp [paceCount]
@[simp] theorem paceCount_board (g : Pace → Counter) (p : Pace → Counter → Pace) (o n : Nat) : (paceCount g p o n s).board = s.board := by simp [paceCount]
@[simp] theorem paceCount_tap (g : Pace → Counter) (p : Pace → Counter → Pace) (o n : Nat) : (paceCount g p o n s).tap = s.tap := by simp [paceCount]
@[simp] theorem paceCount_hostp (g : Pace → Counter) (p : Pace → Counter → Pace) (o n : Nat) : (paceCount g p o n s).hostp = s.hostp := by simp [paceCount]
@[simp] theorem paceCount_disp (g : Pace → Counter) (p : Pace → Counter → Pace) (o n : Nat) : (paceCount g p o n s).disp = s.disp := by simp [paceCount]
@[simp] theorem paceCount_ctxs (g : Pace → Counter) (p : Pace → Counter → Pace) (o n : Nat) : (paceCount g p o n s).ctxs = s.ctxs := by simp [paceCount]
@[simp] theorem paceCount_ctxPoison (g : Pace → Counter) (p : Pace → Counter → Pace) (o n : Nat) : (paceCount g p o n s).ctxPoison = s.ctxPoison := by simp [paceCount]
@[simp] theorem paceCount_ctxCache (g : Pace → Counter) (p : Pace → Counter → Pace) (o n : Nat) : (paceCount g p o n s).ctxCache = s.ctxCache := by simp [paceCount]
@[simp] theorem paceCount_runs (g : Pace → Counter) (p : Pace → Counter → Pace) (o n : Nat) : (paceCount g p o n s).runs = s.runs := by simp [paceCount]
@[simp] theorem paceCount_loads (g : Pace → Counter) (p : Pace → Counter → Pace) (o n : Nat) : (paceCount g p o n s).loads = s.loads := by simp [paceCount]
@[simp] theorem paceCount_clusters (g : Pace → Counter) (p : Pace → Counter → Pace) (o n : Nat) : (paceCount g p o n s).clusters = s.clusters := by simp [paceCount]
@[simp] theorem paceCount_mem (g : Pace → Counter) (p : Pace → Counter → Pace) (o n : Nat) : (paceCount g p o n s).mem = s.mem := by simp [paceCount]
@[simp] theorem paceCount_memc (g : Pace → Counter) (p : Pace → Counter → Pace) (o n : Nat) : (paceCount g p o n s).memc = s.memc := by simp [paceCount]
@[simp] theorem paceCount_gdc (g : Pace → Counter) (p : Pace → Counter → Pace) (o n : Nat) : (paceCount g p o n s).gdc = s.gdc := by simp [paceCount]
@[simp] theorem paceCount_cxlp (g : Pace → Counter) (p : Pace → Counter → Pace) (o n : Nat) : (paceCount g p o n s).cxlp = s.cxlp := by simp [paceCount]
@[simp] theorem paceCount_silk (g : Pace → Counter) (p : Pace → Counter → Pace) (o n : Nat) : (paceCount g p o n s).silk = s.silk := by simp [paceCount]
@[simp] theorem paceCount_ent (g : Pace → Counter) (p : Pace → Counter → Pace) (o n : Nat) : (paceCount g p o n s).ent = s.ent := by simp [paceCount]
@[simp] theorem paceCount_mgmt (g : Pace → Counter) (p : Pace → Counter → Pace) (o n : Nat) : (paceCount g p o n s).mgmt = s.mgmt := by simp [paceCount]
@[simp] theorem paceCount_trace (g : Pace → Counter) (p : Pace → Counter → Pace) (o n : Nat) : (paceCount g p o n s).trace = s.trace := by simp [paceCount]

/-! ### silkCount -/

@[simp] theorem silkCount_pending (g : Silk → Counter) (p : Silk → Counter → Silk) (o : Nat) : (silkCount g p o s).pending = s.pending := by simp [silkCount]
@[simp] theorem silkCount_out (g : Silk → Counter) (p : Silk → Counter → Silk) (o : Nat) : (silkCount g p o s).out = s.out := by simp [silkCount]
@[simp] theorem silkCount_free (g : Silk → Counter) (p : Silk → Counter → Silk) (o : Nat) : (silkCount g p o s).free = s.free := by simp [silkCount]
@[simp] theorem silkCount_fuses (g : Silk → Counter) (p : Silk → Counter → Silk) (o : Nat) : (silkCount g p o s).fuses = s.fuses := by simp [silkCount]
@[simp] theorem silkCount_board (g : Silk → Counter) (p : Silk → Counter → Silk) (o : Nat) : (silkCount g p o s).board = s.board := by simp [silkCount]
@[simp] theorem silkCount_tap (g : Silk → Counter) (p : Silk → Counter → Silk) (o : Nat) : (silkCount g p o s).tap = s.tap := by simp [silkCount]
@[simp] theorem silkCount_hostp (g : Silk → Counter) (p : Silk → Counter → Silk) (o : Nat) : (silkCount g p o s).hostp = s.hostp := by simp [silkCount]
@[simp] theorem silkCount_disp (g : Silk → Counter) (p : Silk → Counter → Silk) (o : Nat) : (silkCount g p o s).disp = s.disp := by simp [silkCount]
@[simp] theorem silkCount_ctxs (g : Silk → Counter) (p : Silk → Counter → Silk) (o : Nat) : (silkCount g p o s).ctxs = s.ctxs := by simp [silkCount]
@[simp] theorem silkCount_ctxPoison (g : Silk → Counter) (p : Silk → Counter → Silk) (o : Nat) : (silkCount g p o s).ctxPoison = s.ctxPoison := by simp [silkCount]
@[simp] theorem silkCount_ctxCache (g : Silk → Counter) (p : Silk → Counter → Silk) (o : Nat) : (silkCount g p o s).ctxCache = s.ctxCache := by simp [silkCount]
@[simp] theorem silkCount_runs (g : Silk → Counter) (p : Silk → Counter → Silk) (o : Nat) : (silkCount g p o s).runs = s.runs := by simp [silkCount]
@[simp] theorem silkCount_loads (g : Silk → Counter) (p : Silk → Counter → Silk) (o : Nat) : (silkCount g p o s).loads = s.loads := by simp [silkCount]
@[simp] theorem silkCount_clusters (g : Silk → Counter) (p : Silk → Counter → Silk) (o : Nat) : (silkCount g p o s).clusters = s.clusters := by simp [silkCount]
@[simp] theorem silkCount_mem (g : Silk → Counter) (p : Silk → Counter → Silk) (o : Nat) : (silkCount g p o s).mem = s.mem := by simp [silkCount]
@[simp] theorem silkCount_memc (g : Silk → Counter) (p : Silk → Counter → Silk) (o : Nat) : (silkCount g p o s).memc = s.memc := by simp [silkCount]
@[simp] theorem silkCount_gdc (g : Silk → Counter) (p : Silk → Counter → Silk) (o : Nat) : (silkCount g p o s).gdc = s.gdc := by simp [silkCount]
@[simp] theorem silkCount_cxlp (g : Silk → Counter) (p : Silk → Counter → Silk) (o : Nat) : (silkCount g p o s).cxlp = s.cxlp := by simp [silkCount]
@[simp] theorem silkCount_pace (g : Silk → Counter) (p : Silk → Counter → Silk) (o : Nat) : (silkCount g p o s).pace = s.pace := by simp [silkCount]
@[simp] theorem silkCount_ent (g : Silk → Counter) (p : Silk → Counter → Silk) (o : Nat) : (silkCount g p o s).ent = s.ent := by simp [silkCount]
@[simp] theorem silkCount_mgmt (g : Silk → Counter) (p : Silk → Counter → Silk) (o : Nat) : (silkCount g p o s).mgmt = s.mgmt := by simp [silkCount]
@[simp] theorem silkCount_trace (g : Silk → Counter) (p : Silk → Counter → Silk) (o : Nat) : (silkCount g p o s).trace = s.trace := by simp [silkCount]

/-! ### entCount -/

@[simp] theorem entCount_pending (g : Ent → Counter) (p : Ent → Counter → Ent) (o : Nat) : (entCount g p o s).pending = s.pending := by simp [entCount]
@[simp] theorem entCount_out (g : Ent → Counter) (p : Ent → Counter → Ent) (o : Nat) : (entCount g p o s).out = s.out := by simp [entCount]
@[simp] theorem entCount_free (g : Ent → Counter) (p : Ent → Counter → Ent) (o : Nat) : (entCount g p o s).free = s.free := by simp [entCount]
@[simp] theorem entCount_fuses (g : Ent → Counter) (p : Ent → Counter → Ent) (o : Nat) : (entCount g p o s).fuses = s.fuses := by simp [entCount]
@[simp] theorem entCount_board (g : Ent → Counter) (p : Ent → Counter → Ent) (o : Nat) : (entCount g p o s).board = s.board := by simp [entCount]
@[simp] theorem entCount_tap (g : Ent → Counter) (p : Ent → Counter → Ent) (o : Nat) : (entCount g p o s).tap = s.tap := by simp [entCount]
@[simp] theorem entCount_hostp (g : Ent → Counter) (p : Ent → Counter → Ent) (o : Nat) : (entCount g p o s).hostp = s.hostp := by simp [entCount]
@[simp] theorem entCount_disp (g : Ent → Counter) (p : Ent → Counter → Ent) (o : Nat) : (entCount g p o s).disp = s.disp := by simp [entCount]
@[simp] theorem entCount_ctxs (g : Ent → Counter) (p : Ent → Counter → Ent) (o : Nat) : (entCount g p o s).ctxs = s.ctxs := by simp [entCount]
@[simp] theorem entCount_ctxPoison (g : Ent → Counter) (p : Ent → Counter → Ent) (o : Nat) : (entCount g p o s).ctxPoison = s.ctxPoison := by simp [entCount]
@[simp] theorem entCount_ctxCache (g : Ent → Counter) (p : Ent → Counter → Ent) (o : Nat) : (entCount g p o s).ctxCache = s.ctxCache := by simp [entCount]
@[simp] theorem entCount_runs (g : Ent → Counter) (p : Ent → Counter → Ent) (o : Nat) : (entCount g p o s).runs = s.runs := by simp [entCount]
@[simp] theorem entCount_loads (g : Ent → Counter) (p : Ent → Counter → Ent) (o : Nat) : (entCount g p o s).loads = s.loads := by simp [entCount]
@[simp] theorem entCount_clusters (g : Ent → Counter) (p : Ent → Counter → Ent) (o : Nat) : (entCount g p o s).clusters = s.clusters := by simp [entCount]
@[simp] theorem entCount_mem (g : Ent → Counter) (p : Ent → Counter → Ent) (o : Nat) : (entCount g p o s).mem = s.mem := by simp [entCount]
@[simp] theorem entCount_memc (g : Ent → Counter) (p : Ent → Counter → Ent) (o : Nat) : (entCount g p o s).memc = s.memc := by simp [entCount]
@[simp] theorem entCount_gdc (g : Ent → Counter) (p : Ent → Counter → Ent) (o : Nat) : (entCount g p o s).gdc = s.gdc := by simp [entCount]
@[simp] theorem entCount_cxlp (g : Ent → Counter) (p : Ent → Counter → Ent) (o : Nat) : (entCount g p o s).cxlp = s.cxlp := by simp [entCount]
@[simp] theorem entCount_silk (g : Ent → Counter) (p : Ent → Counter → Ent) (o : Nat) : (entCount g p o s).silk = s.silk := by simp [entCount]
@[simp] theorem entCount_pace (g : Ent → Counter) (p : Ent → Counter → Ent) (o : Nat) : (entCount g p o s).pace = s.pace := by simp [entCount]
@[simp] theorem entCount_mgmt (g : Ent → Counter) (p : Ent → Counter → Ent) (o : Nat) : (entCount g p o s).mgmt = s.mgmt := by simp [entCount]
@[simp] theorem entCount_trace (g : Ent → Counter) (p : Ent → Counter → Ent) (o : Nat) : (entCount g p o s).trace = s.trace := by simp [entCount]

/-! ### traceCount -/

@[simp] theorem traceCount_pending (g : Trace → Counter) (p : Trace → Counter → Trace) (o n : Nat) : (traceCount g p o n s).pending = s.pending := by simp [traceCount]
@[simp] theorem traceCount_out (g : Trace → Counter) (p : Trace → Counter → Trace) (o n : Nat) : (traceCount g p o n s).out = s.out := by simp [traceCount]
@[simp] theorem traceCount_free (g : Trace → Counter) (p : Trace → Counter → Trace) (o n : Nat) : (traceCount g p o n s).free = s.free := by simp [traceCount]
@[simp] theorem traceCount_fuses (g : Trace → Counter) (p : Trace → Counter → Trace) (o n : Nat) : (traceCount g p o n s).fuses = s.fuses := by simp [traceCount]
@[simp] theorem traceCount_board (g : Trace → Counter) (p : Trace → Counter → Trace) (o n : Nat) : (traceCount g p o n s).board = s.board := by simp [traceCount]
@[simp] theorem traceCount_tap (g : Trace → Counter) (p : Trace → Counter → Trace) (o n : Nat) : (traceCount g p o n s).tap = s.tap := by simp [traceCount]
@[simp] theorem traceCount_hostp (g : Trace → Counter) (p : Trace → Counter → Trace) (o n : Nat) : (traceCount g p o n s).hostp = s.hostp := by simp [traceCount]
@[simp] theorem traceCount_disp (g : Trace → Counter) (p : Trace → Counter → Trace) (o n : Nat) : (traceCount g p o n s).disp = s.disp := by simp [traceCount]
@[simp] theorem traceCount_ctxs (g : Trace → Counter) (p : Trace → Counter → Trace) (o n : Nat) : (traceCount g p o n s).ctxs = s.ctxs := by simp [traceCount]
@[simp] theorem traceCount_ctxPoison (g : Trace → Counter) (p : Trace → Counter → Trace) (o n : Nat) : (traceCount g p o n s).ctxPoison = s.ctxPoison := by simp [traceCount]
@[simp] theorem traceCount_ctxCache (g : Trace → Counter) (p : Trace → Counter → Trace) (o n : Nat) : (traceCount g p o n s).ctxCache = s.ctxCache := by simp [traceCount]
@[simp] theorem traceCount_runs (g : Trace → Counter) (p : Trace → Counter → Trace) (o n : Nat) : (traceCount g p o n s).runs = s.runs := by simp [traceCount]
@[simp] theorem traceCount_loads (g : Trace → Counter) (p : Trace → Counter → Trace) (o n : Nat) : (traceCount g p o n s).loads = s.loads := by simp [traceCount]
@[simp] theorem traceCount_clusters (g : Trace → Counter) (p : Trace → Counter → Trace) (o n : Nat) : (traceCount g p o n s).clusters = s.clusters := by simp [traceCount]
@[simp] theorem traceCount_mem (g : Trace → Counter) (p : Trace → Counter → Trace) (o n : Nat) : (traceCount g p o n s).mem = s.mem := by simp [traceCount]
@[simp] theorem traceCount_memc (g : Trace → Counter) (p : Trace → Counter → Trace) (o n : Nat) : (traceCount g p o n s).memc = s.memc := by simp [traceCount]
@[simp] theorem traceCount_gdc (g : Trace → Counter) (p : Trace → Counter → Trace) (o n : Nat) : (traceCount g p o n s).gdc = s.gdc := by simp [traceCount]
@[simp] theorem traceCount_cxlp (g : Trace → Counter) (p : Trace → Counter → Trace) (o n : Nat) : (traceCount g p o n s).cxlp = s.cxlp := by simp [traceCount]
@[simp] theorem traceCount_silk (g : Trace → Counter) (p : Trace → Counter → Trace) (o n : Nat) : (traceCount g p o n s).silk = s.silk := by simp [traceCount]
@[simp] theorem traceCount_pace (g : Trace → Counter) (p : Trace → Counter → Trace) (o n : Nat) : (traceCount g p o n s).pace = s.pace := by simp [traceCount]
@[simp] theorem traceCount_ent (g : Trace → Counter) (p : Trace → Counter → Trace) (o n : Nat) : (traceCount g p o n s).ent = s.ent := by simp [traceCount]
@[simp] theorem traceCount_mgmt (g : Trace → Counter) (p : Trace → Counter → Trace) (o n : Nat) : (traceCount g p o n s).mgmt = s.mgmt := by simp [traceCount]

/-! ### coreCount -/

@[simp] theorem coreCount_pending (c l : Nat) (g : Core → Counter) (p : Core → Counter → Core) (o n : Nat) : (coreCount c l g p o n s).pending = s.pending := by simp [coreCount]
@[simp] theorem coreCount_out (c l : Nat) (g : Core → Counter) (p : Core → Counter → Core) (o n : Nat) : (coreCount c l g p o n s).out = s.out := by simp [coreCount]
@[simp] theorem coreCount_free (c l : Nat) (g : Core → Counter) (p : Core → Counter → Core) (o n : Nat) : (coreCount c l g p o n s).free = s.free := by simp [coreCount]
@[simp] theorem coreCount_fuses (c l : Nat) (g : Core → Counter) (p : Core → Counter → Core) (o n : Nat) : (coreCount c l g p o n s).fuses = s.fuses := by simp [coreCount]
@[simp] theorem coreCount_board (c l : Nat) (g : Core → Counter) (p : Core → Counter → Core) (o n : Nat) : (coreCount c l g p o n s).board = s.board := by simp [coreCount]
@[simp] theorem coreCount_tap (c l : Nat) (g : Core → Counter) (p : Core → Counter → Core) (o n : Nat) : (coreCount c l g p o n s).tap = s.tap := by simp [coreCount]
@[simp] theorem coreCount_hostp (c l : Nat) (g : Core → Counter) (p : Core → Counter → Core) (o n : Nat) : (coreCount c l g p o n s).hostp = s.hostp := by simp [coreCount]
@[simp] theorem coreCount_disp (c l : Nat) (g : Core → Counter) (p : Core → Counter → Core) (o n : Nat) : (coreCount c l g p o n s).disp = s.disp := by simp [coreCount]
@[simp] theorem coreCount_ctxs (c l : Nat) (g : Core → Counter) (p : Core → Counter → Core) (o n : Nat) : (coreCount c l g p o n s).ctxs = s.ctxs := by simp [coreCount]
@[simp] theorem coreCount_ctxPoison (c l : Nat) (g : Core → Counter) (p : Core → Counter → Core) (o n : Nat) : (coreCount c l g p o n s).ctxPoison = s.ctxPoison := by simp [coreCount]
@[simp] theorem coreCount_ctxCache (c l : Nat) (g : Core → Counter) (p : Core → Counter → Core) (o n : Nat) : (coreCount c l g p o n s).ctxCache = s.ctxCache := by simp [coreCount]
@[simp] theorem coreCount_runs (c l : Nat) (g : Core → Counter) (p : Core → Counter → Core) (o n : Nat) : (coreCount c l g p o n s).runs = s.runs := by simp [coreCount]
@[simp] theorem coreCount_loads (c l : Nat) (g : Core → Counter) (p : Core → Counter → Core) (o n : Nat) : (coreCount c l g p o n s).loads = s.loads := by simp [coreCount]
@[simp] theorem coreCount_mem (c l : Nat) (g : Core → Counter) (p : Core → Counter → Core) (o n : Nat) : (coreCount c l g p o n s).mem = s.mem := by simp [coreCount]
@[simp] theorem coreCount_memc (c l : Nat) (g : Core → Counter) (p : Core → Counter → Core) (o n : Nat) : (coreCount c l g p o n s).memc = s.memc := by simp [coreCount]
@[simp] theorem coreCount_gdc (c l : Nat) (g : Core → Counter) (p : Core → Counter → Core) (o n : Nat) : (coreCount c l g p o n s).gdc = s.gdc := by simp [coreCount]
@[simp] theorem coreCount_cxlp (c l : Nat) (g : Core → Counter) (p : Core → Counter → Core) (o n : Nat) : (coreCount c l g p o n s).cxlp = s.cxlp := by simp [coreCount]
@[simp] theorem coreCount_silk (c l : Nat) (g : Core → Counter) (p : Core → Counter → Core) (o n : Nat) : (coreCount c l g p o n s).silk = s.silk := by simp [coreCount]
@[simp] theorem coreCount_pace (c l : Nat) (g : Core → Counter) (p : Core → Counter → Core) (o n : Nat) : (coreCount c l g p o n s).pace = s.pace := by simp [coreCount]
@[simp] theorem coreCount_ent (c l : Nat) (g : Core → Counter) (p : Core → Counter → Core) (o n : Nat) : (coreCount c l g p o n s).ent = s.ent := by simp [coreCount]
@[simp] theorem coreCount_mgmt (c l : Nat) (g : Core → Counter) (p : Core → Counter → Core) (o n : Nat) : (coreCount c l g p o n s).mgmt = s.mgmt := by simp [coreCount]
@[simp] theorem coreCount_trace (c l : Nat) (g : Core → Counter) (p : Core → Counter → Core) (o n : Nat) : (coreCount c l g p o n s).trace = s.trace := by simp [coreCount]

/-! ### netCount -/

@[simp] theorem netCount_pending (c : Nat) (g : Cluster → Counter) (p : Cluster → Counter → Cluster) (o n : Nat) : (netCount c g p o n s).pending = s.pending := by simp [netCount]
@[simp] theorem netCount_out (c : Nat) (g : Cluster → Counter) (p : Cluster → Counter → Cluster) (o n : Nat) : (netCount c g p o n s).out = s.out := by simp [netCount]
@[simp] theorem netCount_free (c : Nat) (g : Cluster → Counter) (p : Cluster → Counter → Cluster) (o n : Nat) : (netCount c g p o n s).free = s.free := by simp [netCount]
@[simp] theorem netCount_fuses (c : Nat) (g : Cluster → Counter) (p : Cluster → Counter → Cluster) (o n : Nat) : (netCount c g p o n s).fuses = s.fuses := by simp [netCount]
@[simp] theorem netCount_board (c : Nat) (g : Cluster → Counter) (p : Cluster → Counter → Cluster) (o n : Nat) : (netCount c g p o n s).board = s.board := by simp [netCount]
@[simp] theorem netCount_tap (c : Nat) (g : Cluster → Counter) (p : Cluster → Counter → Cluster) (o n : Nat) : (netCount c g p o n s).tap = s.tap := by simp [netCount]
@[simp] theorem netCount_hostp (c : Nat) (g : Cluster → Counter) (p : Cluster → Counter → Cluster) (o n : Nat) : (netCount c g p o n s).hostp = s.hostp := by simp [netCount]
@[simp] theorem netCount_disp (c : Nat) (g : Cluster → Counter) (p : Cluster → Counter → Cluster) (o n : Nat) : (netCount c g p o n s).disp = s.disp := by simp [netCount]
@[simp] theorem netCount_ctxs (c : Nat) (g : Cluster → Counter) (p : Cluster → Counter → Cluster) (o n : Nat) : (netCount c g p o n s).ctxs = s.ctxs := by simp [netCount]
@[simp] theorem netCount_ctxPoison (c : Nat) (g : Cluster → Counter) (p : Cluster → Counter → Cluster) (o n : Nat) : (netCount c g p o n s).ctxPoison = s.ctxPoison := by simp [netCount]
@[simp] theorem netCount_ctxCache (c : Nat) (g : Cluster → Counter) (p : Cluster → Counter → Cluster) (o n : Nat) : (netCount c g p o n s).ctxCache = s.ctxCache := by simp [netCount]
@[simp] theorem netCount_runs (c : Nat) (g : Cluster → Counter) (p : Cluster → Counter → Cluster) (o n : Nat) : (netCount c g p o n s).runs = s.runs := by simp [netCount]
@[simp] theorem netCount_loads (c : Nat) (g : Cluster → Counter) (p : Cluster → Counter → Cluster) (o n : Nat) : (netCount c g p o n s).loads = s.loads := by simp [netCount]
@[simp] theorem netCount_mem (c : Nat) (g : Cluster → Counter) (p : Cluster → Counter → Cluster) (o n : Nat) : (netCount c g p o n s).mem = s.mem := by simp [netCount]
@[simp] theorem netCount_memc (c : Nat) (g : Cluster → Counter) (p : Cluster → Counter → Cluster) (o n : Nat) : (netCount c g p o n s).memc = s.memc := by simp [netCount]
@[simp] theorem netCount_gdc (c : Nat) (g : Cluster → Counter) (p : Cluster → Counter → Cluster) (o n : Nat) : (netCount c g p o n s).gdc = s.gdc := by simp [netCount]
@[simp] theorem netCount_cxlp (c : Nat) (g : Cluster → Counter) (p : Cluster → Counter → Cluster) (o n : Nat) : (netCount c g p o n s).cxlp = s.cxlp := by simp [netCount]
@[simp] theorem netCount_silk (c : Nat) (g : Cluster → Counter) (p : Cluster → Counter → Cluster) (o n : Nat) : (netCount c g p o n s).silk = s.silk := by simp [netCount]
@[simp] theorem netCount_pace (c : Nat) (g : Cluster → Counter) (p : Cluster → Counter → Cluster) (o n : Nat) : (netCount c g p o n s).pace = s.pace := by simp [netCount]
@[simp] theorem netCount_ent (c : Nat) (g : Cluster → Counter) (p : Cluster → Counter → Cluster) (o n : Nat) : (netCount c g p o n s).ent = s.ent := by simp [netCount]
@[simp] theorem netCount_mgmt (c : Nat) (g : Cluster → Counter) (p : Cluster → Counter → Cluster) (o n : Nat) : (netCount c g p o n s).mgmt = s.mgmt := by simp [netCount]
@[simp] theorem netCount_trace (c : Nat) (g : Cluster → Counter) (p : Cluster → Counter → Cluster) (o n : Nat) : (netCount c g p o n s).trace = s.trace := by simp [netCount]

/-! ### cxlCountPoison -/

@[simp] theorem cxlCountPoison_pending (d : Nat) : (cxlCountPoison d s).pending = s.pending := by simp only [cxlCountPoison]; split <;> simp
@[simp] theorem cxlCountPoison_out (d : Nat) : (cxlCountPoison d s).out = s.out := by simp only [cxlCountPoison]; split <;> simp
@[simp] theorem cxlCountPoison_free (d : Nat) : (cxlCountPoison d s).free = s.free := by simp only [cxlCountPoison]; split <;> simp
@[simp] theorem cxlCountPoison_fuses (d : Nat) : (cxlCountPoison d s).fuses = s.fuses := by simp only [cxlCountPoison]; split <;> simp
@[simp] theorem cxlCountPoison_board (d : Nat) : (cxlCountPoison d s).board = s.board := by simp only [cxlCountPoison]; split <;> simp
@[simp] theorem cxlCountPoison_tap (d : Nat) : (cxlCountPoison d s).tap = s.tap := by simp only [cxlCountPoison]; split <;> simp
@[simp] theorem cxlCountPoison_hostp (d : Nat) : (cxlCountPoison d s).hostp = s.hostp := by simp only [cxlCountPoison]; split <;> simp
@[simp] theorem cxlCountPoison_disp (d : Nat) : (cxlCountPoison d s).disp = s.disp := by simp only [cxlCountPoison]; split <;> simp
@[simp] theorem cxlCountPoison_ctxs (d : Nat) : (cxlCountPoison d s).ctxs = s.ctxs := by simp only [cxlCountPoison]; split <;> simp
@[simp] theorem cxlCountPoison_ctxPoison (d : Nat) : (cxlCountPoison d s).ctxPoison = s.ctxPoison := by simp only [cxlCountPoison]; split <;> simp
@[simp] theorem cxlCountPoison_ctxCache (d : Nat) : (cxlCountPoison d s).ctxCache = s.ctxCache := by simp only [cxlCountPoison]; split <;> simp
@[simp] theorem cxlCountPoison_runs (d : Nat) : (cxlCountPoison d s).runs = s.runs := by simp only [cxlCountPoison]; split <;> simp
@[simp] theorem cxlCountPoison_loads (d : Nat) : (cxlCountPoison d s).loads = s.loads := by simp only [cxlCountPoison]; split <;> simp
@[simp] theorem cxlCountPoison_clusters (d : Nat) : (cxlCountPoison d s).clusters = s.clusters := by simp only [cxlCountPoison]; split <;> simp
@[simp] theorem cxlCountPoison_mem (d : Nat) : (cxlCountPoison d s).mem = s.mem := by simp only [cxlCountPoison]; split <;> simp
@[simp] theorem cxlCountPoison_memc (d : Nat) : (cxlCountPoison d s).memc = s.memc := by simp only [cxlCountPoison]; split <;> simp
@[simp] theorem cxlCountPoison_gdc (d : Nat) : (cxlCountPoison d s).gdc = s.gdc := by simp only [cxlCountPoison]; split <;> simp
@[simp] theorem cxlCountPoison_silk (d : Nat) : (cxlCountPoison d s).silk = s.silk := by simp only [cxlCountPoison]; split <;> simp
@[simp] theorem cxlCountPoison_pace (d : Nat) : (cxlCountPoison d s).pace = s.pace := by simp only [cxlCountPoison]; split <;> simp
@[simp] theorem cxlCountPoison_ent (d : Nat) : (cxlCountPoison d s).ent = s.ent := by simp only [cxlCountPoison]; split <;> simp
@[simp] theorem cxlCountPoison_mgmt (d : Nat) : (cxlCountPoison d s).mgmt = s.mgmt := by simp only [cxlCountPoison]; split <;> simp
@[simp] theorem cxlCountPoison_trace (d : Nat) : (cxlCountPoison d s).trace = s.trace := by simp only [cxlCountPoison]; split <;> simp

/-! ### stopLaunch -/

@[simp] theorem stopLaunch_pending (id st : Nat) : (stopLaunch id st s).pending = s.pending := by simp [stopLaunch]
@[simp] theorem stopLaunch_out (id st : Nat) : (stopLaunch id st s).out = s.out := by simp [stopLaunch]
@[simp] theorem stopLaunch_free (id st : Nat) : (stopLaunch id st s).free = s.free := by simp [stopLaunch]
@[simp] theorem stopLaunch_fuses (id st : Nat) : (stopLaunch id st s).fuses = s.fuses := by simp [stopLaunch]
@[simp] theorem stopLaunch_board (id st : Nat) : (stopLaunch id st s).board = s.board := by simp [stopLaunch]
@[simp] theorem stopLaunch_tap (id st : Nat) : (stopLaunch id st s).tap = s.tap := by simp [stopLaunch]
@[simp] theorem stopLaunch_hostp (id st : Nat) : (stopLaunch id st s).hostp = s.hostp := by simp [stopLaunch]
@[simp] theorem stopLaunch_ctxs (id st : Nat) : (stopLaunch id st s).ctxs = s.ctxs := by simp [stopLaunch]
@[simp] theorem stopLaunch_ctxPoison (id st : Nat) : (stopLaunch id st s).ctxPoison = s.ctxPoison := by simp [stopLaunch]
@[simp] theorem stopLaunch_ctxCache (id st : Nat) : (stopLaunch id st s).ctxCache = s.ctxCache := by simp [stopLaunch]
@[simp] theorem stopLaunch_runs (id st : Nat) : (stopLaunch id st s).runs = s.runs := by simp [stopLaunch]
@[simp] theorem stopLaunch_loads (id st : Nat) : (stopLaunch id st s).loads = s.loads := by simp [stopLaunch]
@[simp] theorem stopLaunch_clusters (id st : Nat) : (stopLaunch id st s).clusters = s.clusters := by simp [stopLaunch]
@[simp] theorem stopLaunch_net (id st : Nat) : (stopLaunch id st s).net = s.net := by simp [stopLaunch]
@[simp] theorem stopLaunch_mem (id st : Nat) : (stopLaunch id st s).mem = s.mem := by simp [stopLaunch]
@[simp] theorem stopLaunch_memc (id st : Nat) : (stopLaunch id st s).memc = s.memc := by simp [stopLaunch]
@[simp] theorem stopLaunch_gdc (id st : Nat) : (stopLaunch id st s).gdc = s.gdc := by simp [stopLaunch]
@[simp] theorem stopLaunch_cxlp (id st : Nat) : (stopLaunch id st s).cxlp = s.cxlp := by simp [stopLaunch]
@[simp] theorem stopLaunch_silk (id st : Nat) : (stopLaunch id st s).silk = s.silk := by simp [stopLaunch]
@[simp] theorem stopLaunch_pace (id st : Nat) : (stopLaunch id st s).pace = s.pace := by simp [stopLaunch]
@[simp] theorem stopLaunch_ent (id st : Nat) : (stopLaunch id st s).ent = s.ent := by simp [stopLaunch]
@[simp] theorem stopLaunch_mgmt (id st : Nat) : (stopLaunch id st s).mgmt = s.mgmt := by simp [stopLaunch]
@[simp] theorem stopLaunch_trace (id st : Nat) : (stopLaunch id st s).trace = s.trace := by simp [stopLaunch]

/-! ### discardPreloads -/

@[simp] theorem discardPreloads_pending (lo hi : Nat) : (discardPreloads s lo hi).pending = s.pending := rfl
@[simp] theorem discardPreloads_out (lo hi : Nat) : (discardPreloads s lo hi).out = s.out := rfl
@[simp] theorem discardPreloads_free (lo hi : Nat) : (discardPreloads s lo hi).free = s.free := rfl
@[simp] theorem discardPreloads_fuses (lo hi : Nat) : (discardPreloads s lo hi).fuses = s.fuses := rfl
@[simp] theorem discardPreloads_board (lo hi : Nat) : (discardPreloads s lo hi).board = s.board := rfl
@[simp] theorem discardPreloads_tap (lo hi : Nat) : (discardPreloads s lo hi).tap = s.tap := rfl
@[simp] theorem discardPreloads_hostp (lo hi : Nat) : (discardPreloads s lo hi).hostp = s.hostp := rfl
@[simp] theorem discardPreloads_ctxs (lo hi : Nat) : (discardPreloads s lo hi).ctxs = s.ctxs := rfl
@[simp] theorem discardPreloads_ctxPoison (lo hi : Nat) : (discardPreloads s lo hi).ctxPoison = s.ctxPoison := rfl
@[simp] theorem discardPreloads_ctxCache (lo hi : Nat) : (discardPreloads s lo hi).ctxCache = s.ctxCache := rfl
@[simp] theorem discardPreloads_runs (lo hi : Nat) : (discardPreloads s lo hi).runs = s.runs := rfl
@[simp] theorem discardPreloads_loads (lo hi : Nat) : (discardPreloads s lo hi).loads = s.loads := rfl
@[simp] theorem discardPreloads_clusters (lo hi : Nat) : (discardPreloads s lo hi).clusters = s.clusters := rfl
@[simp] theorem discardPreloads_net (lo hi : Nat) : (discardPreloads s lo hi).net = s.net := rfl
@[simp] theorem discardPreloads_mem (lo hi : Nat) : (discardPreloads s lo hi).mem = s.mem := rfl
@[simp] theorem discardPreloads_memc (lo hi : Nat) : (discardPreloads s lo hi).memc = s.memc := rfl
@[simp] theorem discardPreloads_gdc (lo hi : Nat) : (discardPreloads s lo hi).gdc = s.gdc := rfl
@[simp] theorem discardPreloads_cxlp (lo hi : Nat) : (discardPreloads s lo hi).cxlp = s.cxlp := rfl
@[simp] theorem discardPreloads_silk (lo hi : Nat) : (discardPreloads s lo hi).silk = s.silk := rfl
@[simp] theorem discardPreloads_pace (lo hi : Nat) : (discardPreloads s lo hi).pace = s.pace := rfl
@[simp] theorem discardPreloads_ent (lo hi : Nat) : (discardPreloads s lo hi).ent = s.ent := rfl
@[simp] theorem discardPreloads_mgmt (lo hi : Nat) : (discardPreloads s lo hi).mgmt = s.mgmt := rfl
@[simp] theorem discardPreloads_trace (lo hi : Nat) : (discardPreloads s lo hi).trace = s.trace := rfl

/-! ### recordFault -/

@[simp] theorem recordFault_pending (a k l v src : Nat) (w : Bool) : (recordFault a k l v src w s).pending = s.pending := by simp only [recordFault]; split <;> simp
@[simp] theorem recordFault_out (a k l v src : Nat) (w : Bool) : (recordFault a k l v src w s).out = s.out := by simp only [recordFault]; split <;> simp
@[simp] theorem recordFault_free (a k l v src : Nat) (w : Bool) : (recordFault a k l v src w s).free = s.free := by simp only [recordFault]; split <;> simp
@[simp] theorem recordFault_fuses (a k l v src : Nat) (w : Bool) : (recordFault a k l v src w s).fuses = s.fuses := by simp only [recordFault]; split <;> simp
@[simp] theorem recordFault_board (a k l v src : Nat) (w : Bool) : (recordFault a k l v src w s).board = s.board := by simp only [recordFault]; split <;> simp
@[simp] theorem recordFault_tap (a k l v src : Nat) (w : Bool) : (recordFault a k l v src w s).tap = s.tap := by simp only [recordFault]; split <;> simp
@[simp] theorem recordFault_hostp (a k l v src : Nat) (w : Bool) : (recordFault a k l v src w s).hostp = s.hostp := by simp only [recordFault]; split <;> simp
@[simp] theorem recordFault_disp (a k l v src : Nat) (w : Bool) : (recordFault a k l v src w s).disp = s.disp := by simp only [recordFault]; split <;> simp
@[simp] theorem recordFault_ctxs (a k l v src : Nat) (w : Bool) : (recordFault a k l v src w s).ctxs = s.ctxs := by simp only [recordFault]; split <;> simp
@[simp] theorem recordFault_ctxPoison (a k l v src : Nat) (w : Bool) : (recordFault a k l v src w s).ctxPoison = s.ctxPoison := by simp only [recordFault]; split <;> simp
@[simp] theorem recordFault_ctxCache (a k l v src : Nat) (w : Bool) : (recordFault a k l v src w s).ctxCache = s.ctxCache := by simp only [recordFault]; split <;> simp
@[simp] theorem recordFault_runs (a k l v src : Nat) (w : Bool) : (recordFault a k l v src w s).runs = s.runs := by simp only [recordFault]; split <;> simp
@[simp] theorem recordFault_loads (a k l v src : Nat) (w : Bool) : (recordFault a k l v src w s).loads = s.loads := by simp only [recordFault]; split <;> simp
@[simp] theorem recordFault_clusters (a k l v src : Nat) (w : Bool) : (recordFault a k l v src w s).clusters = s.clusters := by simp only [recordFault]; split <;> simp
@[simp] theorem recordFault_net (a k l v src : Nat) (w : Bool) : (recordFault a k l v src w s).net = s.net := by simp only [recordFault]; split <;> simp
@[simp] theorem recordFault_mem (a k l v src : Nat) (w : Bool) : (recordFault a k l v src w s).mem = s.mem := by simp only [recordFault]; split <;> simp
@[simp] theorem recordFault_gdc (a k l v src : Nat) (w : Bool) : (recordFault a k l v src w s).gdc = s.gdc := by simp only [recordFault]; split <;> simp
@[simp] theorem recordFault_cxlp (a k l v src : Nat) (w : Bool) : (recordFault a k l v src w s).cxlp = s.cxlp := by simp only [recordFault]; split <;> simp
@[simp] theorem recordFault_silk (a k l v src : Nat) (w : Bool) : (recordFault a k l v src w s).silk = s.silk := by simp only [recordFault]; split <;> simp
@[simp] theorem recordFault_pace (a k l v src : Nat) (w : Bool) : (recordFault a k l v src w s).pace = s.pace := by simp only [recordFault]; split <;> simp
@[simp] theorem recordFault_ent (a k l v src : Nat) (w : Bool) : (recordFault a k l v src w s).ent = s.ent := by simp only [recordFault]; split <;> simp
@[simp] theorem recordFault_mgmt (a k l v src : Nat) (w : Bool) : (recordFault a k l v src w s).mgmt = s.mgmt := by simp only [recordFault]; split <;> simp
@[simp] theorem recordFault_trace (a k l v src : Nat) (w : Bool) : (recordFault a k l v src w s).trace = s.trace := by simp only [recordFault]; split <;> simp

/-! ### consumePoison -/

@[simp] theorem consumePoison_pending (c l : Nat) (ps : List Nat) : (consumePoison c l ps s).pending = s.pending := by simp [consumePoison]
@[simp] theorem consumePoison_out (c l : Nat) (ps : List Nat) : (consumePoison c l ps s).out = s.out := by simp [consumePoison]
@[simp] theorem consumePoison_free (c l : Nat) (ps : List Nat) : (consumePoison c l ps s).free = s.free := by simp [consumePoison]
@[simp] theorem consumePoison_fuses (c l : Nat) (ps : List Nat) : (consumePoison c l ps s).fuses = s.fuses := by simp [consumePoison]
@[simp] theorem consumePoison_board (c l : Nat) (ps : List Nat) : (consumePoison c l ps s).board = s.board := by simp [consumePoison]
@[simp] theorem consumePoison_tap (c l : Nat) (ps : List Nat) : (consumePoison c l ps s).tap = s.tap := by simp [consumePoison]
@[simp] theorem consumePoison_hostp (c l : Nat) (ps : List Nat) : (consumePoison c l ps s).hostp = s.hostp := by simp [consumePoison]
@[simp] theorem consumePoison_disp (c l : Nat) (ps : List Nat) : (consumePoison c l ps s).disp = s.disp := by simp [consumePoison]
@[simp] theorem consumePoison_ctxs (c l : Nat) (ps : List Nat) : (consumePoison c l ps s).ctxs = s.ctxs := by simp [consumePoison]
@[simp] theorem consumePoison_ctxPoison (c l : Nat) (ps : List Nat) : (consumePoison c l ps s).ctxPoison = s.ctxPoison := by simp [consumePoison]
@[simp] theorem consumePoison_ctxCache (c l : Nat) (ps : List Nat) : (consumePoison c l ps s).ctxCache = s.ctxCache := by simp [consumePoison]
@[simp] theorem consumePoison_runs (c l : Nat) (ps : List Nat) : (consumePoison c l ps s).runs = s.runs := by simp [consumePoison]
@[simp] theorem consumePoison_loads (c l : Nat) (ps : List Nat) : (consumePoison c l ps s).loads = s.loads := by simp [consumePoison]
@[simp] theorem consumePoison_mem (c l : Nat) (ps : List Nat) : (consumePoison c l ps s).mem = s.mem := by simp [consumePoison]
@[simp] theorem consumePoison_gdc (c l : Nat) (ps : List Nat) : (consumePoison c l ps s).gdc = s.gdc := by simp [consumePoison]
@[simp] theorem consumePoison_cxlp (c l : Nat) (ps : List Nat) : (consumePoison c l ps s).cxlp = s.cxlp := by simp [consumePoison]
@[simp] theorem consumePoison_silk (c l : Nat) (ps : List Nat) : (consumePoison c l ps s).silk = s.silk := by simp [consumePoison]
@[simp] theorem consumePoison_pace (c l : Nat) (ps : List Nat) : (consumePoison c l ps s).pace = s.pace := by simp [consumePoison]
@[simp] theorem consumePoison_ent (c l : Nat) (ps : List Nat) : (consumePoison c l ps s).ent = s.ent := by simp [consumePoison]
@[simp] theorem consumePoison_mgmt (c l : Nat) (ps : List Nat) : (consumePoison c l ps s).mgmt = s.mgmt := by simp [consumePoison]
@[simp] theorem consumePoison_trace (c l : Nat) (ps : List Nat) : (consumePoison c l ps s).trace = s.trace := by simp [consumePoison]

/-! ### controlPoison -/

@[simp] theorem controlPoison_pending (id p : Nat) : (controlPoison id p s).pending = s.pending := by simp [controlPoison]
@[simp] theorem controlPoison_out (id p : Nat) : (controlPoison id p s).out = s.out := by simp [controlPoison]
@[simp] theorem controlPoison_free (id p : Nat) : (controlPoison id p s).free = s.free := by simp [controlPoison]
@[simp] theorem controlPoison_fuses (id p : Nat) : (controlPoison id p s).fuses = s.fuses := by simp [controlPoison]
@[simp] theorem controlPoison_board (id p : Nat) : (controlPoison id p s).board = s.board := by simp [controlPoison]
@[simp] theorem controlPoison_tap (id p : Nat) : (controlPoison id p s).tap = s.tap := by simp [controlPoison]
@[simp] theorem controlPoison_hostp (id p : Nat) : (controlPoison id p s).hostp = s.hostp := by simp [controlPoison]
@[simp] theorem controlPoison_ctxs (id p : Nat) : (controlPoison id p s).ctxs = s.ctxs := by simp [controlPoison]
@[simp] theorem controlPoison_ctxPoison (id p : Nat) : (controlPoison id p s).ctxPoison = s.ctxPoison := by simp [controlPoison]
@[simp] theorem controlPoison_ctxCache (id p : Nat) : (controlPoison id p s).ctxCache = s.ctxCache := by simp [controlPoison]
@[simp] theorem controlPoison_runs (id p : Nat) : (controlPoison id p s).runs = s.runs := by simp [controlPoison]
@[simp] theorem controlPoison_loads (id p : Nat) : (controlPoison id p s).loads = s.loads := by simp [controlPoison]
@[simp] theorem controlPoison_clusters (id p : Nat) : (controlPoison id p s).clusters = s.clusters := by simp [controlPoison]
@[simp] theorem controlPoison_mem (id p : Nat) : (controlPoison id p s).mem = s.mem := by simp [controlPoison]
@[simp] theorem controlPoison_gdc (id p : Nat) : (controlPoison id p s).gdc = s.gdc := by simp [controlPoison]
@[simp] theorem controlPoison_cxlp (id p : Nat) : (controlPoison id p s).cxlp = s.cxlp := by simp [controlPoison]
@[simp] theorem controlPoison_silk (id p : Nat) : (controlPoison id p s).silk = s.silk := by simp [controlPoison]
@[simp] theorem controlPoison_pace (id p : Nat) : (controlPoison id p s).pace = s.pace := by simp [controlPoison]
@[simp] theorem controlPoison_ent (id p : Nat) : (controlPoison id p s).ent = s.ent := by simp [controlPoison]
@[simp] theorem controlPoison_mgmt (id p : Nat) : (controlPoison id p s).mgmt = s.mgmt := by simp [controlPoison]
@[simp] theorem controlPoison_trace (id p : Nat) : (controlPoison id p s).trace = s.trace := by simp [controlPoison]

/-! ### tick -/

@[simp] theorem tick_pending : (tick s).pending = s.pending := by unfold tick; split <;> rfl
@[simp] theorem tick_out : (tick s).out = s.out := by unfold tick; split <;> rfl
@[simp] theorem tick_free : (tick s).free = s.free := by unfold tick; split <;> rfl
@[simp] theorem tick_fuses : (tick s).fuses = s.fuses := by unfold tick; split <;> rfl
@[simp] theorem tick_board : (tick s).board = s.board := by unfold tick; split <;> rfl
@[simp] theorem tick_tap : (tick s).tap = s.tap := by unfold tick; split <;> rfl
@[simp] theorem tick_hostp : (tick s).hostp = s.hostp := by unfold tick; split <;> rfl
@[simp] theorem tick_disp : (tick s).disp = s.disp := by unfold tick; split <;> rfl
@[simp] theorem tick_ctxs : (tick s).ctxs = s.ctxs := by unfold tick; split <;> rfl
@[simp] theorem tick_ctxPoison : (tick s).ctxPoison = s.ctxPoison := by unfold tick; split <;> rfl
@[simp] theorem tick_ctxCache : (tick s).ctxCache = s.ctxCache := by unfold tick; split <;> rfl
@[simp] theorem tick_runs : (tick s).runs = s.runs := by unfold tick; split <;> rfl
@[simp] theorem tick_loads : (tick s).loads = s.loads := by unfold tick; split <;> rfl
@[simp] theorem tick_clusters : (tick s).clusters = s.clusters := by unfold tick; split <;> rfl
@[simp] theorem tick_net : (tick s).net = s.net := by unfold tick; split <;> rfl
@[simp] theorem tick_mem : (tick s).mem = s.mem := by unfold tick; split <;> rfl
@[simp] theorem tick_memc : (tick s).memc = s.memc := by unfold tick; split <;> rfl
@[simp] theorem tick_gdc : (tick s).gdc = s.gdc := by unfold tick; split <;> rfl
@[simp] theorem tick_cxlp : (tick s).cxlp = s.cxlp := by unfold tick; split <;> rfl
@[simp] theorem tick_silk : (tick s).silk = s.silk := by unfold tick; split <;> rfl
@[simp] theorem tick_ent : (tick s).ent = s.ent := by unfold tick; split <;> rfl
@[simp] theorem tick_mgmt : (tick s).mgmt = s.mgmt := by unfold tick; split <;> rfl
@[simp] theorem tick_trace : (tick s).trace = s.trace := by unfold tick; split <;> rfl

/-! ### What a read after a write gives -/

theorem State.cluster_setCluster (c d : Nat) (k : Cluster) :
    (s.setCluster c k).cluster d = if d = c then k else s.cluster d := by
  simp only [State.cluster, State.setCluster, mapFind_mapSet]
  by_cases h : d = c <;> simp [h]

@[simp] theorem State.cluster_setCluster_self (c : Nat) (k : Cluster) : (s.setCluster c k).cluster c = k := by
  simp [State.cluster_setCluster]

theorem State.cluster_setCluster_ne {c d : Nat} (k : Cluster) (h : d ≠ c) : (s.setCluster c k).cluster d = s.cluster d := by
  simp [State.cluster_setCluster, h]

theorem State.cluster_modCluster (c d : Nat) (f : Cluster → Cluster) :
    (s.modCluster c f).cluster d = if d = c then f (s.cluster c) else s.cluster d := by
  simp [State.modCluster, State.cluster_setCluster]

@[simp] theorem State.cluster_modCluster_self (c : Nat) (f : Cluster → Cluster) :
    (s.modCluster c f).cluster c = f (s.cluster c) := by simp [State.cluster_modCluster]

theorem State.cluster_modCluster_ne {c d : Nat} (f : Cluster → Cluster) (h : d ≠ c) :
    (s.modCluster c f).cluster d = s.cluster d := by simp [State.cluster_modCluster, h]

theorem State.core_modCore (c l d k : Nat) (f : Core → Core) :
    (s.modCore c l f).core d k = if d = c ∧ k = l then f (s.core c l) else s.core d k := by
  simp only [State.core, State.modCore, State.cluster_modCluster]
  by_cases h : d = c
  · subst h
    by_cases hk : k = l <;> simp [hk, mapGet_mapModify]
  · simp [h]

@[simp] theorem State.core_modCore_self (c l : Nat) (f : Core → Core) : (s.modCore c l f).core c l = f (s.core c l) := by
  simp [State.core_modCore]

theorem State.gdcOf_setGdc (q k : Nat) (g : Gdc) : (s.setGdc q g).gdcOf k = if k = q then g else s.gdcOf k := by
  simp [State.gdcOf, State.setGdc, mapGet_mapSet]

@[simp] theorem State.gdcOf_setGdc_self (q : Nat) (g : Gdc) : (s.setGdc q g).gdcOf q = g := by simp [State.gdcOf_setGdc]

theorem State.cxlOf_setCxl (d k : Nat) (x : Cxlp) : (s.setCxl d x).cxlOf k = if k = d then x else s.cxlOf k := by
  simp [State.cxlOf, State.setCxl, mapGet_mapSet]

@[simp] theorem State.cxlOf_setCxl_self (d : Nat) (x : Cxlp) : (s.setCxl d x).cxlOf d = x := by simp [State.cxlOf_setCxl]

theorem State.portOf_setPort (p k : Nat) (x : Port) : (s.setPort p x).portOf k = if k = p then x else s.portOf k := by
  simp [State.portOf, State.setPort, mapGet_mapSet]

@[simp] theorem State.portOf_setPort_self (p : Nat) (x : Port) : (s.setPort p x).portOf p = x := by
  simp [State.portOf_setPort]

theorem State.box_setBox (m k : Nat) (b : Box) : (s.setBox m b).box k = if k = m then b else s.box k := by
  simp [State.box, State.setBox, mapGet_mapSet]

@[simp] theorem State.box_setBox_self (m : Nat) (b : Box) : (s.setBox m b).box m = b := by simp [State.box_setBox]

theorem State.queue_setQueue (q k : Nat) (x : Queue) : (s.setQueue q x).queue k = if k = q then x else s.queue k := by
  simp [State.queue, State.setQueue, mapGet_mapSet]

@[simp] theorem State.queue_setQueue_self (q : Nat) (x : Queue) : (s.setQueue q x).queue q = x := by
  simp [State.queue_setQueue]

theorem State.run_setRun (n k : Nat) (r : Run) : (s.setRun n r).run k = if k = n then some r else s.run k := by
  simp [State.run, State.setRun, mapFind_mapSet]

@[simp] theorem State.run_setRun_self (n : Nat) (r : Run) : (s.setRun n r).run n = some r := by simp [State.run_setRun]

/-- A FIFO reads back what was put into it; every other stands. -/
theorem State.fifo_setFifo (n k : Nat) (ps : List Pkt) : (s.setFifo n ps).fifo k = if k = n then ps else s.fifo k := by
  cases ps with
  | nil => by_cases h : k = n <;> simp [State.fifo, State.setFifo, mapGet_mapErase, h]
  | cons p ps => simp [State.fifo, State.setFifo, mapGet_mapSet]

@[simp] theorem State.fifo_setFifo_self (n : Nat) (ps : List Pkt) : (s.setFifo n ps).fifo n = ps := by
  simp [State.fifo_setFifo]

/-- A context reads back what was put into it; every other stands. -/
theorem State.ctx_setCtx (n k : Nat) (x : Ctx) : (s.setCtx n x).ctx k = if k = n then x else s.ctx k := by
  by_cases hx : x = {}
  · by_cases h : k = n <;> simp [State.ctx, State.setCtx, mapGet_mapErase, hx, h]
  · simp [State.ctx, State.setCtx, mapGet_mapSet, hx]

@[simp] theorem State.ctx_setCtx_self (n : Nat) (x : Ctx) : (s.setCtx n x).ctx n = x := by simp [State.ctx_setCtx]

/-! ### Launches -/

theorem find_modify (ls : List Launch) (id k : Nat) (f : Launch → Launch) (hf : ∀ l, (f l).id = l.id) :
    (ls.map (fun l => if l.id = id then f l else l)).find? (fun l => l.id == k) =
      (ls.find? (fun l => l.id == k)).map (fun l => if k = id then f l else l) := by
  induction ls with
  | nil => rfl
  | cons l ls ih =>
    have hid : (if l.id = id then f l else l).id = l.id := by split <;> simp [hf]
    by_cases hk : l.id = k
    · subst hk
      simp only [List.map_cons, List.find?_cons, hid, beq_self_eq_true, Option.map_some]
    · have hk' : (l.id == k) = false := by simp [hk]
      simp only [List.map_cons, List.find?_cons, hid, hk', ih]

/-- A launch after a change that keeps its number. -/
theorem State.launch_modLaunch (id k : Nat) (f : Launch → Launch) (hf : ∀ l, (f l).id = l.id) :
    (s.modLaunch id f).launch k = (s.launch k).map (fun l => if k = id then f l else l) := by
  simp only [State.launch, State.modLaunch]
  exact find_modify _ _ _ _ hf

@[simp] theorem Launch.stop_id (st : Nat) (l : Launch) : (l.stop st).id = l.id := by
  simp only [Launch.stop]; split <;> rfl

@[simp] theorem Launch.stop_phase (st : Nat) (l : Launch) : (l.stop st).phase = .ended := by
  simp only [Launch.stop]; split
  · assumption
  · rfl

/-- What ending a launch does: that launch has ended, every other stands. -/
theorem launch_stopLaunch (id st k : Nat) :
    (stopLaunch id st s).launch k = (s.launch k).map (fun l => if k = id then l.stop st else l) := by
  simp only [stopLaunch]
  exact State.launch_modLaunch s id k _ (Launch.stop_id st)

/-! ### Counters and event bits -/

theorem Counter.add_count_le (c : Counter) (n : Nat) : (c.add n).count ≤ Config.countMax := by
  simp only [Counter.add]
  split <;> simp_all <;> omega

theorem Counter.add_count (c : Counter) (n : Nat) : (c.add n).count = min (c.count + n) Config.countMax := by
  simp only [Counter.add]
  split <;> simp_all <;> omega

/-- A raised event bit is set and every other bit stands. -/
theorem raise_getLsbD (w : Word32) (b i : Nat) (hi : i < 32) :
    (raise w b).getLsbD i = (w.getLsbD i || decide (i = b)) := by
  simp only [raise, BitVec.getLsbD_or, BitVec.getLsbD_ofNat, Nat.testBit_two_pow, hi, decide_true, Bool.true_and]
  by_cases h : b = i
  · simp [h]
  · have h' : ¬ i = b := fun e => h e.symm
    simp [h, h']

/-- A bit written as one is cleared, every other bit stands (R43). -/
theorem w1c_getLsbD (w v : Word32) (i : Nat) : (w1c w v).getLsbD i = (w.getLsbD i && !v.getLsbD i) := by
  simp only [w1c, BitVec.getLsbD_and, BitVec.getLsbD_not]
  by_cases h : i < 32
  · simp [h]
  · simp [BitVec.getLsbD_of_ge w i (by omega)]


end Sys2Proof.Machine
end

