-- ==== Sys2Proof/Laws/Memory.lean ====
section
/-! SUPPORT. The laws of memory: a byte read after a write, the canonical form kept by every memory operation, and what each
shared write leaves alone. -/

namespace Sys2Proof.Machine

/-! ## Cell lists -/

/-- Every listed address of a cell list is at least lo. -/
theorem cellsWf_cons (d : Byte) (k : Nat) (x : Byte) (m : List Host.Cell) :
    cellsWf d ((k, x) :: m) = true ↔ x ≠ d ∧ (∀ e ∈ m, k < e.1) ∧ cellsWf d m = true := by
  induction m generalizing k x with
  | nil => simp [cellsWf]
  | cons e m ih =>
    obtain ⟨k', x'⟩ := e
    have h' : cellsWf d ((k, x) :: (k', x') :: m) = true ↔ x ≠ d ∧ k < k' ∧ cellsWf d ((k', x') :: m) = true := by
      rw [cellsWf]; simp [and_assoc]
    rw [h', ih]
    constructor
    · rintro ⟨h1, h2, h3, h4, h5⟩
      refine ⟨h1, ?_, h3, h4, h5⟩
      intro e he
      simp only [List.mem_cons] at he
      rcases he with rfl | he
      · exact h2
      · exact Nat.lt_trans h2 (h4 e he)
    · rintro ⟨h1, h2, h3, h4, h5⟩
      exact ⟨h1, h2 (k', x') (by simp), h3, h4, h5⟩

@[simp] theorem cellsWf_nil (d : Byte) : cellsWf d [] = true := rfl

theorem cellGet_of_lt (d : Byte) (m : List Host.Cell) (a : Nat) (h : ∀ e ∈ m, a < e.1) : cellGet d m a = d := by
  cases m with
  | nil => rfl
  | cons e m =>
    obtain ⟨k, x⟩ := e
    have h1 : a < k := h (k, x) (by simp)
    have h2 : ¬ k = a := by omega
    simp [cellGet, h1, h2]

theorem cellSet_lower (d : Byte) (m : List Host.Cell) (a : Nat) (b : Byte) (lo : Nat) (hlo : lo < a)
    (h : ∀ e ∈ m, lo < e.1) : ∀ e ∈ cellSet d m a b, lo < e.1 := by
  induction m with
  | nil =>
    intro e he
    simp only [cellSet] at he
    split at he <;> simp at he
    subst he; exact hlo
  | cons e0 m ih =>
    obtain ⟨k, x⟩ := e0
    have hk : lo < k := h (k, x) (by simp)
    have hm : ∀ e ∈ m, lo < e.1 := fun e he => h e (by simp [he])
    intro e he
    simp only [cellSet] at he
    split at he
    · split at he
      · exact h e he
      · rcases List.mem_cons.mp he with rfl | he
        · exact hlo
        · exact h e he
    · split at he
      · split at he
        · exact hm e he
        · rcases List.mem_cons.mp he with rfl | he
          · exact hlo
          · exact hm e he
      · rcases List.mem_cons.mp he with rfl | he
        · exact hk
        · exact ih hm e he

/-- A write of one byte keeps the canonical form. -/
theorem cellsWf_cellSet (d : Byte) (m : List Host.Cell) (a : Nat) (b : Byte) (h : cellsWf d m = true) :
    cellsWf d (cellSet d m a b) = true := by
  induction m with
  | nil =>
    simp only [cellSet]
    split
    · rfl
    · rw [cellsWf_cons]; simpa using ‹¬ b = d›
  | cons e0 m ih =>
    obtain ⟨k, x⟩ := e0
    have hc := (cellsWf_cons d k x m).mp h
    simp only [cellSet]
    split
    · split
      · exact h
      · rename_i h1 h2
        rw [cellsWf_cons]
        refine ⟨h2, ?_, h⟩
        intro e he
        rcases List.mem_cons.mp he with rfl | he
        · exact h1
        · exact Nat.lt_trans h1 (hc.2.1 e he)
    · split
      · split
        · exact hc.2.2
        · rename_i h1 h2 h3
          subst h2
          rw [cellsWf_cons]
          exact ⟨h3, hc.2.1, hc.2.2⟩
      · rename_i h1 h2
        rw [cellsWf_cons]
        exact ⟨hc.1, cellSet_lower d m a b k (by omega) hc.2.1, ih hc.2.2⟩

/-- A byte read after a write of one byte. -/
theorem cellGet_cellSet (d : Byte) (m : List Host.Cell) (a : Nat) (b : Byte) (x : Nat) (h : cellsWf d m = true) :
    cellGet d (cellSet d m a b) x = if x = a then b else cellGet d m x := by
  induction m with
  | nil =>
    simp only [cellSet]
    by_cases hb : b = d
    · by_cases hx : x = a <;> simp [hb, hx, cellGet]
    · simp only [hb, if_false, cellGet]
      by_cases hx : x = a
      · simp [hx]
      · have : ¬ a = x := fun e => hx e.symm
        simp [hx, this]
  | cons e0 m ih =>
    obtain ⟨k, y⟩ := e0
    have hc := (cellsWf_cons d k y m).mp h
    simp only [cellSet]
    split
    · rename_i h1
      by_cases hx : x = a
      · subst hx
        split
        · rename_i hb
          have h2 : ¬ k = x := by omega
          simp [cellGet, h1, h2, hb]
        · simp [cellGet]
      · split
        · simp [hx]
        · have h2 : ¬ a = x := fun e => hx e.symm
          rw [cellGet]
          simp only [h2, if_false, hx]
          by_cases h3 : x < a
          · have h4 : ¬ k = x := by omega
            have h5 : x < k := by omega
            simp [h3, cellGet, h4, h5]
          · simp [h3]
    · split
      · rename_i h1 h2
        subst h2
        by_cases hx : x = a
        · subst hx
          split
          · rename_i hb
            simp [cellGet_of_lt d m x hc.2.1, hb]
          · simp [cellGet]
        · have h3 : ¬ a = x := fun e => hx e.symm
          split
          · by_cases h4 : x < a
            · rw [cellGet_of_lt d m x (fun e he => Nat.lt_trans h4 (hc.2.1 e he))]
              simp [cellGet, hx, h3, h4]
            · simp [cellGet, hx, h3, h4]
          · simp [cellGet, hx, h3]
      · rename_i h1 h2
        simp only [cellGet, ih hc.2.2]
        by_cases hk : k = x
        · subst hk
          have : ¬ k = a := fun e => h2 e.symm
          simp [this]
        · by_cases hx : x < k
          · have : ¬ x = a := by omega
            simp [hk, hx, this]
          · simp [hk, hx]

theorem cellsWf_filter (d : Byte) (m : List Host.Cell) (p : Host.Cell → Bool) (h : cellsWf d m = true) :
    cellsWf d (m.filter p) = true := by
  induction m with
  | nil => rfl
  | cons e0 m ih =>
    obtain ⟨k, x⟩ := e0
    have hc := (cellsWf_cons d k x m).mp h
    simp only [List.filter_cons]
    split
    · rw [cellsWf_cons]
      exact ⟨hc.1, fun e he => hc.2.1 e (List.mem_filter.mp he).1, ih hc.2.2⟩
    · exact ih hc.2.2

/-- Clearing a range keeps the canonical form. -/
theorem cellsWf_cellClear (d : Byte) (m : List Host.Cell) (lo hi : Nat) (h : cellsWf d m = true) :
    cellsWf d (cellClear m lo hi) = true := cellsWf_filter d m _ h

theorem cellGet_filter (d : Byte) (m : List Host.Cell) (p : Nat → Bool) (x : Nat) (h : cellsWf d m = true) :
    cellGet d (m.filter (fun e => p e.1)) x = if p x then cellGet d m x else d := by
  induction m with
  | nil => simp [cellGet]
  | cons e0 m ih =>
    obtain ⟨k, y⟩ := e0
    have hc := (cellsWf_cons d k y m).mp h
    simp only [List.filter_cons]
    by_cases hk : k = x
    · subst hk
      by_cases hp : p k
      · simp [hp, cellGet]
      · simp only [hp, Bool.false_eq_true, if_false]
        rw [ih hc.2.2]; simp [hp]
    · by_cases hlt : x < k
      · have hg : cellGet d ((k, y) :: m) x = d := by simp [cellGet, hk, hlt]
        rw [hg]
        have : cellGet d (List.filter (fun e => p e.1) m) x = d :=
          cellGet_of_lt d _ x (fun e he => Nat.lt_trans hlt (hc.2.1 e (List.mem_filter.mp he).1))
        split <;> simp [cellGet, hk, hlt, this]
      · split <;> simp [cellGet, hk, hlt, ih hc.2.2]

/-- A byte read after a range is cleared. -/
theorem cellGet_cellClear (d : Byte) (m : List Host.Cell) (lo hi x : Nat) (h : cellsWf d m = true) :
    cellGet d (cellClear m lo hi) x = if lo ≤ x ∧ x < hi then d else cellGet d m x := by
  have := cellGet_filter d m (fun a => decide (a < lo) || decide (hi ≤ a)) x h
  rw [cellClear, this]
  by_cases h1 : lo ≤ x ∧ x < hi
  · have : ¬ (x < lo) ∧ ¬ (hi ≤ x) := by omega
    simp [h1, this]
  · have : x < lo ∨ hi ≤ x := by omega
    simp only [h1, if_false]
    rcases this with h | h <;> simp [h]

theorem cellsWf_cellWrite (d : Byte) (m : List Host.Cell) (a : Nat) (bs : List Byte) (h : cellsWf d m = true) :
    cellsWf d (cellWrite d m a bs) = true := by
  induction bs generalizing m a with
  | nil => exact h
  | cons b bs ih => exact ih _ _ (cellsWf_cellSet d m a b h)

/-! ## Words -/

theorem cellsWf_putCells_zip (m : List Host.Cell) (key : Nat) (es : List (Option Byte × Nat)) (h : cellsWf 0 m = true) :
    cellsWf 0 (es.foldl (fun m e => match e.1 with
      | some b => cellSet 0 m (key + e.2) b
      | none => m) m) = true := by
  induction es generalizing m with
  | nil => exact h
  | cons e es ih =>
    simp only [List.foldl_cons]
    apply ih
    split
    · exact cellsWf_cellSet 0 m _ _ h
    · exact h

/-- Writing bytes of a word keeps the canonical form. -/
theorem cellsWf_putCells (m : List Host.Cell) (key : Nat) (bs : List (Option Byte)) (h : cellsWf 0 m = true) :
    cellsWf 0 (putCells m key bs) = true := cellsWf_putCells_zip m key _ h

theorem cellGet_putCells_zip (m : List Host.Cell) (key : Nat) (bs : List (Option Byte)) (i x : Nat) (h : cellsWf 0 m = true) :
    cellGet 0 ((bs.zipIdx i).foldl (fun m e => match e.1 with
      | some b => cellSet 0 m (key + e.2) b
      | none => m) m) x =
      if key + i ≤ x then ((bs[x - (key + i)]?).join).getD (cellGet 0 m x) else cellGet 0 m x := by
  induction bs generalizing m i with
  | nil => simp
  | cons b bs ih =>
    simp only [List.zipIdx_cons, List.foldl_cons]
    cases b with
    | none =>
      rw [ih m (i + 1) h]
      by_cases h1 : key + i ≤ x
      · by_cases h2 : x = key + i
        · subst h2
          have : ¬ key + (i + 1) ≤ key + i := by omega
          simp [this]
        · have h3 : key + (i + 1) ≤ x := by omega
          obtain ⟨n, hn⟩ : ∃ n, x - (key + i) = n + 1 := ⟨x - (key + i) - 1, by omega⟩
          have h4 : x - (key + (i + 1)) = n := by omega
          simp [h1, h3, hn, h4]
      · have : ¬ key + (i + 1) ≤ x := by omega
        simp [h1, this]
    | some b =>
      rw [ih _ (i + 1) (cellsWf_cellSet 0 m _ b h), cellGet_cellSet 0 m _ b x h]
      by_cases h1 : key + i ≤ x
      · by_cases h2 : x = key + i
        · subst h2
          have : ¬ key + (i + 1) ≤ key + i := by omega
          simp [this]
        · have h3 : key + (i + 1) ≤ x := by omega
          obtain ⟨n, hn⟩ : ∃ n, x - (key + i) = n + 1 := ⟨x - (key + i) - 1, by omega⟩
          have h4 : x - (key + (i + 1)) = n := by omega
          simp [h1, h2, h3, hn, h4]
      · have h2 : ¬ key + (i + 1) ≤ x := by omega
        have h3 : ¬ x = key + i := by omega
        simp [h1, h2, h3]

/-- A byte read after bytes of a word were written: the byte written there, else what stood. -/
theorem cellGet_putCells (m : List Host.Cell) (key : Nat) (bs : List (Option Byte)) (x : Nat) (h : cellsWf 0 m = true) :
    cellGet 0 (putCells m key bs) x = if key ≤ x then ((bs[x - key]?).join).getD (cellGet 0 m x) else cellGet 0 m x := by
  have := cellGet_putCells_zip m key bs 0 x h
  rw [Nat.add_zero] at this
  exact this

/-! ## The canonical form of the device's memories -/

theorem Mem.wf_iff (m : Mem) : m.wf = true ↔ cellsWf 0 m.bytes = true ∧ cellsWf poisonCheck m.check = true := by
  simp [Mem.wf]

/-- Memory at reset lists nothing. -/
theorem Mem.wf_reset : State.reset.mem.wf = true := rfl

theorem Mem.wf_writeChecked (m : Mem) (key : Nat) (bs : List (Option Byte)) (p : Bool) (h : m.wf = true) :
    (writeChecked m key bs p).wf = true := by
  rw [Mem.wf_iff] at *
  exact ⟨cellsWf_putCells _ _ _ h.1, cellsWf_cellSet _ _ _ _ h.2⟩

theorem Mem.wf_writeGddr (s : State) (a : Nat) (bs : List (Option Byte)) (p : Bool) (h : s.mem.wf = true) :
    (writeGddr s a bs p).mem.wf = true := by
  rw [Mem.wf_iff] at *
  simp only [writeGddr]
  split
  · exact h
  · split
    · exact h
    · refine ⟨cellsWf_putCells _ _ _ ?_, h.2⟩
      split
      · exact h.1
      · exact cellsWf_cellClear _ _ _ _ h.1

/-- What a write of one GDDR7 word can touch: memory alone. -/
theorem writeGddr_frame (s : State) (a : Nat) (bs : List (Option Byte)) (p : Bool) :
    writeGddr s a bs p = { s with mem := (writeGddr s a bs p).mem } := by
  simp only [writeGddr]
  split
  · rfl
  · split <;> rfl

theorem Mem.wf_writeWord (s : State) (a : Nat) (bs : List (Option Byte)) (p : Bool) (h : s.mem.wf = true) :
    (writeWord s a bs p).mem.wf = true := by
  unfold writeWord
  split
  · split
    · dsimp only
      split
      · exact h
      · split
        · rw [State.modCluster_mem]; exact Mem.wf_writeGddr _ _ _ _ h
        · exact Mem.wf_writeGddr _ _ _ _ h
    · exact Mem.wf_writeChecked _ _ _ _ h
  · exact Mem.wf_writeChecked _ _ _ _ h
  · exact Mem.wf_writeGddr _ _ _ _ h
  · split
    · exact h
    · rw [Mem.wf_iff] at h ⊢; exact h
  · exact h

theorem writeGddr_mem (s : State) (a : Nat) (bs : List (Option Byte)) (p : Bool) :
    ∃ m, writeGddr s a bs p = { s with mem := m } := ⟨_, writeGddr_frame s a bs p⟩

/-- What a write of one word can touch: memory, and the poison list of the cluster of a retired slice (R597). -/
theorem writeWord_frame (s : State) (a : Nat) (bs : List (Option Byte)) (p : Bool) :
    ∃ m ks, writeWord s a bs p = { s with mem := m, clusters := ks } := by
  unfold writeWord
  split
  · rename_i c sl off _
    split
    · rename_i k _
      obtain ⟨m, hm⟩ := writeGddr_mem s (Config.redirectArea + k * Config.sliceBytes + off) bs p
      simp only [hm]
      split
      · exact ⟨s.mem, _, rfl⟩
      · split
        · exact ⟨m, _, rfl⟩
        · exact ⟨m, s.clusters, rfl⟩
    · exact ⟨_, s.clusters, rfl⟩
  · exact ⟨_, s.clusters, rfl⟩
  · obtain ⟨m, hm⟩ := writeGddr_mem s a bs p
    exact ⟨m, s.clusters, hm⟩
  · split
    · exact ⟨s.mem, s.clusters, rfl⟩
    · exact ⟨_, s.clusters, rfl⟩
  · exact ⟨s.mem, s.clusters, rfl⟩

/-- A fold of steps that each keep a property keeps it. -/
theorem foldl_keeps {α β : Type} (P : α → Prop) (f : α → β → α) (hf : ∀ a b, P a → P (f a b)) (l : List β) (a : α)
    (h : P a) : P (l.foldl f a) := by
  induction l generalizing a with
  | nil => exact h
  | cons b l ih => exact ih _ (hf a b h)

theorem Mem.wf_physWrite (s : State) (a : Nat) (data : List Tagged) (h : s.mem.wf = true) :
    (physWrite s a data).mem.wf = true := by
  unfold physWrite
  split
  · exact h
  · have h0 : (discardPreloads s a (a + data.length - 1)).mem.wf = true := h
    generalize discardPreloads s a (a + data.length - 1) = u at h0 ⊢
    dsimp only
    split
    · have h1 : (((wordsOf a data).foldl (fun s w => if (poisonedLines (wordsOf a data)).contains (w.1 / 64) then s
          else writeWord s w.1 w.2.1 false) u).mem.wf = true) := by
        apply foldl_keeps (fun s : State => s.mem.wf = true) _ _ _ _ h0
        intro s w hs
        split
        · exact hs
        · exact Mem.wf_writeWord _ _ _ _ hs
      split
      · exact h1
      · rw [cxlEvent_mem]; exact h1
    · apply foldl_keeps (fun s : State => s.mem.wf = true) _ (fun s w hs => Mem.wf_writeWord s _ _ _ hs)
      exact foldl_keeps (fun s : State => s.mem.wf = true) _ (fun s w hs => Mem.wf_writeWord s _ _ _ hs) _ _ h0

/-- The fields a write to local memory can touch: memory, the poison lists, the CXL events, preloads and kept roots, and orders
that answer a word which fails again (R591). -/
def LocalFrame (s t : State) : Prop :=
  ∃ m ks xs ps rs n, t = { s with
    mem := m, clusters := ks, cxlp := xs, net := n, disp := { s.disp with preloads := ps, kept := rs } }

theorem LocalFrame.refl (s : State) : LocalFrame s s := ⟨_, _, _, _, _, _, rfl⟩

theorem LocalFrame.trans {s t u : State} (h : LocalFrame s t) (k : LocalFrame t u) : LocalFrame s u := by
  obtain ⟨_, _, _, _, _, _, rfl⟩ := h
  obtain ⟨_, _, _, _, _, _, rfl⟩ := k
  exact ⟨_, _, _, _, _, _, rfl⟩

theorem LocalFrame.cluster (s : State) (c : Nat) (f : Cluster → Cluster) : LocalFrame s (s.modCluster c f) :=
  ⟨_, _, _, _, _, _, rfl⟩

theorem LocalFrame.preload (s : State) (lo hi : Nat) : LocalFrame s (discardPreloads s lo hi) := ⟨_, _, _, _, _, _, rfl⟩

theorem LocalFrame.cxl (s : State) (d b : Nat) : LocalFrame s (cxlEvent d b s) := ⟨_, _, _, _, _, _, rfl⟩

theorem LocalFrame.writeWord (s : State) (a : Nat) (bs : List (Option Byte)) (p : Bool) :
    LocalFrame s (writeWord s a bs p) := by
  obtain ⟨m, ks, h⟩ := writeWord_frame s a bs p
  rw [h]
  exact ⟨_, _, _, _, _, _, rfl⟩

theorem LocalFrame.foldl {β : Type} (f : State → β → State) (hf : ∀ s b, LocalFrame s (f s b)) (l : List β) (s : State) :
    LocalFrame s (l.foldl f s) := by
  induction l generalizing s with
  | nil => exact .refl s
  | cons b l ih => exact (hf s b).trans (ih _)

/-- What a write of tagged bytes to local memory can touch. -/
theorem physWrite_frame (s : State) (a : Nat) (data : List Tagged) : LocalFrame s (physWrite s a data) := by
  unfold physWrite
  split
  · exact .refl s
  · have h0 := LocalFrame.preload s a (a + data.length - 1)
    generalize discardPreloads s a (a + data.length - 1) = u at h0 ⊢
    generalize wordsOf a data = ws
    dsimp only
    split
    · have h1 := LocalFrame.foldl (fun s w => if (poisonedLines ws).contains (w.1 / 64) then s
          else Machine.writeWord s w.1 w.2.1 false) (by
            intro s w; split
            · exact .refl s
            · exact .writeWord _ _ _ _) ws u
      split
      · exact h0.trans h1
      · exact (h0.trans h1).trans (.cxl _ _ _)
    · exact (h0.trans (LocalFrame.foldl _ (fun s w => .writeWord s _ _ _) _ u)).trans
        (LocalFrame.foldl _ (fun s w => .writeWord s _ _ _) _ _)

/-- What noting a bad word can touch: the bad words themselves, and the orders under way (R591). -/
theorem noteBad_frame (id : Nat) (s : State) (p : Nat) : LocalFrame s (noteBad id s p) ∧ (noteBad id s p).mem.wf = s.mem.wf := by
  unfold noteBad
  split
  · exact ⟨.refl s, rfl⟩
  · split
    · exact ⟨⟨_, _, _, _, _, _, rfl⟩, rfl⟩
    · split
      · have key : ∀ (u : State) (q : Nat), LocalFrame u (twiceOrder u q) ∧ (twiceOrder u q).mem = u.mem := by
          intro u q
          unfold twiceOrder
          split <;> exact ⟨⟨_, _, _, _, _, _, rfl⟩, rfl⟩
        dsimp only
        generalize hu : State.mk .. = u
        have h1 : LocalFrame s u := by rw [← hu]; exact ⟨_, _, _, _, _, _, rfl⟩
        have h2 : u.mem.wf = s.mem.wf := by rw [← hu]; rfl
        exact ⟨h1.trans (key u p).1, by rw [(key u p).2, h2]⟩
      · exact ⟨.refl s, rfl⟩

theorem noteBads_frame (id : Nat) (ps : List Nat) (s : State) :
    LocalFrame s (ps.foldl (noteBad id) s) ∧ (ps.foldl (noteBad id) s).mem.wf = s.mem.wf := by
  induction ps generalizing s with
  | nil => exact ⟨.refl s, rfl⟩
  | cons p ps ih =>
    have h1 := noteBad_frame id s p
    have h2 := ih (noteBad id s p)
    exact ⟨h1.1.trans h2.1, h2.2.trans h1.2⟩

theorem noteDelivered_both (a n : Nat) (s : State) :
    LocalFrame s (noteDelivered a n s) ∧ (noteDelivered a n s).mem.wf = s.mem.wf := by
  unfold noteDelivered
  dsimp only
  generalize s.disp.launches.filter _ = ls
  generalize List.filter _ _ = ps
  induction ls generalizing s with
  | nil => exact ⟨.refl s, rfl⟩
  | cons l ls ih =>
    have h1 := noteBads_frame l.id ps s
    have h2 := ih (ps.foldl (noteBad l.id) s)
    exact ⟨h1.1.trans h2.1, h2.2.trans h1.2⟩

theorem noteDelivered_frame (a n : Nat) (s : State) : LocalFrame s (noteDelivered a n s) := (noteDelivered_both a n s).1

theorem Mem.wf_noteDelivered (a n : Nat) (s : State) (h : s.mem.wf = true) : (noteDelivered a n s).mem.wf = true :=
  (noteDelivered_both a n s).2.trans h

theorem Mem.wf_logLine (s : State) (c l line : Nat) (h : s.mem.wf = true) : (logLine s c l line).mem.wf = true := by
  unfold logLine
  split
  · exact h
  · dsimp only
    rw [State.modCluster_mem]
    exact Mem.wf_noteDelivered _ _ _ (Mem.wf_physWrite s _ _ h)

theorem logLine_frame (s : State) (c l line : Nat) : LocalFrame s (logLine s c l line) := by
  unfold logLine
  split
  · exact .refl s
  · exact ((physWrite_frame s _ _).trans (noteDelivered_frame _ _ _)).trans (.cluster _ _ _)

theorem Mem.wf_coreWrite (s : State) (c l off : Nat) (data : List Tagged) (h : s.mem.wf = true) :
    (coreWrite s c l off data).mem.wf = true := by
  simp only [coreWrite]
  split
  · exact h
  · apply Mem.wf_physWrite
    simp only [State.modCluster_mem]
    exact foldl_keeps (fun s : State => s.mem.wf = true) _ (fun s x hs => Mem.wf_logLine s c l x hs) _ _ h

/-- What a write of an operation into core memory can touch (R585). -/
theorem coreWrite_frame (s : State) (c l off : Nat) (data : List Tagged) : LocalFrame s (coreWrite s c l off data) := by
  unfold coreWrite
  split
  · exact .refl s
  · refine LocalFrame.trans ?_ (physWrite_frame _ _ _)
    exact LocalFrame.trans (LocalFrame.foldl _ (fun s x => logLine_frame s c l x) _ s) (.cluster _ _ _)

/-- The host's memory changes, the device's does not. -/
@[simp] theorem hostWrite_bytes (s : State) (i a : Nat) (data : List Tagged) : (hostWrite s i a data).mem.bytes = s.mem.bytes := by
  simp only [hostWrite]; split <;> simp

@[simp] theorem hostWrite_check (s : State) (i a : Nat) (data : List Tagged) : (hostWrite s i a data).mem.check = s.mem.check := by
  simp only [hostWrite]; split <;> simp

theorem Mem.wf_hostWrite (s : State) (i a : Nat) (data : List Tagged) (h : s.mem.wf = true) :
    (hostWrite s i a data).mem.wf = true := by
  rw [Mem.wf_iff] at *; simpa using h

/-! ## What a port can touch when it sends: its own state and the outputs -/

def PortFrame (s t : State) : Prop := ∃ x o, t = { s with silk := x, out := o }

theorem PortFrame.refl (s : State) : PortFrame s s := ⟨_, _, rfl⟩

theorem PortFrame.trans {s t u : State} (h : PortFrame s t) (k : PortFrame t u) : PortFrame s u := by
  obtain ⟨_, _, rfl⟩ := h
  obtain ⟨_, _, rfl⟩ := k
  exact ⟨_, _, rfl⟩

theorem PortFrame.port (s : State) (p : Nat) (x : Port) : PortFrame s (s.setPort p x) := ⟨_, _, rfl⟩

theorem PortFrame.foldl {β : Type} (f : State → β → State) (hf : ∀ s b, PortFrame s (f s b)) (l : List β) (s : State) :
    PortFrame s (l.foldl f s) := by
  induction l generalizing s with
  | nil => exact .refl s
  | cons b l ih => exact (hf s b).trans (ih _)

theorem sendIdle_frame (p : Nat) (a b : Bool) (s : State) : PortFrame s (sendIdle p a b s) := ⟨_, _, rfl⟩

theorem sendFrame_frame (p : Nat) (fs : List Byte) (s : State) : PortFrame s (sendFrame p fs s) := ⟨_, _, rfl⟩

theorem sendPacket_frame (p : Nat) (k : SilkPkt) (s : State) : PortFrame s (sendPacket p k s) :=
  PortFrame.trans (t := { s with out := s.out ++ [.silk p k] }) ⟨_, _, rfl⟩
    (PortFrame.foldl _ (fun s fs => sendFrame_frame p fs s) _ _)

theorem drainPort_frame (p n : Nat) (s : State) : PortFrame s (drainPort p n s) := by
  induction n generalizing s with
  | zero => exact .refl s
  | succ n ih =>
    unfold drainPort
    dsimp only
    split
    · exact .refl s
    · split
      · exact .refl s
      · split
        · exact .refl s
        · exact PortFrame.trans (PortFrame.trans (.port s p _) (sendPacket_frame p _ _)) (ih _)

/-- What handing a packet to a port can touch. -/
theorem emitSilk_frame (p : Nat) (k : SilkPkt) (s : State) : PortFrame s (emitSilk p k s) :=
  PortFrame.trans (.port s p _) (drainPort_frame p _ _)

theorem PortFrame.mem {s t : State} (h : PortFrame s t) : t.mem = s.mem := by
  obtain ⟨_, _, rfl⟩ := h
  rfl

/-- The fields any write of bytes can touch: those of a local write, the ports and outputs of one that goes to a peer, and the
host block's events of one that goes to host memory. -/
def WriteFrame (s t : State) : Prop :=
  ∃ m ks xs ps rs n x o h, t = { s with
    mem := m, clusters := ks, cxlp := xs, net := n, disp := { s.disp with preloads := ps, kept := rs }, silk := x, out := o
    hostp := h }

theorem WriteFrame.refl (s : State) : WriteFrame s s := ⟨_, _, _, _, _, _, _, _, _, rfl⟩

theorem WriteFrame.trans {s t u : State} (h : WriteFrame s t) (k : WriteFrame t u) : WriteFrame s u := by
  obtain ⟨_, _, _, _, _, _, _, _, _, rfl⟩ := h
  obtain ⟨_, _, _, _, _, _, _, _, _, rfl⟩ := k
  exact ⟨_, _, _, _, _, _, _, _, _, rfl⟩

theorem LocalFrame.write {s t : State} (h : LocalFrame s t) : WriteFrame s t := by
  obtain ⟨_, _, _, _, _, _, rfl⟩ := h
  exact ⟨_, _, _, _, _, _, _, _, _, rfl⟩

theorem PortFrame.write {s t : State} (h : PortFrame s t) : WriteFrame s t := by
  obtain ⟨_, _, rfl⟩ := h
  exact ⟨_, _, _, _, _, _, _, _, _, rfl⟩

/-- What a write to a peer can touch; the device's own bytes stand but for one that comes back through the ingress (R718). -/
theorem peerWrite_frame (s t : State) (g : Nat) (data : List Tagged) (ht : peerWrite s g data = .ok t) :
    WriteFrame s t ∧ (s.mem.wf = true → t.mem.wf = true) := by
  unfold peerWrite at ht
  dsimp only at ht
  split at ht
  · split at ht
    · cases ht; exact ⟨(physWrite_frame _ _ _).write, Mem.wf_physWrite _ _ _⟩
    · cases ht
  · split at ht
    · rename_i p me _ _
      split at ht
      · cases ht
      · have hp := PortFrame.foldl (fun s k => emitSilk p k s) (fun s k => emitSilk_frame p k s)
          (writePackets me (g / 2 ^ 52) s.silk.nextTag g data) s
        obtain ⟨x, o, hp⟩ := hp
        rw [hp] at ht
        cases ht
        refine ⟨⟨_, _, _, _, _, _, _, _, _, rfl⟩, fun h => ?_⟩
        rw [Mem.wf_iff] at h ⊢
        exact h
    · cases ht

/-- What a write to host memory can touch; the device's own bytes stand. -/
theorem hostWrite_frame (s : State) (i a : Nat) (data : List Tagged) : WriteFrame s (hostWrite s i a data) := by
  unfold hostWrite
  dsimp only
  split
  · exact ⟨_, _, _, _, _, _, _, _, _, rfl⟩
  · exact ⟨_, _, _, _, _, _, _, _, _, rfl⟩

theorem leafWrite_frame (s t : State) (l : Leaf) (i va : Nat) (data : List Tagged) (ht : leafWrite s l i va data = .ok t) :
    WriteFrame s t ∧ (s.mem.wf = true → t.mem.wf = true) := by
  unfold leafWrite at ht
  split at ht
  · cases ht; exact ⟨(physWrite_frame _ _ _).write, Mem.wf_physWrite _ _ _⟩
  · split at ht
    · exact peerWrite_frame s t _ data ht
    · cases ht; exact ⟨hostWrite_frame _ _ _ _, Mem.wf_hostWrite _ _ _ _⟩

theorem piecesWrite_frame (ps : List (Nat × Nat)) (s t : State) (asid : Nat) (data : List Tagged)
    (ht : piecesWrite s asid data ps = .ok t) : WriteFrame s t ∧ (s.mem.wf = true → t.mem.wf = true) := by
  induction ps generalizing s data with
  | nil => cases ht; exact ⟨.refl _, id⟩
  | cons p ps ih =>
    unfold piecesWrite at ht
    split at ht
    · cases ht
    · split at ht
      · cases ht
      · rename_i u hu
        have h1 := leafWrite_frame _ _ _ _ _ _ hu
        have h2 := ih u _ ht
        exact ⟨h1.1.trans h2.1, fun h => h2.2 (h1.2 h)⟩

/-- What a write through a virtual address can touch; it keeps the canonical form. -/
theorem vaWrite_frame (s t : State) (asid va : Nat) (data : List Tagged) (ht : vaWrite s asid va data = .ok t) :
    WriteFrame s t ∧ (s.mem.wf = true → t.mem.wf = true) := by
  unfold vaWrite at ht
  split at ht
  · cases ht
  · exact piecesWrite_frame _ _ _ _ _ ht

end Sys2Proof.Machine
end

