-- ==== Sys2Proof/Laws/MemoryOps.lean ====
section
/-! SUPPORT. Every operation that changes memory as a whole keeps its canonical form: resets, sanitise passes, deliveries. -/

namespace Sys2Proof.Machine

/-! ## Resets (R581) -/

theorem Mem.wf_poisonRange (m : Mem) (lo hi : Nat) (h : m.wf = true) : (m.poisonRange lo hi).wf = true := by
  rw [Mem.wf_iff] at h ⊢
  exact ⟨cellsWf_cellClear _ _ _ _ h.1, cellsWf_cellClear _ _ _ _ h.2⟩

theorem Mem.wf_poisonDies (m : Mem) (h : m.wf = true) : m.poisonDies.wf = true :=
  Mem.wf_poisonRange _ _ _ (Mem.wf_poisonRange _ _ _ h)

theorem Mem.wf_poisonCluster (m : Mem) (c : Nat) (h : m.wf = true) : (m.poisonCluster c).wf = true :=
  Mem.wf_poisonRange _ _ _ h

/-! ## Passes of sanitise (R968) -/

theorem cellsWf_append (d : Byte) (l m : List Host.Cell) (hl : cellsWf d l = true) (hm : cellsWf d m = true)
    (hlm : ∀ e ∈ l, ∀ f ∈ m, e.1 < f.1) : cellsWf d (l ++ m) = true := by
  induction l with
  | nil => exact hm
  | cons e l ih =>
    obtain ⟨k, x⟩ := e
    have hc := (cellsWf_cons d k x l).mp hl
    rw [List.cons_append, cellsWf_cons]
    refine ⟨hc.1, ?_, ih hc.2.2 (fun e he f hf => hlm e (by simp [he]) f hf)⟩
    intro e he
    rcases List.mem_append.mp he with he | he
    · exact hc.2.1 e he
    · exact hlm (k, x) (by simp) e he

theorem cellsWf_run (d b : Byte) (lo n : Nat) (hb : b ≠ d) :
    cellsWf d ((List.range n).map (fun i => (lo + i, b))) = true := by
  induction n generalizing lo with
  | zero => rfl
  | succ n ih =>
    rw [List.range_succ_eq_map, List.map_cons, List.map_map, cellsWf_cons]
    have hfun : ((fun i => (lo + i, b)) ∘ Nat.succ) = fun i => (lo + 1 + i, b) := by
      funext i; simp [Function.comp]; omega
    rw [hfun]
    refine ⟨hb, ?_, ih (lo + 1)⟩
    intro e he
    obtain ⟨i, _, rfl⟩ := List.mem_map.mp he
    show lo + 0 < lo + 1 + i
    omega

/-- Filling a range keeps the canonical form. -/
theorem cellsWf_cellFill (d : Byte) (m : List Host.Cell) (lo hi : Nat) (b : Byte) (hlh : lo ≤ hi) (h : cellsWf d m = true) :
    cellsWf d (cellFill d m lo hi b) = true := by
  unfold cellFill
  have hlo : ∀ e ∈ m.filter (fun e => decide (e.1 < lo)), e.1 < lo := fun e he => by
    simpa using (List.mem_filter.mp he).2
  have hhi : ∀ e ∈ m.filter (fun e => decide (hi ≤ e.1)), hi ≤ e.1 := fun e he => by
    simpa using (List.mem_filter.mp he).2
  have hmid : ∀ e ∈ (if b = d then [] else (List.range (hi - lo)).map (fun i => (lo + i, b))), lo ≤ e.1 ∧ e.1 < hi := by
    intro e he
    split at he
    · cases he
    · obtain ⟨i, hi', rfl⟩ := List.mem_map.mp he
      have := List.mem_range.mp hi'
      exact ⟨Nat.le_add_right _ _, show lo + i < hi by omega⟩
  apply cellsWf_append
  · apply cellsWf_append
    · exact cellsWf_filter _ _ _ h
    · split
      · rfl
      · exact cellsWf_run _ _ _ _ ‹_›
    · intro e he f hf
      exact Nat.lt_of_lt_of_le (hlo e he) (hmid f hf).1
  · exact cellsWf_filter _ _ _ h
  · intro e he f hf
    rcases List.mem_append.mp he with he | he
    · have h1 := hlo e he
      have h2 := hhi f hf
      omega
    · exact Nat.lt_of_lt_of_le (hmid e he).2 (hhi f hf)

theorem Mem.wf_fillDies (m : Mem) (lo hi : Nat) (b : Byte) (hlh : lo ≤ hi) (h : m.wf = true) : (m.fillDies lo hi b).wf = true := by
  rw [Mem.wf_iff] at h ⊢
  exact ⟨cellsWf_cellFill _ _ _ _ _ hlh h.1, cellsWf_cellFill _ _ _ _ _ (Nat.div_le_div_right hlh) h.2⟩

/-- The second pass leaves canonical memory. -/
theorem Mem.wf_wipe (s : State) (h : s.mem.wf = true) : (wipe s).mem.wf = true := by
  have h1 := Mem.wf_poisonDies _ h
  rw [Mem.wf_iff] at h1 ⊢
  exact ⟨cellsWf_cellClear _ _ _ _ h1.1, h1.2⟩

theorem channels_lt : ∀ e ∈ channels, e.1 < 16 ∧ e.2 < 4 := by decide

/-- A channel's bytes begin before they end. -/
theorem channel_bounds (e : Nat × Nat) (he : e ∈ channels) : (channelRange e.1 e.2).lo ≤ coveredEnd e.1 e.2 := by
  revert e
  decide

theorem Mem.wf_fillChannel (b : Byte) (s : State) (e : Nat × Nat) (he : e ∈ channels) (h : s.mem.wf = true) :
    (fillChannel b s e).mem.wf = true := by
  unfold fillChannel
  split
  · exact h
  · rw [Mem.wf_iff] at h ⊢
    exact ⟨cellsWf_cellFill _ _ _ _ _ (channel_bounds e he) h.1, h.2⟩

/-- The third and fourth passes leave canonical memory. -/
theorem Mem.wf_writePattern (b : Byte) (s : State) (h : s.mem.wf = true) : (writePattern b s).mem.wf = true := by
  unfold writePattern
  dsimp only
  have h0 := Mem.wf_fillDies (s.mem.fillDies 0 Config.stackedSize b) Config.coreBase (Config.coreBase + Config.coreRegion) b
    (Nat.le_add_right _ _) (Mem.wf_fillDies _ _ _ b (Nat.zero_le _) h)
  generalize (s.mem.fillDies 0 Config.stackedSize b).fillDies Config.coreBase (Config.coreBase + Config.coreRegion) b = m at h0 ⊢
  have key : ∀ l : List (Nat × Nat), (∀ e ∈ l, e ∈ channels) → ∀ u : State, u.mem.wf = true →
      (l.foldl (fillChannel b) u).mem.wf = true := by
    intro l
    induction l with
    | nil => intro _ u hu; exact hu
    | cons e l ih =>
      intro hl u hu
      exact ih (fun e he => hl e (by simp [he])) _ (Mem.wf_fillChannel b u e (hl e (by simp)) hu)
  exact key channels (fun _ he => he) _ h0

/-! ## Packets that reach a core's memory (R668) -/

theorem Mem.wf_deliverBytes (s : State) (c p : Nat) (ps : List (Nat × Nat)) (data : List Tagged) (h : s.mem.wf = true) :
    (deliverBytes s c p ps data).mem.wf = true := by
  unfold deliverBytes
  refine foldl_keeps (fun x : State × List Tagged => x.1.mem.wf = true) _ ?_ ps (s, data) h
  intro acc q hq
  dsimp only
  split
  · exact Mem.wf_coreWrite _ _ _ _ _ hq
  · exact foldl_keeps (fun m : Mem => m.wf = true) _ (fun m w hm => Mem.wf_writeChecked m _ _ _ hm) _ _ hq

end Sys2Proof.Machine
end

