-- ==== Sys2Proof/Laws/Keeps.lean ====
section
/-! SUPPORT. What every shared operation of the device keeps: the queue, the fuses, the straps and the power, the operating
point, and the canonical form of memory. -/

namespace Sys2Proof.Machine

/-- The queue, the fuses, power, straps and the operating point stand. -/
abbrev Stands (s t : State) : Prop :=
  t.pending = s.pending ∧ t.fuses = s.fuses ∧ t.board.straps = s.board.straps ∧ t.board.power = s.board.power ∧
  t.mgmt.point = s.mgmt.point ∧ t.mgmt.target = s.mgmt.target ∧ t.mgmt.nextTarget = s.mgmt.nextTarget ∧
  t.mgmt.record.point = s.mgmt.record.point

/-- And memory keeps its canonical form. -/
abbrev Keeps (s t : State) : Prop := Stands s t ∧ (s.mem.wf = true → t.mem.wf = true)

theorem Stands.refl (s : State) : Stands s s := ⟨rfl, rfl, rfl, rfl, rfl, rfl, rfl, rfl⟩

theorem Stands.trans {s t u : State} (h : Stands s t) (k : Stands t u) : Stands s u := by
  obtain ⟨h1, h2, h3, h4, h5, h6, h7, h8⟩ := h
  obtain ⟨k1, k2, k3, k4, k5, k6, k7, k8⟩ := k
  exact ⟨k1.trans h1, k2.trans h2, k3.trans h3, k4.trans h4, k5.trans h5, k6.trans h6, k7.trans h7, k8.trans h8⟩

theorem Keeps.refl (s : State) : Keeps s s := ⟨.refl s, id⟩

theorem Keeps.trans {s t u : State} (h : Keeps s t) (k : Keeps t u) : Keeps s u :=
  ⟨Stands.trans h.1 k.1, fun x => k.2 (h.2 x)⟩

@[simp] theorem Stands.foldl {β : Type} (f : State → β → State) (l : List β) (s : State) (hf : ∀ s b, Stands s (f s b)) :
    Stands s (l.foldl f s) := by
  induction l generalizing s with
  | nil => exact .refl s
  | cons b l ih => exact (hf s b).trans (ih (f s b))

@[simp] theorem foldl_wf {β : Type} (f : State → β → State) (l : List β) (s : State)
    (hf : ∀ s b, s.mem.wf = true → (f s b).mem.wf = true) (h : s.mem.wf = true) : (l.foldl f s).mem.wf = true :=
  foldl_keeps (fun s : State => s.mem.wf = true) f hf l s h

theorem Keeps.foldl {β : Type} (f : State → β → State) (l : List β) (s : State) (hf : ∀ s b, Keeps s (f s b)) :
    Keeps s (l.foldl f s) :=
  ⟨Stands.foldl f l s (fun s b => (hf s b).1), foldl_wf f l s (fun s b => (hf s b).2)⟩

theorem LocalFrame.stands {s t : State} (h : LocalFrame s t) : Stands s t := by
  obtain ⟨_, _, _, _, _, _, rfl⟩ := h
  exact .refl s

theorem PortFrame.keeps {s t : State} (h : PortFrame s t) : Keeps s t := by
  obtain ⟨_, _, rfl⟩ := h
  exact .refl s

theorem WriteFrame.stands {s t : State} (h : WriteFrame s t) : Stands s t := by
  obtain ⟨_, _, _, _, _, _, _, _, _, rfl⟩ := h
  exact .refl s

/-! ## Monadic steps -/

/-- A bind that ends well: its first part ended well. -/
theorem bind_ok {ε α β : Type} {x : Except ε α} {f : α → Except ε β} {b : β} (h : (x >>= f) = .ok b) :
    ∃ a, x = .ok a ∧ f a = .ok b := by
  cases x with
  | error e => cases h
  | ok a => exact ⟨a, rfl, h⟩

/-! ## Fields that the statement does not name -/

theorem Keeps.memc (s : State) (m : Memc) : Keeps s { s with memc := m } := .refl s
theorem Keeps.silk (s : State) (m : Silk) : Keeps s { s with silk := m } := .refl s
theorem Keeps.loads (s : State) (m : Map LoadJob) : Keeps s { s with loads := m } := .refl s
theorem Keeps.runs (s : State) (m : Map Run) : Keeps s { s with runs := m } := .refl s
theorem Keeps.bad (s : State) (d : Disp) (m : List BadWord) :
    Keeps s { s with disp := d, mem := { s.mem with badWords := m } } := ⟨.refl s, fun h => h⟩

theorem copySlice_fold (P : State → Prop) (hP : ∀ s a bs, P s → P (writeGddr s a bs false)) (c sl k : Nat) (s : State) (h : P s) :
    P (copySlice s c sl k) := by
  rw [copySlice]
  generalize sliceOffsets = l
  exact foldl_keeps P _ (fun s y hs => hP _ _ _ hs) l s h

theorem Keeps.ite {s t u : State} (c : Prop) [Decidable c] (h : Keeps s t) (k : Keeps s u) : Keeps s (if c then t else u) := by
  split
  · exact h
  · exact k

/-! ## The operations, in the order of the files -/

@[simp] theorem State.setFifo_keeps (s : State) (n : Nat) (ps : List Pkt) : Keeps s (State.setFifo s n ps) := by
  unfold State.setFifo
  try dsimp only
  (repeat' split) <;> exact ⟨by simp [Stands], fun h => by simp +contextual (maxDischargeDepth := 60) [h]⟩

@[simp] theorem logEventIf_keeps (b : Bool) (kind source wher detail : Nat) (s : State) :
    Keeps s (logEventIf b kind source wher detail s) := by
  unfold logEventIf
  try dsimp only
  (repeat' split) <;> exact ⟨by simp [Stands], fun h => by simp +contextual (maxDischargeDepth := 60) [h]⟩

@[simp] theorem logEvent_keeps (kind source wher detail : Nat) (s : State) : Keeps s (logEvent kind source wher detail s) := by
  unfold logEvent
  try dsimp only
  (repeat' split) <;> exact ⟨by simp [Stands], fun h => by simp +contextual (maxDischargeDepth := 60) [h]⟩

@[simp] theorem sendResult_keeps (source : Nat) (r : Result) (s : State) : Keeps s (sendResult source r s) := by
  unfold sendResult
  try dsimp only
  (repeat' split) <;> exact ⟨by simp [Stands], fun h => by simp +contextual (maxDischargeDepth := 60) [h]⟩

@[simp] theorem orderTo_keeps (unit : UnitKind) (cluster index : Nat) (o : Order) (s : State) :
    Keeps s (orderTo unit cluster index o s) := by
  unfold orderTo
  try dsimp only
  (repeat' split) <;> exact ⟨by simp [Stands], fun h => by simp +contextual (maxDischargeDepth := 60) [h]⟩

@[simp] theorem sendOrder_keeps (c : Nat) (o : Order) (s : State) : Keeps s (sendOrder c o s) := by
  unfold sendOrder
  try dsimp only
  (repeat' split) <;> exact ⟨by simp [Stands], fun h => by simp +contextual (maxDischargeDepth := 60) [h]⟩

@[simp] theorem orderDispatcher_keeps (o : Order) (s : State) : Keeps s (orderDispatcher o s) := by
  unfold orderDispatcher
  try dsimp only
  (repeat' split) <;> exact ⟨by simp [Stands], fun h => by simp +contextual (maxDischargeDepth := 60) [h]⟩

@[simp] theorem orderHub_keeps (u : Nat) (o : Order) (s : State) : Keeps s (orderHub u o s) := by
  unfold orderHub
  try dsimp only
  (repeat' split) <;> exact ⟨by simp [Stands], fun h => by simp +contextual (maxDischargeDepth := 60) [h]⟩

@[simp] theorem overflowEvent_keeps (hit : Bool) (source reg : Nat) (s : State) : Keeps s (overflowEvent hit source reg s) := by
  unfold overflowEvent
  try dsimp only
  (repeat' split) <;> exact ⟨by simp [Stands], fun h => by simp +contextual (maxDischargeDepth := 60) [h]⟩

@[simp] theorem memcEvent_keeps (b : Nat) (s : State) : Keeps s (memcEvent b s) := by
  unfold memcEvent
  try dsimp only
  (repeat' split) <;> exact ⟨by simp [Stands], fun h => by simp +contextual (maxDischargeDepth := 60) [h]⟩

@[simp] theorem memcCount_keeps (get : Memc → Counter) (put : Memc → Counter → Memc) (off : Nat) (s : State) :
    Keeps s (memcCount get put off s) := by
  unfold memcCount
  try dsimp only
  (repeat' split) <;> exact ⟨by simp [Stands], fun h => by simp +contextual (maxDischargeDepth := 60) [h]⟩

@[simp] theorem memcPoison_keeps (s : State) : Keeps s (memcPoison s) := by
  unfold memcPoison
  try dsimp only
  (repeat' split) <;> exact ⟨by simp [Stands], fun h => by simp +contextual (maxDischargeDepth := 60) [h]⟩

@[simp] theorem memcRecompute_keeps (s : State) : Keeps s (memcRecompute s) := by
  unfold memcRecompute
  try dsimp only
  (repeat' split) <;> exact ⟨by simp [Stands], fun h => by simp +contextual (maxDischargeDepth := 60) [h]⟩

@[simp] theorem memcMigration_keeps (s : State) : Keeps s (memcMigration s) := by
  unfold memcMigration
  try dsimp only
  (repeat' split) <;> exact ⟨by simp [Stands], fun h => by simp +contextual (maxDischargeDepth := 60) [h]⟩

@[simp] theorem State.setGdc_keeps (s : State) (q : Nat) (g : Gdc) : Keeps s (State.setGdc s q g) := by
  unfold State.setGdc
  try dsimp only
  (repeat' split) <;> exact ⟨by simp [Stands], fun h => by simp +contextual (maxDischargeDepth := 60) [h]⟩

@[simp] theorem gdcEvent_keeps (q b : Nat) (s : State) : Keeps s (gdcEvent q b s) := by
  unfold gdcEvent
  try dsimp only
  (repeat' split) <;> exact ⟨by simp [Stands], fun h => by simp +contextual (maxDischargeDepth := 60) [h]⟩

@[simp] theorem gdcCount_keeps (q : Nat) (get : Gdc → Counter) (put : Gdc → Counter → Gdc) (off n : Nat) (s : State) :
    Keeps s (gdcCount q get put off n s) := by
  unfold gdcCount
  try dsimp only
  (repeat' split) <;> exact ⟨by simp [Stands], fun h => by simp +contextual (maxDischargeDepth := 60) [h]⟩

@[simp] theorem State.setCxl_keeps (s : State) (d : Nat) (x : Cxlp) : Keeps s (State.setCxl s d x) := by
  unfold State.setCxl
  try dsimp only
  (repeat' split) <;> exact ⟨by simp [Stands], fun h => by simp +contextual (maxDischargeDepth := 60) [h]⟩

@[simp] theorem cxlEvent_keeps (d b : Nat) (s : State) : Keeps s (cxlEvent d b s) := by
  unfold cxlEvent
  try dsimp only
  (repeat' split) <;> exact ⟨by simp [Stands], fun h => by simp +contextual (maxDischargeDepth := 60) [h]⟩

@[simp] theorem cxlCountPoison_keeps (d : Nat) (s : State) : Keeps s (cxlCountPoison d s) := by
  unfold cxlCountPoison
  try dsimp only
  (repeat' split) <;> exact ⟨by simp [Stands], fun h => by simp +contextual (maxDischargeDepth := 60) [h]⟩

@[simp] theorem hostEvent_keeps (b : Nat) (s : State) : Keeps s (hostEvent b s) := by
  unfold hostEvent
  try dsimp only
  (repeat' split) <;> exact ⟨by simp [Stands], fun h => by simp +contextual (maxDischargeDepth := 60) [h]⟩

@[simp] theorem dispEvent_keeps (b : Nat) (s : State) : Keeps s (dispEvent b s) := by
  unfold dispEvent
  try dsimp only
  (repeat' split) <;> exact ⟨by simp [Stands], fun h => by simp +contextual (maxDischargeDepth := 60) [h]⟩

@[simp] theorem dispCount_keeps (get : Disp → Counter) (put : Disp → Counter → Disp) (off : Nat) (s : State) :
    Keeps s (dispCount get put off s) := by
  unfold dispCount
  try dsimp only
  (repeat' split) <;> exact ⟨by simp [Stands], fun h => by simp +contextual (maxDischargeDepth := 60) [h]⟩

@[simp] theorem paceEvent_keeps (b : Nat) (s : State) : Keeps s (paceEvent b s) := by
  unfold paceEvent
  try dsimp only
  (repeat' split) <;> exact ⟨by simp [Stands], fun h => by simp +contextual (maxDischargeDepth := 60) [h]⟩

@[simp] theorem paceCount_keeps (get : Pace → Counter) (put : Pace → Counter → Pace) (off n : Nat) (s : State) :
    Keeps s (paceCount get put off n s) := by
  unfold paceCount
  try dsimp only
  (repeat' split) <;> exact ⟨by simp [Stands], fun h => by simp +contextual (maxDischargeDepth := 60) [h]⟩

@[simp] theorem entEvent_keeps (b : Nat) (s : State) : Keeps s (entEvent b s) := by
  unfold entEvent
  try dsimp only
  (repeat' split) <;> exact ⟨by simp [Stands], fun h => by simp +contextual (maxDischargeDepth := 60) [h]⟩

@[simp] theorem silkEvent_keeps (b : Nat) (s : State) : Keeps s (silkEvent b s) := by
  unfold silkEvent
  try dsimp only
  (repeat' split) <;> exact ⟨by simp [Stands], fun h => by simp +contextual (maxDischargeDepth := 60) [h]⟩

@[simp] theorem mgmtEvent_keeps (b : Nat) (s : State) : Keeps s (mgmtEvent b s) := by
  unfold mgmtEvent
  try dsimp only
  (repeat' split) <;> exact ⟨by simp [Stands], fun h => by simp +contextual (maxDischargeDepth := 60) [h]⟩

@[simp] theorem silkCount_keeps (get : Silk → Counter) (put : Silk → Counter → Silk) (off : Nat) (s : State) :
    Keeps s (silkCount get put off s) := by
  unfold silkCount
  try dsimp only
  (repeat' split) <;> exact ⟨by simp [Stands], fun h => by simp +contextual (maxDischargeDepth := 60) [h]⟩

@[simp] theorem State.setPort_keeps (s : State) (p : Nat) (x : Port) : Keeps s (State.setPort s p x) := by
  unfold State.setPort
  try dsimp only
  (repeat' split) <;> exact ⟨by simp [Stands], fun h => by simp +contextual (maxDischargeDepth := 60) [h]⟩

@[simp] theorem portEvent_keeps (p b : Nat) (s : State) : Keeps s (portEvent p b s) := by
  unfold portEvent
  try dsimp only
  (repeat' split) <;> exact ⟨by simp [Stands], fun h => by simp +contextual (maxDischargeDepth := 60) [h]⟩

@[simp] theorem entCount_keeps (get : Ent → Counter) (put : Ent → Counter → Ent) (off : Nat) (s : State) :
    Keeps s (entCount get put off s) := by
  unfold entCount
  try dsimp only
  (repeat' split) <;> exact ⟨by simp [Stands], fun h => by simp +contextual (maxDischargeDepth := 60) [h]⟩

@[simp] theorem traceCount_keeps (get : Trace → Counter) (put : Trace → Counter → Trace) (off n : Nat) (s : State) :
    Keeps s (traceCount get put off n s) := by
  unfold traceCount
  try dsimp only
  (repeat' split) <;> exact ⟨by simp [Stands], fun h => by simp +contextual (maxDischargeDepth := 60) [h]⟩

@[simp] theorem traceEvent_keeps (b : Nat) (s : State) : Keeps s (traceEvent b s) := by
  unfold traceEvent
  try dsimp only
  (repeat' split) <;> exact ⟨by simp [Stands], fun h => by simp +contextual (maxDischargeDepth := 60) [h]⟩

@[simp] theorem emitFrame_keeps (p : Nat) (f : Frame) (s : State) : Keeps s (emitFrame p f s) := by
  unfold emitFrame
  try dsimp only
  (repeat' split) <;> exact ⟨by simp [Stands], fun h => by simp +contextual (maxDischargeDepth := 60) [h]⟩

@[simp] theorem sendIdle_keeps (p : Nat) (nak resume : Bool) (s : State) : Keeps s (sendIdle p nak resume s) := by
  unfold sendIdle
  try dsimp only
  (repeat' split) <;> exact ⟨by simp [Stands], fun h => by simp +contextual (maxDischargeDepth := 60) [h]⟩

@[simp] theorem sendFrame_keeps (p : Nat) (flits : List Byte) (s : State) : Keeps s (sendFrame p flits s) := by
  unfold sendFrame
  try dsimp only
  (repeat' split) <;> exact ⟨by simp [Stands], fun h => by simp +contextual (maxDischargeDepth := 60) [h]⟩

@[simp] theorem sendPacket_keeps (p : Nat) (k : SilkPkt) (s : State) : Keeps s (sendPacket p k s) := by
  unfold sendPacket
  try dsimp only
  (repeat' split) <;> exact ⟨by simp [Stands], fun h => by simp +contextual (maxDischargeDepth := 60) [h]⟩

@[simp] theorem drainPort_keeps (p n : Nat) (s : State) : Keeps s (drainPort p n s) := (drainPort_frame p n s).keeps

@[simp] theorem pumpPort_keeps (p : Nat) (s : State) : Keeps s (pumpPort p s) := by
  exact drainPort_keeps _ _ _

@[simp] theorem emitSilk_keeps (p : Nat) (k : SilkPkt) (s : State) : Keeps s (emitSilk p k s) := by
  unfold emitSilk
  try dsimp only
  (repeat' split) <;> exact ⟨by simp [Stands], fun h => by simp +contextual (maxDischargeDepth := 60) [h]⟩

@[simp] theorem tick_keeps (s : State) : Keeps s (tick s) := by
  unfold tick
  try dsimp only
  (repeat' split) <;> exact ⟨by simp [Stands], fun h => by simp +contextual (maxDischargeDepth := 60) [h]⟩

@[simp] theorem drawn_keeps (n : Nat) (s : State) : Keeps s (drawn n s) := by
  unfold drawn
  try dsimp only
  (repeat' split) <;> exact ⟨by simp [Stands], fun h => by simp +contextual (maxDischargeDepth := 60) [h]⟩

@[simp] theorem State.setCluster_keeps (s : State) (c : Nat) (k : Cluster) : Keeps s (State.setCluster s c k) := by
  unfold State.setCluster
  try dsimp only
  (repeat' split) <;> exact ⟨by simp [Stands], fun h => by simp +contextual (maxDischargeDepth := 60) [h]⟩

@[simp] theorem State.modCluster_keeps (s : State) (c : Nat) (f : Cluster → Cluster) : Keeps s (State.modCluster s c f) := by
  unfold State.modCluster
  try dsimp only
  (repeat' split) <;> exact ⟨by simp [Stands], fun h => by simp +contextual (maxDischargeDepth := 60) [h]⟩

@[simp] theorem State.modCore_keeps (s : State) (c l : Nat) (f : Core → Core) : Keeps s (State.modCore s c l f) := by
  unfold State.modCore
  try dsimp only
  (repeat' split) <;> exact ⟨by simp [Stands], fun h => by simp +contextual (maxDischargeDepth := 60) [h]⟩

@[simp] theorem readFollower_keeps (c : Nat) (s : State) : Keeps s (readFollower c s) := by
  unfold readFollower
  try dsimp only
  (repeat' split) <;> exact ⟨by simp [Stands], fun h => by simp +contextual (maxDischargeDepth := 60) [h]⟩

@[simp] theorem cluEvent_keeps (c b : Nat) (s : State) : Keeps s (cluEvent c b s) := by
  unfold cluEvent
  try dsimp only
  (repeat' split) <;> exact ⟨by simp [Stands], fun h => by simp +contextual (maxDischargeDepth := 60) [h]⟩

@[simp] theorem coreEvent_keeps (c l b : Nat) (s : State) : Keeps s (coreEvent c l b s) := by
  unfold coreEvent
  try dsimp only
  (repeat' split) <;> exact ⟨by simp [Stands], fun h => by simp +contextual (maxDischargeDepth := 60) [h]⟩

@[simp] theorem coreCount_keeps (c l : Nat) (get : Core → Counter) (put : Core → Counter → Core) (off n : Nat) (s : State) :
    Keeps s (coreCount c l get put off n s) := by
  unfold coreCount
  try dsimp only
  (repeat' split) <;> exact ⟨by simp [Stands], fun h => by simp +contextual (maxDischargeDepth := 60) [h]⟩

@[simp] theorem netCount_keeps (c : Nat) (get : Cluster → Counter) (put : Cluster → Counter → Cluster) (off n : Nat) (s : State) :
    Keeps s (netCount c get put off n s) := by
  unfold netCount
  try dsimp only
  (repeat' split) <;> exact ⟨by simp [Stands], fun h => by simp +contextual (maxDischargeDepth := 60) [h]⟩

@[simp] theorem writeGddr_keeps (s : State) (a : Nat) (bs : List (Option Byte)) (poison : Bool) :
    Keeps s (writeGddr s a bs poison) := by
  exact ⟨by rw [writeGddr_frame]; exact .refl s, Mem.wf_writeGddr _ _ _ _⟩

@[simp] theorem writeWord_keeps (s : State) (a : Nat) (bs : List (Option Byte)) (poison : Bool) :
    Keeps s (writeWord s a bs poison) := by
  exact ⟨(LocalFrame.writeWord _ _ _ _).stands, Mem.wf_writeWord _ _ _ _⟩

@[simp] theorem discardPreloads_keeps (s : State) (lo hi : Nat) : Keeps s (discardPreloads s lo hi) := by
  unfold discardPreloads
  try dsimp only
  (repeat' split) <;> exact ⟨by simp [Stands], fun h => by simp +contextual (maxDischargeDepth := 60) [h]⟩

@[simp] theorem physWrite_keeps (s : State) (a : Nat) (data : List Tagged) : Keeps s (physWrite s a data) := by
  exact ⟨(physWrite_frame s a data).stands, Mem.wf_physWrite s a data⟩

@[simp] theorem recordFault_keeps (asid kind level va source : Nat) (write : Bool) (s : State) :
    Keeps s (recordFault asid kind level va source write s) := by
  unfold recordFault
  try dsimp only
  (repeat' split) <;> exact ⟨by simp [Stands], fun h => by simp +contextual (maxDischargeDepth := 60) [h]⟩

theorem peerWrite_keeps {s t : State} {g : Nat} {data : List Tagged} (h : peerWrite s g data = .ok t) : Keeps s t :=
  ⟨(peerWrite_frame s t g data h).1.stands, (peerWrite_frame s t g data h).2⟩

@[simp] theorem hostWrite_keeps (s : State) (i a : Nat) (data : List Tagged) : Keeps s (hostWrite s i a data) := by
  exact ⟨(hostWrite_frame s i a data).stands, Mem.wf_hostWrite s i a data⟩

theorem leafWrite_keeps {s t : State} {l : Leaf} {i va : Nat} {data : List Tagged} (h : leafWrite s l i va data = .ok t) :
    Keeps s t := ⟨(leafWrite_frame s t l i va data h).1.stands, (leafWrite_frame s t l i va data h).2⟩

theorem vaWrite_keeps {s t : State} {asid va : Nat} {data : List Tagged} (h : vaWrite s asid va data = .ok t) : Keeps s t :=
  ⟨(vaWrite_frame s t asid va data h).1.stands, (vaWrite_frame s t asid va data h).2⟩

@[simp] theorem noteFault_keeps (asid source : Nat) (write : Bool) (e : AccErr) (s : State) :
    Keeps s (noteFault asid source write e s) := by
  unfold noteFault
  try dsimp only
  (repeat' split) <;> exact ⟨by simp [Stands], fun h => by simp +contextual (maxDischargeDepth := 60) [h]⟩

@[simp] theorem twiceOrder_keeps (s : State) (place : Nat) : Keeps s (twiceOrder s place) := by
  unfold twiceOrder
  try dsimp only
  (repeat' split) <;> exact ⟨by simp [Stands], fun h => by simp +contextual (maxDischargeDepth := 60) [h]⟩

@[simp] theorem noteBad_keeps (id : Nat) (s : State) (place : Nat) : Keeps s (noteBad id s place) := by
  unfold noteBad
  (repeat' split) <;> first
    | exact .refl s
    | exact twiceOrder_keeps _ _
    | exact ⟨.refl s, fun h => h⟩

@[simp] theorem noteDelivered_keeps (a n : Nat) (s : State) : Keeps s (noteDelivered a n s) := by
  unfold noteDelivered
  try dsimp only
  (repeat' split) <;> exact ⟨by simp [Stands], fun h => by simp +contextual (maxDischargeDepth := 60) [h]⟩

@[simp] theorem logLine_keeps (s : State) (c l line : Nat) : Keeps s (logLine s c l line) := by
  exact ⟨(logLine_frame s c l line).stands, Mem.wf_logLine s c l line⟩

@[simp] theorem coreWrite_keeps (s : State) (c l off : Nat) (data : List Tagged) : Keeps s (coreWrite s c l off data) := by
  exact ⟨(coreWrite_frame s c l off data).stands, Mem.wf_coreWrite s c l off data⟩

@[simp] theorem State.modLaunch_keeps (s : State) (id : Nat) (f : Launch → Launch) : Keeps s (State.modLaunch s id f) := by
  unfold State.modLaunch
  try dsimp only
  (repeat' split) <;> exact ⟨by simp [Stands], fun h => by simp +contextual (maxDischargeDepth := 60) [h]⟩

@[simp] theorem stopLaunch_keeps (id st : Nat) (s : State) : Keeps s (stopLaunch id st s) := by
  unfold stopLaunch
  try dsimp only
  (repeat' split) <;> exact ⟨by simp [Stands], fun h => by simp +contextual (maxDischargeDepth := 60) [h]⟩

@[simp] theorem consumePoison_keeps (c l : Nat) (places : List Nat) (s : State) : Keeps s (consumePoison c l places s) := by
  unfold consumePoison
  try dsimp only
  (repeat' split) <;> exact ⟨by simp [Stands], fun h => by simp +contextual (maxDischargeDepth := 60) [h]⟩

@[simp] theorem controlPoison_keeps (id : Nat) (place : Nat) (s : State) : Keeps s (controlPoison id place s) := by
  unfold controlPoison
  try dsimp only
  (repeat' split) <;> exact ⟨by simp [Stands], fun h => by simp +contextual (maxDischargeDepth := 60) [h]⟩

@[simp] theorem writeTensor_keeps (s : State) (c l : Nat) (d : Desc) (rows : List (List Nat × List Nat)) :
    Keeps s (writeTensor s c l d rows) := by
  unfold writeTensor
  try dsimp only
  (repeat' split) <;> exact ⟨by simp [Stands], fun h => by simp +contextual (maxDischargeDepth := 60) [h]⟩

@[simp] theorem writeRows_keeps (s : State) (c l : Nat) (d : Desc) (data : List Byte) : Keeps s (writeRows s c l d data) := by
  unfold writeRows
  try dsimp only
  (repeat' split) <;> exact ⟨by simp [Stands], fun h => by simp +contextual (maxDischargeDepth := 60) [h]⟩

@[simp] theorem cacheLeaf_keeps (unit asid va : Nat) (l : Leaf) (s : State) : Keeps s (cacheLeaf unit asid va l s) := by
  unfold cacheLeaf
  try dsimp only
  (repeat' split) <;> exact ⟨by simp [Stands], fun h => by simp +contextual (maxDischargeDepth := 60) [h]⟩

@[simp] theorem translate_keeps (unit asid va : Nat) (write : Bool) (s : State) :
    Keeps s (translate unit asid va write s).1 := by
  unfold translate
  dsimp only
  cases walk s asid va write with
  | ok l =>
    have hc := cacheLeaf_keeps unit asid va l s
    (repeat' split) <;> first | exact .refl s | exact drawn_keeps 1 s | exact hc.trans (drawn_keeps 1 _) | exact hc
  | error e => (repeat' split) <;> first | exact .refl s | exact drawn_keeps 1 s

@[simp] theorem heatCount_keeps (unit asid va n : Nat) (s : State) : Keeps s (heatCount unit asid va n s) := by
  unfold heatCount
  try dsimp only
  (repeat' split) <;> exact ⟨by simp [Stands], fun h => by simp +contextual (maxDischargeDepth := 60) [h]⟩

@[simp] theorem throughEgress_keeps (asid : Nat) (l : Leaf) (va n : Nat) (s : State) :
    Keeps s (throughEgress asid l va n s) := by
  unfold throughEgress
  try dsimp only
  (repeat' split) <;> exact ⟨by simp [Stands], fun h => by simp +contextual (maxDischargeDepth := 60) [h]⟩

@[simp] theorem peerAsk_keeps (g n : Nat) (s : State) : Keeps s (peerAsk g n s) := by
  unfold peerAsk
  try dsimp only
  (repeat' split) <;> exact ⟨by simp [Stands], fun h => by simp +contextual (maxDischargeDepth := 60) [h]⟩

@[simp] theorem countCxlPoison_keeps (a n : Nat) (s : State) : Keeps s (countCxlPoison a n s) := by
  unfold countCxlPoison
  split
  · refine .foldl _ _ _ (fun s i => ?_)
    split
    · exact cxlCountPoison_keeps _ _
    · exact .refl s
  · exact .refl s

@[simp] theorem readThrough_keeps (asid : Nat) (l : Leaf) (va n : Nat) (s : State) : Keeps s (readThrough asid l va n s) := by
  unfold readThrough
  try dsimp only
  (repeat' split) <;> exact ⟨by simp [Stands], fun h => by simp +contextual (maxDischargeDepth := 60) [h]⟩

@[simp] theorem touchPiece_keeps (unit asid : Nat) (write : Bool) (s : State) (p : Nat × Nat) :
    Keeps s (touchPiece unit asid write s p) := by
  unfold touchPiece
  try dsimp only
  (repeat' split) <;> exact ⟨by simp [Stands], fun h => by simp +contextual (maxDischargeDepth := 60) [h]⟩

@[simp] theorem touch_keeps (unit asid va n : Nat) (write : Bool) (s : State) : Keeps s (touch unit asid va n write s) := by
  unfold touch
  try dsimp only
  (repeat' split) <;> exact ⟨by simp [Stands], fun h => by simp +contextual (maxDischargeDepth := 60) [h]⟩

theorem writeVa_keeps {s t : State} {unit asid va : Nat} {data : List Byte} (h : writeVa unit s asid va data = .ok t) :
    Keeps s t := by
  unfold writeVa at h
  split at h <;> cases h
  rename_i hu
  exact (vaWrite_keeps hu).trans (touch_keeps _ _ _ _ _ _)

theorem writeAll_keeps {unit asid base : Nat} {ws : List (Nat × List Byte)} {s t : State}
    (h : writeAll unit s asid base ws = .ok t) : Keeps s t := by
  induction ws generalizing s with
  | nil => cases h; exact .refl _
  | cons w ws ih =>
    unfold writeAll at h
    split at h
    · cases h
    · rename_i u hu
      exact (writeVa_keeps hu).trans (ih h)

@[simp] theorem touchAll_keeps (unit asid base : Nat) (rs : List (Nat × Nat)) (s : State) :
    Keeps s (touchAll unit asid base rs s) := by
  unfold touchAll
  try dsimp only
  (repeat' split) <;> exact ⟨by simp [Stands], fun h => by simp +contextual (maxDischargeDepth := 60) [h]⟩

@[simp] theorem haltLaunch_keeps (id asid source : Nat) (h : Halt) (s : State) : Keeps s (haltLaunch id asid source h s) := by
  unfold haltLaunch
  try dsimp only
  (repeat' split) <;> exact ⟨by simp [Stands], fun h => by simp +contextual (maxDischargeDepth := 60) [h]⟩

@[simp] theorem State.setCtx_keeps (s : State) (n : Nat) (c : Ctx) : Keeps s (State.setCtx s n c) := by
  unfold State.setCtx
  try dsimp only
  (repeat' split) <;> exact ⟨by simp [Stands], fun h => by simp +contextual (maxDischargeDepth := 60) [h]⟩

@[simp] theorem failRun_keeps (n : Nat) (s : State) : Keeps s (failRun n s) := by
  unfold failRun
  try dsimp only
  (repeat' split) <;> exact ⟨by simp [Stands], fun h => by simp +contextual (maxDischargeDepth := 60) [h]⟩

@[simp] theorem endRun_keeps (n : Nat) (rs : List Replica) (s : State) : Keeps s (endRun n rs s) := by
  unfold endRun
  try dsimp only
  (repeat' split) <;> exact ⟨by simp [Stands], fun h => by simp +contextual (maxDischargeDepth := 60) [h]⟩

@[simp] theorem pauseRun_keeps (n : Nat) (rs : List Replica) (s : State) : Keeps s (pauseRun n rs s) := by
  unfold pauseRun
  try dsimp only
  (repeat' split) <;> exact ⟨by simp [Stands], fun h => by simp +contextual (maxDischargeDepth := 60) [h]⟩

@[simp] theorem State.setRun_keeps (s : State) (n : Nat) (r : Run) : Keeps s (State.setRun s n r) := by
  unfold State.setRun
  try dsimp only
  (repeat' split) <;> exact ⟨by simp [Stands], fun h => by simp +contextual (maxDischargeDepth := 60) [h]⟩

@[simp] theorem State.modRun_keeps (s : State) (n : Nat) (f : Run → Run) : Keeps s (State.modRun s n f) := by
  unfold State.modRun
  try dsimp only
  (repeat' split) <;> exact ⟨by simp [Stands], fun h => by simp +contextual (maxDischargeDepth := 60) [h]⟩

@[simp] theorem popFifo_keeps (s : State) (n : Nat) : Keeps s (popFifo s n) := by
  unfold popFifo
  try dsimp only
  (repeat' split) <;> exact ⟨by simp [Stands], fun h => by simp +contextual (maxDischargeDepth := 60) [h]⟩

@[simp] theorem pushFifo_keeps (s : State) (n : Nat) (k : Pkt) : Keeps s (pushFifo s n k) := by
  unfold pushFifo
  try dsimp only
  (repeat' split) <;> exact ⟨by simp [Stands], fun h => by simp +contextual (maxDischargeDepth := 60) [h]⟩

@[simp] theorem pushAll_keeps (s : State) (bs : List (Nat × Pkt)) : Keeps s (pushAll s bs) := by
  unfold pushAll
  try dsimp only
  (repeat' split) <;> exact ⟨by simp [Stands], fun h => by simp +contextual (maxDischargeDepth := 60) [h]⟩

@[simp] theorem noteServed_keeps (n : Nat) (bs : List (Nat × Pkt)) (s : State) : Keeps s (noteServed n bs s) := by
  unfold noteServed
  try dsimp only
  (repeat' split) <;> exact ⟨by simp [Stands], fun h => by simp +contextual (maxDischargeDepth := 60) [h]⟩

@[simp] theorem dropPacket_keeps (s : State) (n : Nat) : Keeps s (dropPacket s n) := by
  unfold dropPacket
  try dsimp only
  (repeat' split) <;> exact ⟨by simp [Stands], fun h => by simp +contextual (maxDischargeDepth := 60) [h]⟩

@[simp] theorem countBad_keeps (s : State) (n : Nat) (m : Nat) : Keeps s (countBad s n m) := by
  unfold countBad
  try dsimp only
  (repeat' split) <;> exact ⟨by simp [Stands], fun h => by simp +contextual (maxDischargeDepth := 60) [h]⟩

@[simp] theorem countEngine_keeps (e : Engine) (c l n : Nat) (s : State) : Keeps s (countEngine e c l n s) := by
  unfold countEngine
  try dsimp only
  (repeat' split) <;> exact ⟨by simp [Stands], fun h => by simp +contextual (maxDischargeDepth := 60) [h]⟩

@[simp] theorem countShakes_keeps (e : Engine) (c id worst : Nat) (s : State) (l : Nat) :
    Keeps s (countShakes e c id worst s l) := by
  unfold countShakes
  try dsimp only
  (repeat' split) <;> exact ⟨by simp [Stands], fun h => by simp +contextual (maxDischargeDepth := 60) [h]⟩

@[simp] theorem countDone_keeps (c : Nat) (s : State) (l : Nat) : Keeps s (countDone c s l) := by
  unfold countDone
  try dsimp only
  (repeat' split) <;> exact ⟨by simp [Stands], fun h => by simp +contextual (maxDischargeDepth := 60) [h]⟩

@[simp] theorem countOp_keeps (e : Engine) (c id worst : Nat) (s : State) (l : Nat) : Keeps s (countOp e c id worst s l) := by
  unfold countOp
  try dsimp only
  (repeat' split) <;> exact ⟨by simp [Stands], fun h => by simp +contextual (maxDischargeDepth := 60) [h]⟩

@[simp] theorem advance_keeps (c : Nat) (s : State) : Keeps s (advance c s) := by
  unfold advance
  try dsimp only
  (repeat' split) <;> exact ⟨by simp [Stands], fun h => by simp +contextual (maxDischargeDepth := 60) [h]⟩

theorem runCores_keeps {f : CoreWork} {ls : List Nat} {s t : State} (hf : ∀ s l t, f s l = .ok t → Keeps s t)
    (h : runCores f ls s = .ok t) : Keeps s t := by
  induction ls generalizing s with
  | nil => cases h; exact .refl _
  | cons l ls ih =>
    unfold runCores at h
    split at h
    · cases h
    · rename_i u hu
      exact (hf _ _ _ hu).trans (ih h)

@[simp] theorem invalidOp_keeps (c : Nat) (cores : List Nat) (ln : Launch) (s : State) : Keeps s (invalidOp c cores ln s) := by
  unfold invalidOp
  try dsimp only
  (repeat' split) <;> exact ⟨by simp [Stands], fun h => by simp +contextual (maxDischargeDepth := 60) [h]⟩

@[simp] theorem stopCore_keeps (c : Nat) (cores : List Nat) (l : Nat) (ln : Launch) (e : CoreStop) (s : State) :
    Keeps s (stopCore c cores l ln e s) := by
  unfold stopCore
  try dsimp only
  (repeat' split) <;> exact ⟨by simp [Stands], fun h => by simp +contextual (maxDischargeDepth := 60) [h]⟩

@[simp] theorem stopUnit_keeps (c : Nat) (ln : Launch) (e : CoreStop) (s : State) : Keeps s (stopUnit c ln e s) := by
  unfold stopUnit
  try dsimp only
  (repeat' split) <;> exact ⟨by simp [Stands], fun h => by simp +contextual (maxDischargeDepth := 60) [h]⟩

theorem storeRow_keeps {ln : Launch} {c va : Nat} {data : List Tagged} {s t : State} (h : storeRow ln c va data s = .ok t) :
    Keeps s t := by
  unfold storeRow at h
  split at h <;> cases h
  rename_i u hu
  exact (vaWrite_keeps hu).trans (touch_keeps _ _ _ _ _ _)

theorem storeRows_keeps {ln : Launch} {c va stride r : Nat} {rows : List (List Tagged)} {s t : State}
    (h : storeRows ln c va stride r rows s = .ok t) : Keeps s t := by
  induction rows generalizing r s with
  | nil => unfold storeRows at h; cases h; exact .refl _
  | cons row rows ih =>
    unfold storeRows at h
    split at h
    · cases h
    · rename_i u hu
      exact (storeRow_keeps hu).trans (ih h)

@[simp] theorem setTile_keeps (c l t : Nat) (x : Tile) (s : State) : Keeps s (setTile c l t x s) := by
  unfold setTile
  try dsimp only
  (repeat' split) <;> exact ⟨by simp [Stands], fun h => by simp +contextual (maxDischargeDepth := 60) [h]⟩

@[simp] theorem setTileSat_keeps (c l t : Nat) (b : Bool) (s : State) : Keeps s (setTileSat c l t b s) := by
  unfold setTileSat
  try dsimp only
  (repeat' split) <;> exact ⟨by simp [Stands], fun h => by simp +contextual (maxDischargeDepth := 60) [h]⟩

@[simp] theorem countDrain_keeps (c l : Nat) (s : State) : Keeps s (countDrain c l s) := by
  unfold countDrain
  try dsimp only
  (repeat' split) <;> exact ⟨by simp [Stands], fun h => by simp +contextual (maxDischargeDepth := 60) [h]⟩

@[simp] theorem writePlane_keeps (s : State) (c l : Nat) (d : Desc) (rows : List (List Byte)) :
    Keeps s (writePlane s c l d rows) := by
  unfold writePlane
  try dsimp only
  (repeat' split) <;> exact ⟨by simp [Stands], fun h => by simp +contextual (maxDischargeDepth := 60) [h]⟩

theorem rdrainWrite_keeps {ln : Launch} {c : Nat} {o : OpWord} {d : Desc} {rows : List (List Byte)} {s t : State}
    (h : rdrainWrite ln c o d rows s = .ok t) : Keeps s t := by
  unfold rdrainWrite at h
  split at h
  · obtain ⟨a, -, h⟩ := bind_ok h
    exact storeRows_keeps h
  · cases h
    exact .foldl _ _ s (fun s l => writePlane_keeps s c l d rows)

@[simp] theorem placeRequests_keeps (s : State) : Keeps s (placeRequests s) := by
  unfold placeRequests
  try dsimp only
  (repeat' split) <;> exact ⟨by simp [Stands], fun h => by simp +contextual (maxDischargeDepth := 60) [h]⟩

theorem askEntropy_keeps {r : GenReq} {s t : State} (h : askEntropy r s = .ok t) : Keeps s t := by
  unfold askEntropy at h
  split at h <;> cases h
  exact Keeps.trans (t := { s with ent := _ }) (.refl s) (placeRequests_keeps _)

@[simp] theorem withdraw_keeps (p : GenReq → Bool) (s : State) : Keeps s (withdraw p s) := by
  unfold withdraw
  try dsimp only
  (repeat' split) <;> exact ⟨by simp [Stands], fun h => by simp +contextual (maxDischargeDepth := 60) [h]⟩

@[simp] theorem writeCores_keeps (c : Nat) (o : OpWord) (d : Desc) (bs : List Byte) (s : State) :
    Keeps s (writeCores c o d bs s) := by
  unfold writeCores
  try dsimp only
  (repeat' split) <;> exact ⟨by simp [Stands], fun h => by simp +contextual (maxDischargeDepth := 60) [h]⟩

@[simp] theorem noteSeed_keeps (id c seed : Nat) (s : State) : Keeps s (noteSeed id c seed s) := by
  unfold noteSeed
  try dsimp only
  (repeat' split) <;> exact ⟨by simp [Stands], fun h => by simp +contextual (maxDischargeDepth := 60) [h]⟩

@[simp] theorem deliverOp_keeps (c : Nat) (bits : List Byte) (s : State) : Keeps s (deliverOp c bits s) := by
  unfold deliverOp
  try dsimp only
  (repeat' split) <;> exact ⟨by simp [Stands], fun h => by simp +contextual (maxDischargeDepth := 60) [h]⟩

@[simp] theorem setSync_keeps (n : Nat) (x : Sync) (s : State) : Keeps s (setSync n x s) := by
  unfold setSync
  try dsimp only
  (repeat' split) <;> exact ⟨by simp [Stands], fun h => by simp +contextual (maxDischargeDepth := 60) [h]⟩

@[simp] theorem State.setQueue_keeps (s : State) (q : Nat) (x : Queue) : Keeps s (State.setQueue s q x) := by
  unfold State.setQueue
  try dsimp only
  (repeat' split) <;> exact ⟨by simp [Stands], fun h => by simp +contextual (maxDischargeDepth := 60) [h]⟩

@[simp] theorem faultQueue_keeps (q : Nat) (s : State) : Keeps s (faultQueue q s) := by
  unfold faultQueue
  try dsimp only
  (repeat' split) <;> exact ⟨by simp [Stands], fun h => by simp +contextual (maxDischargeDepth := 60) [h]⟩

@[simp] theorem sendMsix_keeps (v : Nat) (s : State) : Keeps s (sendMsix v s) := by
  unfold sendMsix
  try dsimp only
  (repeat' split) <;> exact ⟨by simp [Stands], fun h => by simp +contextual (maxDischargeDepth := 60) [h]⟩

@[simp] theorem sendSummary_keeps (s : State) : Keeps s (sendSummary s) := by
  unfold sendSummary
  try dsimp only
  (repeat' split) <;> exact ⟨by simp [Stands], fun h => by simp +contextual (maxDischargeDepth := 60) [h]⟩

@[simp] theorem State.setBox_keeps (s : State) (m : Nat) (b : Box) : Keeps s (State.setBox s m b) := by
  unfold State.setBox
  try dsimp only
  (repeat' split) <;> exact ⟨by simp [Stands], fun h => by simp +contextual (maxDischargeDepth := 60) [h]⟩

@[simp] theorem answer_keeps (m : Nat) (bytes : List Byte) (s : State) : Keeps s (answer m bytes s) := by
  unfold answer
  try dsimp only
  (repeat' split) <;> exact ⟨by simp [Stands], fun h => by simp +contextual (maxDischargeDepth := 60) [h]⟩

@[simp] theorem orderDone_keeps (c result : Nat) (r : Option Reply) (s : State) : Keeps s (orderDone c result r s) := by
  unfold orderDone
  try dsimp only
  (repeat' split) <;> exact ⟨by simp [Stands], fun h => by simp +contextual (maxDischargeDepth := 60) [h]⟩

theorem openTxn_keeps {x : Txn} {s : State} {y : Txn × State} (h : openTxn x s = some y) : Keeps s y.2 := by
  unfold openTxn at h
  split at h
  · cases h
  · split at h <;> cases h
    exact .refl s

theorem issueTxn_keeps {x : Txn} {s t : State} (h : issueTxn x s = some t) : Keeps s t := by
  unfold issueTxn at h
  split at h <;> cases h
  rename_i hu
  exact (openTxn_keeps hu).trans (.foldl _ _ _ (fun s k => emitSilk_keeps _ k s))

@[simp] theorem lostTxn_keeps (t : Txn) (s : State) : Keeps s (lostTxn t s) := by
  unfold lostTxn
  try dsimp only
  (repeat' split) <;> exact ⟨by simp [Stands], fun h => by simp +contextual (maxDischargeDepth := 60) [h]⟩

@[simp] theorem sendTxn_keeps (c l : Nat) (t : Txn) (s : State) : Keeps s (sendTxn c l t s) := by
  unfold sendTxn
  try dsimp only
  (repeat' split) <;> exact ⟨by simp [Stands], fun h => by simp +contextual (maxDischargeDepth := 60) [h]⟩

@[simp] theorem sendWaiting_keeps (c l n : Nat) (s : State) : Keeps s (sendWaiting c l n s) := by
  induction n generalizing s with
  | zero => exact .refl s
  | succ n ih =>
    unfold sendWaiting
    dsimp only
    split
    · exact .refl s
    · split
      · exact .refl s
      · split
        · split
          · rename_i hu
            exact (State.modCore_keeps s c l _).trans (((openTxn_keeps hu).trans (sendTxn_keeps _ _ _ _)).trans (ih _))
          · exact (State.modCore_keeps s c l _).trans ((lostTxn_keeps _ _).trans (ih _))
        · exact (State.modCore_keeps s c l _).trans ((sendTxn_keeps _ _ _ _).trans (ih _))

@[simp] theorem startTxns_keeps (c l : Nat) (ts : List Txn) (s : State) : Keeps s (startTxns c l ts s) := by
  unfold startTxns
  exact (State.modCore_keeps s c l _).trans (sendWaiting_keeps _ _ _ _)

@[simp] theorem resumeWaiting_keeps (s : State) : Keeps s (resumeWaiting s) := by
  unfold resumeWaiting
  exact .foldl _ _ _ (fun s e => sendWaiting_keeps _ _ _ s)

@[simp] theorem settleRoute_keeps (dev : Nat) (s : State) : Keeps s (settleRoute dev s) := by
  unfold settleRoute
  try dsimp only
  (repeat' split) <;> exact ⟨by simp [Stands], fun h => by simp +contextual (maxDischargeDepth := 60) [h]⟩

@[simp] theorem State.emit_keeps (s : State) (o : Output) : Keeps s (State.emit s o) := by
  unfold State.emit
  try dsimp only
  (repeat' split) <;> exact ⟨by simp [Stands], fun h => by simp +contextual (maxDischargeDepth := 60) [h]⟩

@[simp] theorem ringTail_keeps (q : Nat) (v : Word32) (s : State) : Keeps s (ringTail q v s) := by
  unfold ringTail
  try dsimp only
  (repeat' split) <;> exact ⟨by simp [Stands], fun h => by simp +contextual (maxDischargeDepth := 60) [h]⟩

@[simp] theorem ringHead_keeps (q : Nat) (v : Word32) (s : State) : Keeps s (ringHead q v s) := by
  unfold ringHead
  try dsimp only
  (repeat' split) <;> exact ⟨by simp [Stands], fun h => by simp +contextual (maxDischargeDepth := 60) [h]⟩

@[simp] theorem ringArm_keeps (q : Nat) (arm : Bool) (s : State) : Keeps s (ringArm q arm s) := by
  unfold ringArm
  try dsimp only
  (repeat' split) <;> exact ⟨by simp [Stands], fun h => by simp +contextual (maxDischargeDepth := 60) [h]⟩

@[simp] theorem clearIgnored_keeps (q : Nat) (s : State) : Keeps s (clearIgnored q s) := by
  unfold clearIgnored
  try dsimp only
  (repeat' split) <;> exact ⟨by simp [Stands], fun h => by simp +contextual (maxDischargeDepth := 60) [h]⟩

@[simp] theorem refuseQueue_keeps (s : State) : Keeps s (refuseQueue s) := by
  unfold refuseQueue
  try dsimp only
  (repeat' split) <;> exact ⟨by simp [Stands], fun h => by simp +contextual (maxDischargeDepth := 60) [h]⟩

@[simp] theorem poisonedEntry_keeps (s : State) (q : Nat) : Keeps s (poisonedEntry s q) := by
  unfold poisonedEntry
  try dsimp only
  (repeat' split) <;> exact ⟨by simp [Stands], fun h => by simp +contextual (maxDischargeDepth := 60) [h]⟩

@[simp] theorem enableQueue_keeps (q : Nat) (s : State) : Keeps s (enableQueue q s) := by
  unfold enableQueue
  try dsimp only
  (repeat' split) <;> exact ⟨by simp [Stands], fun h => by simp +contextual (maxDischargeDepth := 60) [h]⟩

@[simp] theorem disableQueue_keeps (q : Nat) (s : State) : Keeps s (disableQueue q s) := by
  unfold disableQueue
  try dsimp only
  (repeat' split) <;> exact ⟨by simp [Stands], fun h => by simp +contextual (maxDischargeDepth := 60) [h]⟩

@[simp] theorem queueControl_keeps (v : Word32) (s : State) : Keeps s (queueControl v s) := by
  unfold queueControl
  try dsimp only
  (repeat' split) <;> exact ⟨by simp [Stands], fun h => by simp +contextual (maxDischargeDepth := 60) [h]⟩

@[simp] theorem syncRaise_keeps (n : Nat) (v : Word) (s : State) : Keeps s (syncRaise n v s) := by
  unfold syncRaise
  try dsimp only
  (repeat' split) <;> exact ⟨by simp [Stands], fun h => by simp +contextual (maxDischargeDepth := 60) [h]⟩

@[simp] theorem syncClear_keeps (n : Nat) (s : State) : Keeps s (syncClear n s) := by
  unfold syncClear
  try dsimp only
  (repeat' split) <;> exact ⟨by simp [Stands], fun h => by simp +contextual (maxDischargeDepth := 60) [h]⟩

@[simp] theorem setOwner_keeps (g : Nat) (v : Word32) (s : State) : Keeps s (setOwner g v s) := by
  unfold setOwner
  try dsimp only
  (repeat' split) <;> exact ⟨by simp [Stands], fun h => by simp +contextual (maxDischargeDepth := 60) [h]⟩

@[simp] theorem writeInvalVa_keeps (v : Word) (s : State) : Keeps s (writeInvalVa v s) := by
  unfold writeInvalVa
  try dsimp only
  (repeat' split) <;> exact ⟨by simp [Stands], fun h => by simp +contextual (maxDischargeDepth := 60) [h]⟩

@[simp] theorem writeInval_keeps (v : Word32) (s : State) : Keeps s (writeInval v s) := by
  unfold writeInval
  try dsimp only
  (repeat' split) <;> exact ⟨by simp [Stands], fun h => by simp +contextual (maxDischargeDepth := 60) [h]⟩

@[simp] theorem dropScope_keeps (x : Scope) (s : State) : Keeps s (dropScope x s) := by
  unfold dropScope
  try dsimp only
  (repeat' split) <;> exact ⟨by simp [Stands], fun h => by simp +contextual (maxDischargeDepth := 60) [h]⟩

@[simp] theorem endInval_keeps (s : State) : Keeps s (endInval s) := by
  unfold endInval
  try dsimp only
  (repeat' split) <;> exact ⟨by simp [Stands], fun h => by simp +contextual (maxDischargeDepth := 60) [h]⟩

@[simp] theorem writeMigHold_keeps (v : Word32) (s : State) : Keeps s (writeMigHold v s) := by
  unfold writeMigHold
  try dsimp only
  (repeat' split) <;> exact ⟨by simp [Stands], fun h => by simp +contextual (maxDischargeDepth := 60) [h]⟩

@[simp] theorem peerBack_keeps (n : Nat) (s : State) : Keeps s (peerBack n s) := by
  unfold peerBack
  try dsimp only
  (repeat' split) <;> exact ⟨by simp [Stands], fun h => by simp +contextual (maxDischargeDepth := 60) [h]⟩

@[simp] theorem writeRoute_keeps (n : Nat) (ports : BitVec 12) (s : State) : Keeps s (writeRoute n ports s) := by
  unfold writeRoute
  try dsimp only
  (repeat' split) <;> exact ⟨by simp [Stands], fun h => by simp +contextual (maxDischargeDepth := 60) [h]⟩

@[simp] theorem mailCommit_keeps (m : Nat) (poison : Bool) (s : State) : Keeps s (mailCommit m poison s) := by
  unfold mailCommit
  try dsimp only
  (repeat' split) <;> exact ⟨by simp [Stands], fun h => by simp +contextual (maxDischargeDepth := 60) [h]⟩

@[simp] theorem mailControl_keeps (m : Nat) (v : Word32) (s : State) : Keeps s (mailControl m v s) := by
  unfold mailControl
  try dsimp only
  (repeat' split) <;> exact ⟨by simp [Stands], fun h => by simp +contextual (maxDischargeDepth := 60) [h]⟩

@[simp] theorem logAer_keeps (e : Aer) (s : State) : Keeps s (logAer e s) := by
  unfold logAer
  try dsimp only
  (repeat' split) <;> exact ⟨by simp [Stands], fun h => by simp +contextual (maxDischargeDepth := 60) [h]⟩

@[simp] theorem badAccess_keeps (write : Bool) (off size : Nat) (s : State) : Keeps s (badAccess write off size s) := by
  unfold badAccess
  try dsimp only
  (repeat' split) <;> exact ⟨by simp [Stands], fun h => by simp +contextual (maxDischargeDepth := 60) [h]⟩

@[simp] theorem visited_keeps (q : Nat) (s : State) : Keeps s (visited q s) := by
  unfold visited
  try dsimp only
  (repeat' split) <;> exact ⟨by simp [Stands], fun h => by simp +contextual (maxDischargeDepth := 60) [h]⟩

@[simp] theorem refuseLaunch_keeps (ln : Launch) (h : Halt) (s : State) : Keeps s (refuseLaunch ln h s) := by
  unfold refuseLaunch
  try dsimp only
  (repeat' split) <;> exact ⟨by simp [Stands], fun h => by simp +contextual (maxDischargeDepth := 60) [h]⟩

@[simp] theorem addLaunch_keeps (q : Nat) (ln : Launch) (s : State) : Keeps s (addLaunch q ln s) := by
  unfold addLaunch
  try dsimp only
  (repeat' split) <;> exact ⟨by simp [Stands], fun h => by simp +contextual (maxDischargeDepth := 60) [h]⟩

@[simp] theorem admitFetched_keeps (ln : Launch) (s : State) : Keeps s (admitFetched ln s) := by
  unfold admitFetched
  try dsimp only
  (repeat' split) <;> exact ⟨by simp [Stands], fun h => by simp +contextual (maxDischargeDepth := 60) [h]⟩

@[simp] theorem fetchRecord_keeps (q : Nat) (s : State) : Keeps s (fetchRecord q s) := by
  unfold fetchRecord
  try dsimp only
  (repeat' split) <;> exact ⟨by simp [Stands], fun h => by simp +contextual (maxDischargeDepth := 60) [h]⟩

@[simp] theorem sendControl_keeps (dest kind tag : Nat) (items : List Byte) (s : State) :
    Keeps s (sendControl dest kind tag items s) := by
  unfold sendControl
  try dsimp only
  (repeat' split) <;> exact ⟨by simp [Stands], fun h => by simp +contextual (maxDischargeDepth := 60) [h]⟩

@[simp] theorem sendDigest_keeps (id seq sweep : Nat) (digest : List Byte) (s : State) :
    Keeps s (sendDigest id seq sweep digest s) := by
  unfold sendDigest
  try dsimp only
  (repeat' split) <;> exact ⟨by simp [Stands], fun h => by simp +contextual (maxDischargeDepth := 60) [h]⟩

@[simp] theorem comparePair_keeps (id : Nat) (s : State) : Keeps s (comparePair id s) := by
  unfold comparePair
  try dsimp only
  (repeat' split) <;> exact ⟨by simp [Stands], fun h => by simp +contextual (maxDischargeDepth := 60) [h]⟩

@[simp] theorem keepRoot_keeps (k : KeptRoot) (s : State) : Keeps s (keepRoot k s) := by
  unfold keepRoot
  try dsimp only
  (repeat' split) <;> exact ⟨by simp [Stands], fun h => by simp +contextual (maxDischargeDepth := 60) [h]⟩

@[simp] theorem keepOne_keeps (s : State) (program : Bool) (asid va n : Nat) : Keeps s (keepOne s program asid va n) := by
  unfold keepOne
  split
  · exact keepRoot_keeps _ _
  · split
    · exact keepRoot_keeps _ _
    · exact .refl s

@[simp] theorem keepRoots_keeps (ln : Launch) (d : DigestPart) (s : State) : Keeps s (keepRoots ln d s) := by
  unfold keepRoots
  exact (keepOne_keeps _ _ _ _ _).trans (.foldl _ _ _ (fun s r => keepOne_keeps s _ _ _ _))

@[simp] theorem setLaunch_keeps (ln : Launch) (s : State) : Keeps s (setLaunch ln s) := by
  unfold setLaunch
  try dsimp only
  (repeat' split) <;> exact ⟨by simp [Stands], fun h => by simp +contextual (maxDischargeDepth := 60) [h]⟩

@[simp] theorem bindClusters_keeps (ln : Launch) (progs : List CProg) (s : State) : Keeps s (bindClusters ln progs s) := by
  unfold bindClusters
  try dsimp only
  (repeat' split) <;> exact ⟨by simp [Stands], fun h => by simp +contextual (maxDischargeDepth := 60) [h]⟩

@[simp] theorem touchProgram_keeps (ln : Launch) (m : Program) (s : State) : Keeps s (touchProgram ln m s) := by
  unfold touchProgram
  try dsimp only
  (repeat' split) <;> exact ⟨by simp [Stands], fun h => by simp +contextual (maxDischargeDepth := 60) [h]⟩

@[simp] theorem startNow_keeps (ln : Launch) (s : State) : Keeps s (startNow ln s) := by
  unfold startNow
  try dsimp only
  (repeat' split) <;> exact ⟨by simp [Stands], fun h => by simp +contextual (maxDischargeDepth := 60) [h]⟩

@[simp] theorem armOrStart_keeps (ln : Launch) (s : State) : Keeps s (armOrStart ln s) := by
  unfold armOrStart
  try dsimp only
  (repeat' split) <;> exact ⟨by simp [Stands], fun h => by simp +contextual (maxDischargeDepth := 60) [h]⟩

@[simp] theorem decideStart_keeps (s : State) (ln : Launch) : Keeps s (decideStart s ln) := by
  unfold decideStart
  try dsimp only
  (repeat' split) <;> exact ⟨by simp [Stands], fun h => by simp +contextual (maxDischargeDepth := 60) [h]⟩

@[simp] theorem countLost_keeps (s : State) : Keeps s (countLost s) := by
  unfold countLost
  try dsimp only
  (repeat' split) <;> exact ⟨by simp [Stands], fun h => by simp +contextual (maxDischargeDepth := 60) [h]⟩

@[simp] theorem logRecord_keeps (e : EvRec) (s : State) : Keeps s (logRecord e s) := by
  unfold logRecord
  try dsimp only
  (repeat' split) <;> exact ⟨by simp [Stands], fun h => by simp +contextual (maxDischargeDepth := 60) [h]⟩

@[simp] theorem logOwn_keeps (kind detail : Nat) (s : State) : Keeps s (logOwn kind detail s) := by
  unfold logOwn
  try dsimp only
  (repeat' split) <;> exact ⟨by simp [Stands], fun h => by simp +contextual (maxDischargeDepth := 60) [h]⟩

@[simp] theorem State.setOp_keeps (s : State) (kind : Nat) (o : LongOp) : Keeps s (State.setOp s kind o) := by
  unfold State.setOp
  try dsimp only
  (repeat' split) <;> exact ⟨by simp [Stands], fun h => by simp +contextual (maxDischargeDepth := 60) [h]⟩

@[simp] theorem startOp_keeps (kind step : Nat) (s : State) : Keeps s (startOp kind step s) := by
  unfold startOp
  try dsimp only
  (repeat' split) <;> exact ⟨by simp [Stands], fun h => by simp +contextual (maxDischargeDepth := 60) [h]⟩

@[simp] theorem stepOp_keeps (kind step detail : Nat) (s : State) : Keeps s (stepOp kind step detail s) := by
  unfold stepOp
  try dsimp only
  (repeat' split) <;> exact ⟨by simp [Stands], fun h => by simp +contextual (maxDischargeDepth := 60) [h]⟩

@[simp] theorem endOp_keeps (kind : Nat) (ok : Bool) (detail : Nat) (s : State) : Keeps s (endOp kind ok detail s) := by
  unfold endOp
  try dsimp only
  (repeat' split) <;> exact ⟨by simp [Stands], fun h => by simp +contextual (maxDischargeDepth := 60) [h]⟩

@[simp] theorem endLink_keeps (ok : Bool) (detail : Nat) (s : State) : Keeps s (endLink ok detail s) := by
  unfold endLink
  try dsimp only
  (repeat' split) <;> exact ⟨by simp [Stands], fun h => by simp +contextual (maxDischargeDepth := 60) [h]⟩

@[simp] theorem stopNaming_keeps (c st : Nat) (s : State) : Keeps s (stopNaming c st s) := by
  unfold stopNaming
  try dsimp only
  (repeat' split) <;> exact ⟨by simp [Stands], fun h => by simp +contextual (maxDischargeDepth := 60) [h]⟩

@[simp] theorem outOfService_keeps (c : Nat) (s : State) : Keeps s (outOfService c s) := by
  unfold outOfService
  try dsimp only
  (repeat' split) <;> exact ⟨by simp [Stands], fun h => by simp +contextual (maxDischargeDepth := 60) [h]⟩

@[simp] theorem markChanged_keeps (s : State) : Keeps s (markChanged s) := by
  unfold markChanged
  try dsimp only
  (repeat' split) <;> exact ⟨by simp [Stands], fun h => by simp +contextual (maxDischargeDepth := 60) [h]⟩

@[simp] theorem setHandover_keeps (c : Option Nat) (s : State) : Keeps s (setHandover c s) := by
  unfold setHandover
  try dsimp only
  (repeat' split) <;> exact ⟨by simp [Stands], fun h => by simp +contextual (maxDischargeDepth := 60) [h]⟩

@[simp] theorem sendHandover_keeps (c : Nat) (s : State) : Keeps s (sendHandover c s) := by
  unfold sendHandover
  try dsimp only
  (repeat' split) <;> exact ⟨by simp [Stands], fun h => by simp +contextual (maxDischargeDepth := 60) [h]⟩

@[simp] theorem modView_keeps (f : View → View) (s : State) : Keeps s (modView f s) := by
  unfold modView
  try dsimp only
  (repeat' split) <;> exact ⟨by simp [Stands], fun h => by simp +contextual (maxDischargeDepth := 60) [h]⟩

@[simp] theorem modCluView_keeps (c : Nat) (f : CluView → CluView) (s : State) : Keeps s (modCluView c f s) := by
  unfold modCluView
  try dsimp only
  (repeat' split) <;> exact ⟨by simp [Stands], fun h => by simp +contextual (maxDischargeDepth := 60) [h]⟩

@[simp] theorem answerOrder_keeps (c result : Nat) (r : Option Reply) (s : State) : Keeps s (answerOrder c result r s) := by
  unfold answerOrder
  try dsimp only
  (repeat' split) <;> exact ⟨by simp [Stands], fun h => by simp +contextual (maxDischargeDepth := 60) [h]⟩

@[simp] theorem snapshotFifos_keeps (s : State) (u : Nat) : Keeps s (snapshotFifos s u) := by
  unfold snapshotFifos
  try dsimp only
  (repeat' split) <;> exact ⟨by simp [Stands], fun h => by simp +contextual (maxDischargeDepth := 60) [h]⟩

@[simp] theorem snapshotCluster_keeps (s : State) (c : Nat) : Keeps s (snapshotCluster s c) := by
  unfold snapshotCluster
  try dsimp only
  (repeat' split) <;> exact ⟨by simp [Stands], fun h => by simp +contextual (maxDischargeDepth := 60) [h]⟩

@[simp] theorem snapshotGdc_keeps (s : State) (q : Nat) : Keeps s (snapshotGdc s q) := by
  unfold snapshotGdc
  try dsimp only
  (repeat' split) <;> exact ⟨by simp [Stands], fun h => by simp +contextual (maxDischargeDepth := 60) [h]⟩

@[simp] theorem takeSnapshot_keeps (s : State) : Keeps s (takeSnapshot s) := by
  unfold takeSnapshot
  try dsimp only
  (repeat' split) <;> exact ⟨by simp [Stands], fun h => by simp +contextual (maxDischargeDepth := 60) [h]⟩

@[simp] theorem pushPort_keeps (n : Nat) (ps : List Pkt) (s : State) : Keeps s (pushPort n ps s) := by
  unfold pushPort
  try dsimp only
  (repeat' split) <;> exact ⟨by simp [Stands], fun h => by simp +contextual (maxDischargeDepth := 60) [h]⟩

@[simp] theorem answerRequest_keeps (port : Nat) (k : Pkt) (data : List Tagged) (s : State) :
    Keeps s (answerRequest port k data s) := by
  unfold answerRequest
  try dsimp only
  (repeat' split) <;> exact ⟨by simp [Stands], fun h => by simp +contextual (maxDischargeDepth := 60) [h]⟩

@[simp] theorem performLine_keeps (k : Pkt) (i : Nat) (s : State) : Keeps s (performLine k i s).1 := by
  unfold performLine
  dsimp only
  split
  · exact noteDelivered_keeps _ _ _
  · exact physWrite_keeps _ _ _

@[simp] theorem performLines_keeps (k : Pkt) (s : State) : Keeps s (performLines k s).1 := by
  unfold performLines
  refine foldl_keeps (fun x : State × List Tagged => Keeps s x.1) _ ?_ _ (s, []) (.refl s)
  exact fun x i hx => hx.trans (performLine_keeps k i x.1)

@[simp] theorem serveCrossbar_keeps (c : Nat) (k : Pkt) (s : State) : Keeps s (serveCrossbar c k s) := by
  exact (performLines_keeps k s).trans (answerRequest_keeps _ _ _ _)

@[simp] theorem State.setArbiter_keeps (s : State) (q : Nat) (a : Arbiter) : Keeps s (State.setArbiter s q a) := by
  unfold State.setArbiter
  try dsimp only
  (repeat' split) <;> exact ⟨by simp [Stands], fun h => by simp +contextual (maxDischargeDepth := 60) [h]⟩

@[simp] theorem grantLine_keeps (q port : Nat) (s : State) : Keeps s (grantLine q port s) := by
  unfold grantLine
  dsimp only
  split
  · exact .refl s
  · split
    · exact ((performLine_keeps _ _ _).trans (State.setArbiter_keeps _ _ _)).trans (answerRequest_keeps _ _ _ _)
    · exact (performLine_keeps _ _ _).trans (State.setArbiter_keeps _ _ _)

@[simp] theorem pumpCxl_keeps (d n : Nat) (s : State) : Keeps s (pumpCxl d n s) := by
  induction n generalizing s with
  | zero => exact .refl s
  | succ n ih =>
    unfold pumpCxl
    split
    · exact .refl s
    · split
      · exact (grantLine_keeps _ _ _).trans (ih _)
      · exact .refl s

@[simp] theorem pumpCxlPort_keeps (d : Nat) (s : State) : Keeps s (pumpCxlPort d s) := by
  exact pumpCxl_keeps _ _ _

@[simp] theorem grantSilk_keeps (p : Nat) (s : State) : Keeps s (grantSilk p s) := by
  unfold grantSilk
  try dsimp only
  (repeat' split) <;> exact ⟨by simp [Stands], fun h => by simp +contextual (maxDischargeDepth := 60) [h]⟩

@[simp] theorem pumpEgress_keeps (p n : Nat) (s : State) : Keeps s (pumpEgress p n s) := by
  induction n generalizing s with
  | zero => exact .refl s
  | succ n ih =>
    unfold pumpEgress
    split
    · exact (grantSilk_keeps _ _).trans (ih _)
    · exact .refl s

@[simp] theorem pumpSilkPort_keeps (p : Nat) (s : State) : Keeps s (pumpSilkPort p s) := by
  exact pumpEgress_keeps _ _ _

@[simp] theorem deliverBytes_keeps (s : State) (c p : Nat) (ps : List (Nat × Nat)) (data : List Tagged) :
    Keeps s (deliverBytes s c p ps data) := by
  refine ⟨?_, Mem.wf_deliverBytes s c p ps data⟩
  unfold deliverBytes
  refine foldl_keeps (fun x : State × List Tagged => Stands s x.1) _ ?_ ps (s, data) (.refl s)
  intro acc q hq
  dsimp only
  split
  · exact hq.trans (coreWrite_keeps _ _ _ _ _).1
  · exact hq

@[simp] theorem closeSent_keeps (c l num : Nat) (s : State) : Keeps s (closeSent c l num s) := by
  unfold closeSent
  try dsimp only
  (repeat' split) <;> exact ⟨by simp [Stands], fun h => by simp +contextual (maxDischargeDepth := 60) [h]⟩

@[simp] theorem landResponse_keeps (c p : Nat) (k : Pkt) (s : State) : Keeps s (landResponse c p k s) := by
  unfold landResponse
  try dsimp only
  (repeat' split) <;> exact ⟨by simp [Stands], fun h => by simp +contextual (maxDischargeDepth := 60) [h]⟩

@[simp] theorem landAck_keeps (c : Nat) (k : Pkt) (s : State) : Keeps s (landAck c k s) := by
  unfold landAck
  try dsimp only
  (repeat' split) <;> exact ⟨by simp [Stands], fun h => by simp +contextual (maxDischargeDepth := 60) [h]⟩

@[simp] theorem deliverCore_keeps (s : State) (c p : Nat) (k : Pkt) : Keeps s (deliverCore s c p k) := by
  unfold deliverCore
  try dsimp only
  (repeat' split) <;> exact ⟨by simp [Stands], fun h => by simp +contextual (maxDischargeDepth := 60) [h]⟩

@[simp] theorem countRetries_keeps (n : Nat) (s : State) : Keeps s (countRetries n s) := by
  unfold countRetries
  try dsimp only
  (repeat' split) <;> exact ⟨by simp [Stands], fun h => by simp +contextual (maxDischargeDepth := 60) [h]⟩

@[simp] theorem grantBurst_keeps (a : Nat) (write : Bool) (s : State) : Keeps s (grantBurst a write s) := by
  unfold grantBurst
  try dsimp only
  (repeat' split) <;> exact ⟨by simp [Stands], fun h => by simp +contextual (maxDischargeDepth := 60) [h]⟩

@[simp] theorem setBurst_keeps (a : Nat) (poison : Bool) (s : State) : Keeps s (setBurst a poison s) := by
  unfold setBurst
  split <;> exact ⟨.refl s, fun h => h⟩

@[simp] theorem crcRetries_keeps (fails : Nat) (a : Nat) (s : State) : Keeps s (crcRetries fails a s) := by
  unfold crcRetries
  try dsimp only
  (repeat' split) <;> exact ⟨by simp [Stands], fun h => by simp +contextual (maxDischargeDepth := 60) [h]⟩

@[simp] theorem exhausted_keeps (a : Nat) (write : Bool) (s : State) : Keeps s (exhausted a write s) := by
  unfold exhausted
  dsimp only
  refine (gdcEvent_keeps (controllerOf a) 0 s).trans ?_
  generalize gdcEvent (controllerOf a) 0 s = t
  split
  · exact ⟨.refl t, fun h => h⟩
  · split
    · exact ⟨.refl t, fun h => h⟩
    · exact setBurst_keeps _ _ _

@[simp] theorem readBurst_keeps (a ecc : Nat) (s : State) : Keeps s (readBurst a ecc s) := by
  unfold readBurst
  try dsimp only
  (repeat' split) <;> exact ⟨by simp [Stands], fun h => by simp +contextual (maxDischargeDepth := 60) [h]⟩

@[simp] theorem burst_keeps (addr : Nat) (write : Bool) (crcFails ecc : Nat) (s : State) :
    Keeps s (burst addr write crcFails ecc s) := by
  unfold burst
  try dsimp only
  (repeat' split) <;> exact ⟨by simp [Stands], fun h => by simp +contextual (maxDischargeDepth := 60) [h]⟩

@[simp] theorem grantResponse_keeps (port a : Nat) (s : State) : Keeps s (grantResponse port a s) := by
  unfold grantResponse
  try dsimp only
  (repeat' split) <;> exact ⟨by simp [Stands], fun h => by simp +contextual (maxDischargeDepth := 60) [h]⟩

@[simp] theorem linkDown_keeps (s : State) : Keeps s (linkDown s) := by
  unfold linkDown
  try dsimp only
  (repeat' split) <;> exact ⟨by simp [Stands], fun h => by simp +contextual (maxDischargeDepth := 60) [h]⟩

@[simp] theorem setLaser_keeps (e : Nat) (ok : Bool) (s : State) : Keeps s (setLaser e ok s) := by
  unfold setLaser
  try dsimp only
  (repeat' split) <;> exact ⟨by simp [Stands], fun h => by simp +contextual (maxDischargeDepth := 60) [h]⟩

@[simp] theorem darkPort_keeps (e : Nat) (s : State) : Keeps s (darkPort e s) := by
  unfold darkPort
  exact Keeps.foldl _ _ s (fun s p => by
    dsimp only
    split
    · exact State.setPort_keeps _ _ _
    · exact .refl s)

@[simp] theorem dropTxn_keeps (t : Txn) (s : State) : Keeps s (dropTxn t s) := by
  unfold dropTxn
  try dsimp only
  (repeat' split) <;> exact ⟨by simp [Stands], fun h => by simp +contextual (maxDischargeDepth := 60) [h]⟩

@[simp] theorem closeTxn_keeps (t : Txn) (s : State) : Keeps s (closeTxn t s) := by
  unfold closeTxn
  try dsimp only
  (repeat' split) <;> exact ⟨by simp [Stands], fun h => by simp +contextual (maxDischargeDepth := 60) [h]⟩

@[simp] theorem afterTxn_keeps (t : Txn) (s : State) : Keeps s (afterTxn t s) := by
  unfold afterTxn
  try dsimp only
  (repeat' split) <;> exact ⟨by simp [Stands], fun h => by simp +contextual (maxDischargeDepth := 60) [h]⟩

@[simp] theorem failTxn_keeps (t : Txn) (s : State) : Keeps s (failTxn t s) := by
  unfold failTxn
  try dsimp only
  (repeat' split) <;> exact ⟨by simp [Stands], fun h => by simp +contextual (maxDischargeDepth := 60) [h]⟩

@[simp] theorem unstrike_keeps (n : Nat) (s : State) : Keeps s (unstrike n s) := Keeps.silk s _

@[simp] theorem failPort_keeps (p : Nat) (s : State) : Keeps s (failPort p s) := by
  unfold failPort
  try dsimp only
  (repeat' split) <;> exact ⟨by simp [Stands], fun h => by simp +contextual (maxDischargeDepth := 60) [h]⟩

@[simp] theorem declareLost_keeps (n p : Nat) (s : State) : Keeps s (declareLost n p s) := by
  unfold declareLost
  exact ((Keeps.silk s _).trans (silkEvent_keeps _ _)).trans (logEvent_keeps _ _ _ _ _)

@[simp] theorem peersBack_keeps (p : Nat) (s : State) : Keeps s (peersBack p s) := by
  unfold peersBack
  exact Keeps.foldl _ _ s (fun s n => by
    split
    · exact peerBack_keeps _ _
    · exact .refl s)

@[simp] theorem portCount_keeps (p : Nat) (get : Port → Counter) (put : Port → Counter → Port) (off : Nat) (s : State) :
    Keeps s (portCount p get put off s) := by
  unfold portCount
  try dsimp only
  (repeat' split) <;> exact ⟨by simp [Stands], fun h => by simp +contextual (maxDischargeDepth := 60) [h]⟩

@[simp] theorem leaveUp_keeps (p : Nat) (s : State) : Keeps s (leaveUp p s) := by
  unfold leaveUp
  try dsimp only
  (repeat' split) <;> exact ⟨by simp [Stands], fun h => by simp +contextual (maxDischargeDepth := 60) [h]⟩

@[simp] theorem resend_keeps (p : Nat) (s : State) : Keeps s (resend p s) := by
  unfold resend
  try dsimp only
  (repeat' split) <;> exact ⟨by simp [Stands], fun h => by simp +contextual (maxDischargeDepth := 60) [h]⟩

@[simp] theorem replay_keeps (p : Nat) (s : State) : Keeps s (replay p s) := by
  unfold replay
  try dsimp only
  (repeat' split) <;> exact ⟨by simp [Stands], fun h => by simp +contextual (maxDischargeDepth := 60) [h]⟩

@[simp] theorem discardFrame_keeps (p : Nat) (f : Frame) (s : State) : Keeps s (discardFrame p f s) := by
  unfold discardFrame
  try dsimp only
  (repeat' split) <;> exact ⟨by simp [Stands], fun h => by simp +contextual (maxDischargeDepth := 60) [h]⟩

@[simp] theorem takeLinkFields_keeps (p : Nat) (f : Frame) (s : State) : Keeps s (takeLinkFields p f s) := by
  unfold takeLinkFields
  try dsimp only
  (repeat' split) <;> exact ⟨by simp [Stands], fun h => by simp +contextual (maxDischargeDepth := 60) [h]⟩

@[simp] theorem freshPort_keeps (p : Nat) (partnerEpoch : BitVec 32) (s : State) : Keeps s (freshPort p partnerEpoch s) := by
  unfold freshPort
  try dsimp only
  (repeat' split) <;> exact ⟨by simp [Stands], fun h => by simp +contextual (maxDischargeDepth := 60) [h]⟩

@[simp] theorem resumeFrom_keeps (p : Nat) (ack : BitVec 16) (s : State) : Keeps s (resumeFrom p ack s) := by
  unfold resumeFrom
  try dsimp only
  (repeat' split) <;> exact ⟨by simp [Stands], fun h => by simp +contextual (maxDischargeDepth := 60) [h]⟩

@[simp] theorem endResume_keeps (p : Nat) (f : Frame) (s : State) : Keeps s (endResume p f s) := by
  unfold endResume
  try dsimp only
  (repeat' split) <;> exact ⟨by simp [Stands], fun h => by simp +contextual (maxDischargeDepth := 60) [h]⟩

@[simp] theorem linkFrame_keeps (p : Nat) (f : Frame) (s : State) : Keeps s (linkFrame p f s) := by
  unfold linkFrame
  try dsimp only
  (repeat' split) <;> exact ⟨by simp [Stands], fun h => by simp +contextual (maxDischargeDepth := 60) [h]⟩

@[simp] theorem receiveFrame_keeps (p : Nat) (f : Frame) (s : State) : Keeps s (receiveFrame p f s) := by
  unfold receiveFrame
  try dsimp only
  (repeat' split) <;> exact ⟨by simp [Stands], fun h => by simp +contextual (maxDischargeDepth := 60) [h]⟩

@[simp] theorem resumePort_keeps (p : Nat) (ack : BitVec 16) (s : State) : Keeps s (resumePort p ack s) := by
  unfold resumePort
  try dsimp only
  (repeat' split) <;> exact ⟨by simp [Stands], fun h => by simp +contextual (maxDischargeDepth := 60) [h]⟩

@[simp] theorem trainPort_keeps (p : Nat) (lanes : Lanes) (partnerEpoch : BitVec 32) (ack : BitVec 16) (partner : Option Nat) (s : State) :
    Keeps s (trainPort p lanes partnerEpoch ack partner s) := by
  unfold trainPort
  try dsimp only
  (repeat' split) <;> exact ⟨by simp [Stands], fun h => by simp +contextual (maxDischargeDepth := 60) [h]⟩

@[simp] theorem losePeers_keeps (p : Nat) (s : State) : Keeps s (losePeers p s) := by
  unfold losePeers
  try dsimp only
  (repeat' split) <;> exact ⟨by simp [Stands], fun h => by simp +contextual (maxDischargeDepth := 60) [h]⟩

@[simp] theorem portDone_keeps (p : Nat) (ok : Bool) (s : State) : Keeps s (portDone p ok s) := by
  unfold portDone
  try dsimp only
  (repeat' split) <;> exact ⟨by simp [Stands], fun h => by simp +contextual (maxDischargeDepth := 60) [h]⟩

@[simp] theorem endPortOp_keeps (p : Nat) (s : State) : Keeps s (endPortOp p s) := by
  unfold endPortOp
  try dsimp only
  (repeat' split) <;> exact ⟨by simp [Stands], fun h => by simp +contextual (maxDischargeDepth := 60) [h]⟩

@[simp] theorem goDown_keeps (p : Nat) (s : State) : Keeps s (goDown p s) := by
  unfold goDown
  try dsimp only
  (repeat' split) <;> exact ⟨by simp [Stands], fun h => by simp +contextual (maxDischargeDepth := 60) [h]⟩

@[simp] theorem halfWidth_keeps (p lane : Nat) (s : State) : Keeps s (halfWidth p lane s) := by
  unfold halfWidth
  try dsimp only
  (repeat' split) <;> exact ⟨by simp [Stands], fun h => by simp +contextual (maxDischargeDepth := 60) [h]⟩

@[simp] theorem stopFrames_keeps (p e : Nat) (s : State) : Keeps s (stopFrames p e s) := by
  unfold stopFrames
  try dsimp only
  (repeat' split) <;> exact ⟨by simp [Stands], fun h => by simp +contextual (maxDischargeDepth := 60) [h]⟩

@[simp] theorem resumeOn_keeps (p e : Nat) (s : State) : Keeps s (resumeOn p e s) := by
  unfold resumeOn
  try dsimp only
  (repeat' split) <;> exact ⟨by simp [Stands], fun h => by simp +contextual (maxDischargeDepth := 60) [h]⟩

@[simp] theorem linkDone_keeps (p : Nat) (ok : Bool) (s : State) : Keeps s (linkDone p ok s) := by
  unfold linkDone
  try dsimp only
  (repeat' split) <;> exact ⟨by simp [Stands], fun h => by simp +contextual (maxDischargeDepth := 60) [h]⟩

@[simp] theorem endHostMove_keeps (done : Bool) (carrier : Nat) (s : State) : Keeps s (endHostMove done carrier s) := by
  unfold endHostMove
  try dsimp only
  (repeat' split) <;> exact ⟨by simp [Stands], fun h => by simp +contextual (maxDischargeDepth := 60) [h]⟩

@[simp] theorem countReject_keeps (s : State) : Keeps s (countReject s) := by
  unfold countReject
  try dsimp only
  (repeat' split) <;> exact ⟨by simp [Stands], fun h => by simp +contextual (maxDischargeDepth := 60) [h]⟩

@[simp] theorem rejected_keeps (id : Nat) (s : State) : Keeps s (rejected id s) := by
  unfold rejected
  try dsimp only
  (repeat' split) <;> exact ⟨by simp [Stands], fun h => by simp +contextual (maxDischargeDepth := 60) [h]⟩

@[simp] theorem setGroup_keeps (id : Nat) (g : Group) (s : State) : Keeps s (setGroup id g s) := by
  unfold setGroup
  try dsimp only
  (repeat' split) <;> exact ⟨by simp [Stands], fun h => by simp +contextual (maxDischargeDepth := 60) [h]⟩

@[simp] theorem releaseBarred_keeps (ln : Launch) (s : State) : Keeps s (releaseBarred ln s) := by
  unfold releaseBarred
  split
  · exact .refl s
  · exact Keeps.foldl _ _ s (fun s c => by
      split
      · exact State.modCluster_keeps _ _ _
      · exact .refl s)

@[simp] theorem endBarrier_keeps (ln : Launch) (g : Group) (minS : Nat) (s : State) : Keeps s (endBarrier ln g minS s) := by
  unfold endBarrier
  try dsimp only
  (repeat' split) <;> exact ⟨by simp [Stands], fun h => by simp +contextual (maxDischargeDepth := 60) [h]⟩

@[simp] theorem barrierWord_keeps (ln : Launch) (g : Group) (v : Nat) (s : State) : Keeps s (barrierWord ln g v s) := by
  unfold barrierWord
  try dsimp only
  (repeat' split) <;> exact ⟨by simp [Stands], fun h => by simp +contextual (maxDischargeDepth := 60) [h]⟩

@[simp] theorem barrierAnswer_keeps (id v : Nat) (poison : Bool) (s : State) : Keeps s (barrierAnswer id v poison s) := by
  unfold barrierAnswer
  try dsimp only
  (repeat' split) <;> exact ⟨by simp [Stands], fun h => by simp +contextual (maxDischargeDepth := 60) [h]⟩

@[simp] theorem performAtomic_keeps (kind addr : Nat) (a b : Word) (s : State) : Keeps s (performAtomic kind addr a b s) := by
  unfold performAtomic
  try dsimp only
  (repeat' split) <;> exact ⟨by simp [Stands], fun h => by simp +contextual (maxDischargeDepth := 60) [h]⟩

@[simp] theorem barrierLocal_keeps (id : Nat) (t : Txn) (s : State) : Keeps s (barrierLocal id t s) := by
  unfold barrierLocal
  try dsimp only
  (repeat' split) <;> exact ⟨by simp [Stands], fun h => by simp +contextual (maxDischargeDepth := 60) [h]⟩

@[simp] theorem barrierAsk_keeps (ln : Launch) (g : Group) (s : State) : Keeps s (barrierAsk ln g s) := by
  unfold barrierAsk
  dsimp only
  (repeat' split) <;> first
    | exact barrierLocal_keeps _ _ _
    | exact stopLaunch_keeps _ _ _
    | (rename_i h; exact (issueTxn_keeps h).trans (setGroup_keeps _ _ _))

@[simp] theorem failLoad_keeps (id n code off : Nat) (s : State) : Keeps s (failLoad id n code off s) := by
  unfold failLoad
  try dsimp only
  (repeat' split) <;> exact ⟨by simp [Stands], fun h => by simp +contextual (maxDischargeDepth := 60) [h]⟩

@[simp] theorem loadShakes_keeps (c : Nat) (ln : Launch) (o : OpWord) (last : Bool) (s : State) :
    Keeps s (loadShakes c ln o last s) := by
  unfold loadShakes
  try dsimp only
  (repeat' split) <;> exact ⟨by simp [Stands], fun h => by simp +contextual (maxDischargeDepth := 60) [h]⟩

@[simp] theorem stopLoad_keeps (c n : Nat) (ln : Launch) (o : OpWord) (h : Halt) (s : State) :
    Keeps s (stopLoad c n ln o h s) := by
  unfold stopLoad
  try dsimp only
  (repeat' split) <;> exact ⟨by simp [Stands], fun h => by simp +contextual (maxDischargeDepth := 60) [h]⟩

@[simp] theorem readMiB_keeps (c asid va i : Nat) (rs : List (Nat × Nat)) (s : State) : Keeps s (readMiB c asid va i rs s) := by
  unfold readMiB
  try dsimp only
  (repeat' split) <;> exact ⟨by simp [Stands], fun h => by simp +contextual (maxDischargeDepth := 60) [h]⟩

@[simp] theorem directoryStep_keeps (c n : Nat) (ln : Launch) (job : LoadJob) (s : State) :
    Keeps s (directoryStep c n ln job s).1 := by
  unfold directoryStep
  dsimp only
  split
  · exact .refl s
  · exact (Keeps.loads s _).trans (touchAll_keeps _ _ _ _ _)

@[simp] theorem quantiseStep_keeps (c n : Nat) (ln : Launch) (job : LoadJob) (i : Nat) (s : State) :
    Keeps s (quantiseStep c n ln job i s).1 := by
  unfold quantiseStep
  dsimp only
  split
  · exact .refl s
  · rename_i h
    obtain ⟨_, -, h⟩ := bind_ok h
    obtain ⟨_, -, h⟩ := bind_ok h
    obtain ⟨u, hu, h⟩ := bind_ok h
    cases h
    split
    · exact (writeAll_keeps hu).trans (drawn_keeps _ _)
    · exact (writeAll_keeps hu).trans (readMiB_keeps _ _ _ _ _ _)

@[simp] theorem packedStep_keeps (c n : Nat) (ln : Launch) (job : LoadJob) (i : Nat) (s : State) :
    Keeps s (packedStep c n ln job i s).1 := by
  unfold packedStep
  dsimp only
  split
  · exact .refl s
  · exact readMiB_keeps _ _ _ _ _ _

@[simp] theorem contentStep_keeps (c n : Nat) (ln : Launch) (s : State) : Keeps s (contentStep c n ln s).1 := by
  unfold contentStep
  dsimp only
  split
  · exact .refl s
  · exact touchAll_keeps _ _ _ _ _

@[simp] theorem rootStep_keeps (c n : Nat) (ln : Launch) (job : LoadJob) (i : Nat) (s : State) :
    Keeps s (rootStep c n ln job i s).1 := by
  unfold rootStep
  dsimp only
  split
  · exact .refl s
  · split
    · exact (readMiB_keeps _ _ _ _ _ s).trans ((Keeps.loads _ _).trans (State.setCtx_keeps _ _ _))
    · exact readMiB_keeps _ _ _ _ _ s

@[simp] theorem loadWork_keeps (c n : Nat) (ln : Launch) (job : LoadJob) (s : State) : Keeps s (loadWork c n ln job s).1 := by
  unfold loadWork
  dsimp only
  split
  · exact directoryStep_keeps _ _ _ _ _
  · split
    · exact quantiseStep_keeps _ _ _ _ _ _
    · split
      · exact packedStep_keeps _ _ _ _ _ _
      · split
        · exact contentStep_keeps _ _ _ _
        · exact rootStep_keeps _ _ _ _ _ _

@[simp] theorem loadStepDone_keeps (c n : Nat) (ln : Launch) (o : OpWord) (s : State) : Keeps s (loadStepDone c n ln o s) := by
  unfold loadStepDone
  try dsimp only
  (repeat' split) <;> exact ⟨by simp [Stands], fun h => by simp +contextual (maxDischargeDepth := 60) [h]⟩

@[simp] theorem nextLoadStep_keeps (c n : Nat) (ln : Launch) (o : OpWord) (job : LoadJob) (s : State) :
    Keeps s (nextLoadStep c n ln o job s) := by
  unfold nextLoadStep
  have h := loadWork_keeps c n ln job s
  split
  · rename_i hw
    rw [hw] at h
    exact h.trans (stopLoad_keeps _ _ _ _ _ _)
  · rename_i hw
    rw [hw] at h
    exact h.trans (loadStepDone_keeps _ _ _ _ _)

@[simp] theorem firstLoadStep_keeps (c : Nat) (ln : Launch) (o : OpWord) (r : LoadRecord) (reload : Bool) (s : State) :
    Keeps s (firstLoadStep c ln o r reload s) := by
  unfold firstLoadStep
  split
  · exact controlPoison_keeps _ _ _
  · exact haltLaunch_keeps _ _ _ _ _
  · dsimp only
    split
    · rename_i hw
      split
      · exact .refl s
      · have h := loadWork_keeps c r.context ln { launch := ln.id, reload := reload, sections := r.sections }
          (({ s with loads := mapSet s.loads r.context { launch := ln.id, reload := reload, sections := r.sections } } : State).setCtx
            r.context ((s.ctx r.context).loading ln.asid r))
        rw [hw] at h
        exact (((Keeps.loads s _).trans (State.setCtx_keeps _ _ _)).trans h).trans (stopLoad_keeps _ _ _ _ _ _)
    · rename_i hw
      have h := loadWork_keeps c r.context ln { launch := ln.id, reload := reload, sections := r.sections }
        (({ s with loads := mapSet s.loads r.context { launch := ln.id, reload := reload, sections := r.sections } } : State).setCtx
          r.context ((s.ctx r.context).loading ln.asid r))
      rw [hw] at h
      exact (((Keeps.loads s _).trans (State.setCtx_keeps _ _ _)).trans h).trans (loadStepDone_keeps _ _ _ _ _)

theorem loadStep_keeps {c : Nat} {ln : Launch} {o : OpWord} {s t : State} (h : loadStep c ln o s = .ok t) : Keeps s t := by
  obtain ⟨b, -, h⟩ := bind_ok h
  cases h
  split
  · exact nextLoadStep_keeps _ _ _ _ _ _
  · exact firstLoadStep_keeps _ _ _ _ _ _

@[simp] theorem annealCore_keeps (id worst : Nat) (s : State) (core : Nat) : Keeps s (annealCore id worst s core) := by
  unfold annealCore
  try dsimp only
  (repeat' split) <;> exact ⟨by simp [Stands], fun h => by simp +contextual (maxDischargeDepth := 60) [h]⟩

@[simp] theorem annealWork_keeps (ln : Launch) (r : Run) (m : Problem) (step : AnnealStep) (s : State) :
    Keeps s (annealWork ln r m step s) := by
  unfold annealWork
  try dsimp only
  (repeat' split) <;> exact ⟨by simp [Stands], fun h => by simp +contextual (maxDischargeDepth := 60) [h]⟩

@[simp] theorem annealDone_keeps (ln : Launch) (r : Run) (m : Problem) (s : State) : Keeps s (annealDone ln r m s) := by
  unfold annealDone
  try dsimp only
  (repeat' split) <;> exact ⟨by simp [Stands], fun h => by simp +contextual (maxDischargeDepth := 60) [h]⟩

@[simp] theorem setRunning_keeps (n : Nat) (ckpt : Nat) (id : Nat) (hash : List Byte) (s : State) :
    Keeps s (setRunning n ckpt id hash s) := by
  unfold setRunning
  try dsimp only
  (repeat' split) <;> exact ⟨by simp [Stands], fun h => by simp +contextual (maxDischargeDepth := 60) [h]⟩

theorem beginRun_keeps {n : Nat} {r : Run} {s t : State} (h : beginRun n r s = .ok t) : Keeps s t := by
  unfold beginRun at h
  dsimp only at h
  obtain ⟨_, -, h⟩ := bind_ok h
  obtain ⟨_, -, h⟩ := bind_ok h
  obtain ⟨_, -, h⟩ := bind_ok h
  obtain ⟨_, -, h⟩ := bind_ok h
  obtain ⟨_, -, h⟩ := bind_ok h
  obtain ⟨_, -, h⟩ := bind_ok h
  obtain ⟨u, hu, h⟩ := bind_ok h
  cases h
  exact ((touchAll_keeps _ _ _ _ _).trans (writeAll_keeps hu)).trans
    (((noteSeed_keeps _ _ _ _).trans (setRunning_keeps _ _ _ _ _)).trans (State.setRun_keeps _ _ _))

theorem energyEntry_keeps {n k : Nat} {ln : Launch} {r : Run} {s t : State} (h : energyEntry n k ln r s = .ok t) :
    Keeps s t := by
  unfold energyEntry at h
  dsimp only at h
  obtain ⟨_, -, h⟩ := bind_ok h
  obtain ⟨_, -, h⟩ := bind_ok h
  obtain ⟨u, hu, h⟩ := bind_ok h
  cases h
  exact ((touchAll_keeps _ _ _ _ _).trans (writeAll_keeps hu)).trans
    ((State.setRun_keeps _ _ _).trans (annealWork_keeps _ _ _ _ _))

theorem stageEntry_keeps {n : Nat} {m : Problem} {r : Run} {s t : State} {rho : Nat}
    (h : stageEntry n m r s rho = .ok t) : Keeps s t := by
  obtain ⟨_, -, h⟩ := bind_ok h
  exact (touchAll_keeps _ _ _ _ _).trans (writeAll_keeps h)

theorem stageEntries_keeps {n : Nat} {m : Problem} {r : Run} {rs : List Nat} {s t : State}
    (h : stageEntries n m r rs s = .ok t) : Keeps s t := by
  induction rs generalizing s with
  | nil => cases h; exact .refl _
  | cons x xs ih =>
    unfold stageEntries at h
    split at h
    · cases h
    · rename_i hu
      exact (stageEntry_keeps hu).trans (ih h)

theorem resumeRun_keeps {n : Nat} {ln : Launch} {r : Run} {m : Problem} {s t : State} (h : resumeRun n ln r m s = .ok t) :
    Keeps s t := by
  unfold resumeRun at h
  dsimp only at h
  obtain ⟨_, -, h⟩ := bind_ok h
  obtain ⟨_, -, h⟩ := bind_ok h
  obtain ⟨_, -, h⟩ := bind_ok h
  obtain ⟨_, -, h⟩ := bind_ok h
  split at h <;>
  · obtain ⟨u, hu, h⟩ := bind_ok h
    obtain ⟨v, hv, h⟩ := bind_ok h
    have h1 : Keeps s v := by
      refine Keeps.trans ?_ (writeAll_keeps hv)
      first
        | exact (touchAll_keeps _ _ _ _ _).trans (writeVa_keeps hu)
        | (cases hu; exact touchAll_keeps _ _ _ _ _)
    split at h <;>
    · obtain ⟨w, hw, h⟩ := bind_ok h
      cases h
      have h2 : Keeps v w := by first | exact stageEntries_keeps hw | (cases hw; exact .refl _)
      exact (h1.trans h2).trans
        ((((noteSeed_keeps _ _ _ _).trans (setRunning_keeps _ _ _ _ _)).trans (State.setRun_keeps _ _ _)).trans
          (annealWork_keeps _ _ _ _ _))

@[simp] theorem markRan_keeps (id : Nat) (s : State) : Keeps s (markRan id s) := by
  unfold markRan
  try dsimp only
  (repeat' split) <;> exact ⟨by simp [Stands], fun h => by simp +contextual (maxDischargeDepth := 60) [h]⟩

theorem startRun_keeps {s t : State} {c n : Nat} {ln : Launch} {o : OpWord} {d : AnnealDesc} {va : Nat}
    (h : startRun s c n ln o d va = .ok t) : Keeps s t := by
  unfold startRun at h
  obtain ⟨p, -, h⟩ := bind_ok h
  dsimp only at h
  split at h
  · obtain ⟨u, hu, h⟩ := bind_ok h
    cases h
    exact (touchAll_keeps _ _ _ _ s).trans ((resumeRun_keeps hu).trans (markRan_keeps _ _))
  · split at h
    · split at h <;> cases h
      rename_i hu
      exact (touchAll_keeps _ _ _ _ s).trans ((askEntropy_keeps hu).trans (State.setRun_keeps _ _ _))
    · exact (touchAll_keeps _ _ _ _ s).trans (beginRun_keeps h)

@[simp] theorem stopAnneal_keeps (c n : Nat) (ln : Launch) (h : Halt) (s : State) : Keeps s (stopAnneal c n ln h s) := by
  unfold stopAnneal
  try dsimp only
  (repeat' split) <;> exact ⟨by simp [Stands], fun h => by simp +contextual (maxDischargeDepth := 60) [h]⟩

@[simp] theorem energyStep_keeps (c n : Nat) (ln : Launch) (s : State) : Keeps s (energyStep c n ln s) := by
  unfold energyStep
  (repeat' split) <;> first
    | exact .refl s
    | exact stopAnneal_keeps _ _ _ _ _
    | (rename_i hu; exact (energyEntry_keeps hu).trans (markRan_keeps _ _))

@[simp] theorem passAnneal_keeps (c n : Nat) (ln : Launch) (s : State) : Keeps s (passAnneal c n ln s) := by
  unfold passAnneal
  try dsimp only
  (repeat' split) <;> exact ⟨by simp [Stands], fun h => by simp +contextual (maxDischargeDepth := 60) [h]⟩

@[simp] theorem pushTrace_keeps (c : Nat) (ts : List TraceRec) (s : State) : Keeps s (pushTrace c ts s) := by
  unfold pushTrace
  try dsimp only
  (repeat' split) <;> exact ⟨by simp [Stands], fun h => by simp +contextual (maxDischargeDepth := 60) [h]⟩

@[simp] theorem offerRecord_keeps (c id n sweeps i : Nat) (bytes : List Byte) (x : Replica) (s : State) :
    Keeps s (offerRecord c id n sweeps i bytes x s).2 := by
  unfold offerRecord
  dsimp only
  split
  · exact pushTrace_keeps _ _ _
  · exact (traceCount_keeps _ _ _ _ _).trans (traceEvent_keeps _ _)

@[simp] theorem offerAll_keeps (c id n sweeps i : Nat) (bs : List (List Byte)) (xs : List Replica) (s : State) :
    Keeps s (offerAll c id n sweeps i bs xs s).2 := by
  induction bs generalizing i xs s with
  | nil => unfold offerAll; exact .refl s
  | cons b bs ih =>
    cases xs with
    | nil => unfold offerAll; exact .refl s
    | cons x xs =>
      unfold offerAll
      exact (offerRecord_keeps c id n sweeps i b x s).trans (ih _ _ _)

@[simp] theorem feedStage_keeps (c n : Nat) (s : State) : Keeps s (feedStage c n s) := by
  unfold feedStage
  try dsimp only
  (repeat' split) <;> exact ⟨by simp [Stands], fun h => by simp +contextual (maxDischargeDepth := 60) [h]⟩

@[simp] theorem feedAll_keeps (c : Nat) (s : State) : Keeps s (feedAll c s) := by
  unfold feedAll
  try dsimp only
  (repeat' split) <;> exact ⟨by simp [Stands], fun h => by simp +contextual (maxDischargeDepth := 60) [h]⟩

@[simp] theorem purgeTrace_keeps (c : Nat) (gone : TraceRec → Bool) (s : State) : Keeps s (purgeTrace c gone s) := by
  unfold purgeTrace
  try dsimp only
  (repeat' split) <;> exact ⟨by simp [Stands], fun h => by simp +contextual (maxDischargeDepth := 60) [h]⟩

@[simp] theorem writerStopped_keeps (c n : Nat) (r : Run) (st : Nat) (s : State) : Keeps s (writerStopped c n r st s) := by
  unfold writerStopped
  try dsimp only
  (repeat' split) <;> exact ⟨by simp [Stands], fun h => by simp +contextual (maxDischargeDepth := 60) [h]⟩

@[simp] theorem stopWriter_keeps (c n : Nat) (r : Run) (h : Halt) (s : State) : Keeps s (stopWriter c n r h s) := by
  unfold stopWriter
  try dsimp only
  (repeat' split) <;> exact ⟨by simp [Stands], fun h => by simp +contextual (maxDischargeDepth := 60) [h]⟩

@[simp] theorem ringWrite_keeps (c : Nat) (s : State) (r : Run) (b : List Byte) : Keeps s (ringWrite c s r b).1 := by
  unfold ringWrite
  split
  · exact .refl s
  · rename_i hu
    split
    · exact writeVa_keeps hu
    · rename_i hv
      exact (writeVa_keeps hu).trans (writeVa_keeps hv)

@[simp] theorem popTrace_keeps (c : Nat) (s : State) : Keeps s (popTrace c s) := by
  unfold popTrace
  try dsimp only
  (repeat' split) <;> exact ⟨by simp [Stands], fun h => by simp +contextual (maxDischargeDepth := 60) [h]⟩

@[simp] theorem writeRecord_keeps (c n : Nat) (r : Run) (b : List Byte) (s : State) : Keeps s (writeRecord c n r b s) := by
  unfold writeRecord
  split
  · exact stopWriter_keeps _ _ _ _ _
  · dsimp only
    refine (touch_keeps c r.asid r.traceRdVa 8 false s).trans ?_
    generalize touch c r.asid r.traceRdVa 8 false s = s
    split
    · exact traceEvent_keeps _ _
    · refine (ringWrite_keeps c s r b).trans ?_
      generalize (ringWrite c s r b).1 = t
      split
      · exact stopWriter_keeps _ _ _ _ _
      · split
        · exact (traceCount_keeps _ _ _ _ t).trans
            (((traceCount_keeps _ _ _ _ _).trans (State.setRun_keeps _ _ _)).trans (popTrace_keeps _ _))
        · exact (traceCount_keeps _ _ _ _ t).trans ((State.setRun_keeps _ _ _).trans (popTrace_keeps _ _))

theorem remoteStore_keeps {s t : State} {g : Nat} {bs : List Byte} (h : remoteStore s g bs = .ok t) : Keeps s t := by
  unfold remoteStore at h
  split at h <;> cases h
  rename_i hu
  exact peerWrite_keeps hu

theorem openPacket_keeps {p : Outgoing} {root seed : Nat} {s : State} {x : Exch} {y : State × Exch}
    (h : openPacket p root seed s x = .ok y) : Keeps s y.1 := by
  unfold openPacket at h
  dsimp only at h
  obtain ⟨u, hu, h⟩ := bind_ok h
  split at h <;>
  · obtain ⟨v, hv, h⟩ := bind_ok h
    cases h
    have h1 : Keeps u v := by first | exact remoteStore_keeps hv | (cases hv; exact .refl _)
    exact (remoteStore_keeps hu).trans h1

theorem commitPacket_keeps {d : Nat} {k : OpenPacket} {s : State} {x : Exch} {y : State × Exch}
    (h : commitPacket d k s x = .ok y) : Keeps s y.1 := by
  unfold commitPacket at h
  split at h
  · cases h
  · obtain ⟨u, hu, h⟩ := bind_ok h
    cases h
    exact remoteStore_keeps hu

theorem sendNext_keeps {n d : Nat} {r : Run} {s : State} {x : Exch} {y : State × Exch}
    (h : sendNext n d r s x = .ok y) : Keeps s y.1 := by
  unfold sendNext at h
  split at h
  · exact commitPacket_keeps h
  · split at h
    · cases h
    · dsimp only at h
      split at h <;>
      · obtain ⟨_, -, h⟩ := bind_ok h
        split at h
        · cases h
        · exact (touch_keeps _ _ _ _ _ s).trans (openPacket_keeps h)

theorem sendReady_keeps {n d : Nat} {r : Run} {k : Nat} {s : State} {x : Exch} {y : State × Exch}
    (h : sendReady n d r k s x = .ok y) : Keeps s y.1 := by
  induction k generalizing s x with
  | zero => cases h; exact .refl s
  | succ k ih =>
    unfold sendReady at h
    split at h
    · split at h <;> cases h
      exact .refl s
    · rename_i hu
      exact (sendNext_keeps hu).trans (ih h)

theorem sendToAll_keeps {n : Nat} {r : Run} {ds : List Nat} {s : State} {x : Exch} {y : State × Exch}
    (h : sendToAll n r ds s x = .ok y) : Keeps s y.1 := by
  induction ds generalizing s x with
  | nil => cases h; exact .refl _
  | cons d ds ih =>
    unfold sendToAll at h
    split at h
    · cases h
    · rename_i hu
      exact (sendReady_keeps hu).trans (ih h)

theorem pumpReports_keeps {n : Nat} {s t : State} (h : pumpReports n s = .ok t) : Keeps s t := by
  unfold pumpReports at h
  split at h
  · cases h; exact .refl s
  · split at h
    · cases h; exact .refl s
    · obtain ⟨u, hu, h⟩ := bind_ok h
      cases h
      exact (sendToAll_keeps hu).trans (State.setRun_keeps _ _ _)

theorem sendEnergy_keeps {n : Nat} {s t : State} (h : sendEnergy n s = .ok t) : Keeps s t := by
  unfold sendEnergy at h
  split at h
  · cases h; exact .refl s
  · split at h
    · cases h; exact .refl s
    · split at h
      · obtain ⟨_, -, h⟩ := bind_ok h
        split at h
        · cases h; exact .refl s
        · obtain ⟨_, -, h⟩ := bind_ok h
          obtain ⟨_, -, h⟩ := bind_ok h
          dsimp only at h
          split at h <;>
          · obtain ⟨_, -, h⟩ := bind_ok h
            cases h
            exact (touchAll_keeps _ _ _ _ _).trans (State.setRun_keeps _ _ _)
      · cases h; exact .refl s

theorem consumePacket_keeps {n d : Nat} {r : Run} {x : Exch} {s t : State} {pos : Nat}
    (h : consumePacket n d r x s pos = .ok t) : Keeps s t := by
  unfold consumePacket at h
  obtain ⟨_, -, h⟩ := bind_ok h
  dsimp only at h
  split at h
  · cases h; exact .refl s
  · obtain ⟨_, -, h⟩ := bind_ok h
    obtain ⟨_, -, h⟩ := bind_ok h
    obtain ⟨_, -, h⟩ := bind_ok h
    split at h <;>
    · obtain ⟨_, -, h⟩ := bind_ok h
      obtain ⟨u, hu, h⟩ := bind_ok h
      cases h
      exact ((touch_keeps _ _ _ _ _ _).trans (remoteStore_keeps hu)).trans (State.setRun_keeps _ _ _)

theorem moveReports_keeps {n : Nat} {s t : State} (h : moveReports n s = .ok t) : Keeps s t := by
  obtain ⟨u, hu, h⟩ := bind_ok h
  exact (sendEnergy_keeps hu).trans (pumpReports_keeps h)

@[simp] theorem memberPhase_keeps (s : State) (r : Run) (m : Problem) (ss : List Stage) (st : Stage) (cp : Couplings)
    (blocks : List Nat) (x : Exch) : Keeps s (memberPhase s r m ss st cp blocks x).1 := by
  exact drawn_keeps 512 s

theorem phaseStep_keeps {s t : State} {n : Nat} {ln : Launch} {r : Run} (h : phaseStep s n ln r = .ok t) : Keeps s t := by
  unfold phaseStep at h
  dsimp only at h
  obtain ⟨_, -, h⟩ := bind_ok h
  obtain ⟨_, -, h⟩ := bind_ok h
  split at h
  · cases h
  · obtain ⟨_, -, h⟩ := bind_ok h
    refine Keeps.trans ?_ (moveReports_keeps h)
    refine Keeps.trans ?_ ((State.setRun_keeps _ _ _).trans (markRan_keeps _ _))
    refine Keeps.trans ?_ (annealWork_keeps _ _ _ _ _)
    split
    · exact (touchAll_keeps _ _ _ _ s).trans (memberPhase_keeps _ _ _ _ _ _ _ _)
    · exact touchAll_keeps _ _ _ _ s

theorem clearPause_keeps {r : Run} {s t : State} (h : clearPause r s = .ok t) : Keeps s t := by
  unfold clearPause at h
  split at h
  · exact writeVa_keeps h
  · cases h; exact .refl s

theorem closeRun_keeps {n : Nat} {ln : Launch} {m : Problem} {pause : Bool} {r : Run} {s t : State}
    (h : closeRun n ln m pause r s = .ok t) : Keeps s t := by
  unfold closeRun at h
  dsimp only at h
  obtain ⟨u, hu, h⟩ := bind_ok h
  obtain ⟨v, hv, h⟩ := bind_ok h
  cases h
  refine ((writeAll_keeps hu).trans (clearPause_keeps hv)).trans (Keeps.trans ?_ (feedStage_keeps _ _ _))
  refine Keeps.trans ?_ (annealDone_keeps _ _ _ _)
  refine Keeps.trans ?_ (State.modLaunch_keeps _ _ _)
  split
  · exact (State.setRun_keeps _ _ _).trans (pauseRun_keeps _ _ _)
  · exact (State.setRun_keeps _ _ _).trans (endRun_keeps _ _ _)

@[simp] theorem sweepWork_keeps (s : State) (n : Nat) (ln : Launch) (st : Stage) (r : Run) :
    Keeps s (sweepWork s n ln st r).1 := by
  unfold sweepWork
  dsimp only
  (repeat' split) <;> first
    | exact .refl s
    | exact (offerAll_keeps _ _ _ _ _ _ _ _).trans (offerAll_keeps _ _ _ _ _ _ _ _)
    | exact offerAll_keeps _ _ _ _ _ _ _ _

@[simp] theorem touchPause_keeps (r : Run) (s : State) : Keeps s (touchPause r s) := by
  unfold touchPause
  try dsimp only
  (repeat' split) <;> exact ⟨by simp [Stands], fun h => by simp +contextual (maxDischargeDepth := 60) [h]⟩

theorem sweepStep_keeps {s t : State} {n : Nat} {ln : Launch} {r : Run} (h : sweepStep s n ln r = .ok t) : Keeps s t := by
  unfold sweepStep at h
  dsimp only at h
  obtain ⟨_, -, h⟩ := bind_ok h
  obtain ⟨_, -, h⟩ := bind_ok h
  split at h
  · cases h
  · split at h
    · exact closeRun_keeps h
    · obtain ⟨u, hu, h⟩ := bind_ok h
      refine (((touchAll_keeps _ _ _ _ s).trans (sweepWork_keeps _ n ln _ _)).trans (writeAll_keeps hu)).trans ?_
      split at h
      · cases h; exact State.setRun_keeps _ _ _
      · split at h
        · exact closeRun_keeps h
        · obtain ⟨_, -, h⟩ := bind_ok h
          cases h
          exact (touchPause_keeps _ _).trans (State.setRun_keeps _ _ _)

theorem rotationStep_keeps {s t : State} {n : Nat} {ln : Launch} {r : Run} (h : rotationStep s n ln r = .ok t) : Keeps s t := by
  unfold rotationStep at h
  dsimp only at h
  obtain ⟨_, -, h⟩ := bind_ok h
  obtain ⟨u, hu, h⟩ := bind_ok h
  obtain ⟨v, hv, h⟩ := bind_ok h
  cases h
  exact (((stageEntries_keeps hu).trans (touchAll_keeps _ _ _ _ _)).trans (writeAll_keeps hv)).trans
    ((State.setRun_keeps _ _ _).trans ((annealWork_keeps _ _ _ _ _).trans (markRan_keeps _ _)))

theorem writeCkpt_keeps {s : State} {n : Nat} {r : Run} {image : Fetch} {m : Problem} {y : State × List Byte}
    (h : writeCkpt s n r image m = .ok y) : Keeps s y.1 := by
  unfold writeCkpt at h
  dsimp only at h
  obtain ⟨_, -, h⟩ := bind_ok h
  obtain ⟨u, hu, h⟩ := bind_ok h
  cases h
  exact ((touchAll_keeps _ _ _ _ _).trans (writeAll_keeps hu)).trans (State.setCtx_keeps _ _ _)

theorem ckptStep_keeps {s t : State} {n : Nat} {ln : Launch} {r : Run} (h : ckptStep s n ln r = .ok t) : Keeps s t := by
  unfold ckptStep at h
  dsimp only at h
  obtain ⟨_, -, h⟩ := bind_ok h
  obtain ⟨_, -, h⟩ := bind_ok h
  obtain ⟨w, hw, h⟩ := bind_ok h
  obtain ⟨u, hu, h⟩ := bind_ok h
  have h1 : Keeps s u := by
    refine Keeps.trans ?_ (writeAll_keeps hu)
    have h0 := fun r m => (writeCkpt_keeps hw).trans ((annealWork_keeps ln r m .checkpoint _).trans (markRan_keeps ln.id _))
    split
    · exact (h0 _ _).trans ((sendDigest_keeps _ _ _ _ _).trans (comparePair_keeps _ _))
    · exact h0 _ _
  refine h1.trans ?_
  split at h
  · exact closeRun_keeps h
  · split at h <;>
    · obtain ⟨_, -, h⟩ := bind_ok h
      first
        | (refine Keeps.trans (touchPause_keeps { r with ckptSeq := r.ckptSeq + 1 } u) ?_
           split at h
           · exact closeRun_keeps h
           · cases h
             exact State.setRun_keeps _ _ _)
        | (split at h
           · exact closeRun_keeps h
           · cases h
             exact State.setRun_keeps _ _ _)

@[simp] theorem restoreLine_keeps (c : Nat) (s : State) (x : Nat × Nat) : Keeps s (restoreLine c s x) := by
  unfold restoreLine
  try dsimp only
  (repeat' split) <;> exact ⟨by simp [Stands], fun h => by simp +contextual (maxDischargeDepth := 60) [h]⟩

@[simp] theorem undoStep_keeps (s : State) (c : Nat) : Keeps s (undoStep s c) := by
  unfold undoStep
  try dsimp only
  (repeat' split) <;> exact ⟨by simp [Stands], fun h => by simp +contextual (maxDischargeDepth := 60) [h]⟩

@[simp] theorem dropUnsent_keeps (c : Nat) (s : State) : Keeps s (dropUnsent c s) := by
  unfold dropUnsent
  try dsimp only
  (repeat' split) <;> exact ⟨by simp [Stands], fun h => by simp +contextual (maxDischargeDepth := 60) [h]⟩

theorem refetchUnit_keeps {s t : State} {n : Nat} {r : Run} {u : Nat} (h : refetchUnit s n r u = .ok t) : Keeps s t := by
  unfold refetchUnit at h
  dsimp only at h
  obtain ⟨_, -, h⟩ := bind_ok h
  split at h <;>
  · split at h
    · cases h; exact .refl s
    · obtain ⟨_, -, h⟩ := bind_ok h
      exact (touchAll_keeps _ _ _ _ _).trans (writeAll_keeps h)

theorem refetchAll_keeps {id : Nat} {ps : List Nat} {s t : State} (h : refetchAll id ps s = .ok t) : Keeps s t := by
  induction ps generalizing s with
  | nil => cases h; exact .refl _
  | cons p ps ih =>
    unfold refetchAll at h
    split at h
    · exact ih h
    · split at h
      · cases h
      · rename_i hu
        exact (refetchUnit_keeps hu).trans (ih h)

@[simp] theorem recompute_keeps (c : Nat) (ln : Launch) (a : Abandon) (s : State) : Keeps s (recompute c ln a s) := by
  unfold recompute
  dsimp only
  split
  · exact stopLaunch_keeps _ _ _
  · have h1 := ((Keeps.foldl (noteBad ln.id) a.places s (fun s p => noteBad_keeps ln.id s p)).trans
      (dropUnsent_keeps c _)).trans (withdraw_keeps (fun r => r.who == .entropyOp c) _)
    have h2 := h1.trans (Keeps.foldl (restoreLine c) (s.cluster c).snap.logged _ (fun s p => restoreLine_keeps c s p))
    have h3 := h2.trans (State.modCluster_keeps _ c (fun k => { k.restored (keptReduces c ln k) with
      reruns := k.reruns + 1, consumed := (a.places.filter (fun p => !golden s c ln.id p)).map (fun p => (p, placeBytes s p)) ++ k.consumed }))
    split
    · split
      · exact haltLaunch_keeps _ _ _ _ _
      · exact h3.trans (haltLaunch_keeps _ _ _ _ _)
    · rename_i hu
      exact (h3.trans (refetchAll_keeps hu)).trans
        ((State.modLaunch_keeps _ _ _).trans ((coreCount_keeps _ _ _ _ _ _ _).trans (memcRecompute_keeps _)))

@[simp] theorem runStopped_keeps (s : State) (e : Nat × Run) : Keeps s (runStopped s e) := by
  unfold runStopped
  try dsimp only
  (repeat' split) <;> exact ⟨by simp [Stands], fun h => by simp +contextual (maxDischargeDepth := 60) [h]⟩

@[simp] theorem countPaced_keeps (ln : Launch) (s : State) : Keeps s (countPaced ln s) := by
  unfold countPaced
  try dsimp only
  (repeat' split) <;> exact ⟨by simp [Stands], fun h => by simp +contextual (maxDischargeDepth := 60) [h]⟩

@[simp] theorem closeExecution_keeps (ln : Launch) (s : State) : Keeps s (closeExecution ln s) := by
  unfold closeExecution
  try dsimp only
  (repeat' split) <;> exact ⟨by simp [Stands], fun h => by simp +contextual (maxDischargeDepth := 60) [h]⟩

@[simp] theorem beginExecution_keeps (again : Bool) (ln : Launch) (s : State) : Keeps s (beginExecution again ln s) := by
  unfold beginExecution
  try dsimp only
  (repeat' split) <;> exact ⟨by simp [Stands], fun h => by simp +contextual (maxDischargeDepth := 60) [h]⟩

@[simp] theorem afterExecution_keeps (again pausing : Bool) (ln : Launch) (s : State) :
    Keeps s (afterExecution again pausing ln s) := by
  unfold afterExecution
  try dsimp only
  (repeat' split) <;> exact ⟨by simp [Stands], fun h => by simp +contextual (maxDischargeDepth := 60) [h]⟩

@[simp] theorem endRunOf_keeps (id : Nat) (s : State) (e : Nat × Run) : Keeps s (endRunOf id s e) := by
  unfold endRunOf
  try dsimp only
  (repeat' split) <;> exact ⟨by simp [Stands], fun h => by simp +contextual (maxDischargeDepth := 60) [h]⟩

@[simp] theorem endRuns_keeps (id : Nat) (s : State) : Keeps s (endRuns id s) := by
  unfold endRuns
  try dsimp only
  (repeat' split) <;> exact ⟨by simp [Stands], fun h => by simp +contextual (maxDischargeDepth := 60) [h]⟩

@[simp] theorem endLoads_keeps (id : Nat) (s : State) : Keeps s (endLoads id s) := by
  unfold endLoads
  try dsimp only
  (repeat' split) <;> exact ⟨by simp [Stands], fun h => by simp +contextual (maxDischargeDepth := 60) [h]⟩

@[simp] theorem releaseClusters_keeps (ln : Launch) (s : State) : Keeps s (releaseClusters ln s) := by
  unfold releaseClusters
  exact (withdraw_keeps _ _).trans (.foldl _ _ _ (fun s c => by split; exact State.modCluster_keeps _ _ _; exact .refl s))

@[simp] theorem dropTraffic_keeps (ln : Launch) (s : State) : Keeps s (dropTraffic ln s) := by
  unfold dropTraffic
  dsimp only
  refine Keeps.trans (t := { s with disp := _ }) (.refl s) (Keeps.trans ?_ (resumeWaiting_keeps _))
  exact .foldl _ _ _ (fun s e => settleRoute_keeps _ _)

@[simp] theorem undoSteps_keeps (ln : Launch) (s : State) : Keeps s (undoSteps ln s) := by
  unfold undoSteps
  try dsimp only
  (repeat' split) <;> exact ⟨by simp [Stands], fun h => by simp +contextual (maxDischargeDepth := 60) [h]⟩

@[simp] theorem dropTrace_keeps (ln : Launch) (s : State) : Keeps s (dropTrace ln s) := by
  unfold dropTrace
  try dsimp only
  (repeat' split) <;> exact ⟨by simp [Stands], fun h => by simp +contextual (maxDischargeDepth := 60) [h]⟩

@[simp] theorem cleanUp_keeps (ln : Launch) (s : State) : Keeps s (cleanUp ln s) := by
  unfold cleanUp
  try dsimp only
  (repeat' split) <;> exact ⟨by simp [Stands], fun h => by simp +contextual (maxDischargeDepth := 60) [h]⟩

@[simp] theorem makeDigest_keeps (ln : Launch) (s : State) : Keeps s (makeDigest ln s) := by
  unfold makeDigest
  try dsimp only
  (repeat' split) <;> exact ⟨by simp [Stands], fun h => by simp +contextual (maxDischargeDepth := 60) [h]⟩

@[simp] theorem applySignals_keeps (ln : Launch) (status : Nat) (s : State) : Keeps s (applySignals ln status s) := by
  unfold applySignals
  try dsimp only
  (repeat' split) <;> exact ⟨by simp [Stands], fun h => by simp +contextual (maxDischargeDepth := 60) [h]⟩

@[simp] theorem notify_keeps (q : Nat) (s : State) : Keeps s (notify q s) := by
  unfold notify
  try dsimp only
  (repeat' split) <;> exact ⟨by simp [Stands], fun h => by simp +contextual (maxDischargeDepth := 60) [h]⟩

@[simp] theorem entryWritten_keeps (q status : Nat) (s : State) : Keeps s (entryWritten q status s) := by
  unfold entryWritten
  try dsimp only
  (repeat' split) <;> exact ⟨by simp [Stands], fun h => by simp +contextual (maxDischargeDepth := 60) [h]⟩

@[simp] theorem writeEntry_keeps (q asid status : Nat) (bytes : List Byte) (s : State) :
    Keeps s (writeEntry q asid status bytes s) := by
  unfold writeEntry
  dsimp only
  refine Keeps.trans (t := { s with disp := { s.disp with cplSeq := s.disp.cplSeq + 1 } }) (.refl s) ?_
  split
  · rename_i hu
    exact (writeVa_keeps hu).trans (entryWritten_keeps _ _ _)
  · exact (noteFault_keeps _ _ _ _ _).trans (faultQueue_keeps _ _)
  · exact faultQueue_keeps _ _

@[simp] theorem queueAfter_keeps (q : Nat) (s : State) : Keeps s (queueAfter q s) := by
  unfold queueAfter
  try dsimp only
  (repeat' split) <;> exact ⟨by simp [Stands], fun h => by simp +contextual (maxDischargeDepth := 60) [h]⟩

@[simp] theorem statusEvents_keeps (st : Nat) (s : State) : Keeps s (statusEvents st s) := by
  unfold statusEvents
  try dsimp only
  (repeat' split) <;> exact ⟨by simp [Stands], fun h => by simp +contextual (maxDischargeDepth := 60) [h]⟩

@[simp] theorem writeDigest_keeps (ln : Launch) (s : State) : Keeps s (writeDigest ln s).1 := by
  unfold writeDigest
  split
  · exact .refl s
  · split
    · rename_i hu
      exact writeVa_keeps hu
    · exact noteFault_keeps _ _ _ _ _
    · exact .refl s

@[simp] theorem finishLaunch_keeps (ln : Launch) (s : State) : Keeps s (finishLaunch ln s) := by
  unfold finishLaunch
  dsimp only
  have h1 : Keeps s (if ln.status ≤ 2 && signalOverflow s ln then (s, 0x106, false) else writeDigest ln s).1 := by
    split
    · exact .refl s
    · exact writeDigest_keeps ln s
  generalize (if ln.status ≤ 2 && signalOverflow s ln then (s, 0x106, false) else writeDigest ln s) = d at h1 ⊢
  refine h1.trans ?_
  have h2 := (drawn_keeps 1 d.1).trans ((applySignals_keeps ln d.2.1 _).trans (statusEvents_keeps d.2.1 _))
  generalize statusEvents d.2.1 (applySignals ln d.2.1 (drawn 1 d.1)) = u at h2 ⊢
  refine h2.trans ?_
  refine Keeps.trans ?_ (sendSummary_keeps _)
  refine Keeps.trans ?_ (queueAfter_keeps _ _)
  have h3 := Keeps.bad u { u.disp with launches := u.disp.launches.filter (fun l => l.id != ln.id) }
    (u.mem.badWords.filter (fun b => b.launch != ln.id))
  generalize ({ u with
    disp := { u.disp with launches := u.disp.launches.filter (fun l => l.id != ln.id) }
    mem := { u.mem with badWords := u.mem.badWords.filter (fun b => b.launch != ln.id) } } : State) = v at h3 ⊢
  refine h3.trans ?_
  split
  · exact .refl _
  · exact writeEntry_keeps _ _ _ _ _

@[simp] theorem emitEnds_keeps (ln : Launch) (s : State) : Keeps s (emitEnds ln s) := by
  unfold emitEnds
  try dsimp only
  (repeat' split) <;> exact ⟨by simp [Stands], fun h => by simp +contextual (maxDischargeDepth := 60) [h]⟩

@[simp] theorem passWindow_keeps (s : State) : Keeps s (passWindow s) := by
  unfold passWindow
  try dsimp only
  (repeat' split) <;> exact ⟨by simp [Stands], fun h => by simp +contextual (maxDischargeDepth := 60) [h]⟩

@[simp] theorem failRequest_keeps (st : Nat) (s : State) (r : GenReq) : Keeps s (failRequest st s r) := by
  unfold failRequest
  try dsimp only
  (repeat' split) <;> exact ⟨by simp [Stands], fun h => by simp +contextual (maxDischargeDepth := 60) [h]⟩

@[simp] theorem enterFault_keeps (test unit : Nat) (s : State) : Keeps s (enterFault test unit s) := by
  unfold enterFault
  try dsimp only
  (repeat' split) <;> exact ⟨by simp [Stands], fun h => by simp +contextual (maxDischargeDepth := 60) [h]⟩

@[simp] theorem windowEnd_keeps (s : State) : Keeps s (windowEnd s) := by
  unfold windowEnd
  try dsimp only
  (repeat' split) <;> exact ⟨by simp [Stands], fun h => by simp +contextual (maxDischargeDepth := 60) [h]⟩

theorem seededRun_keeps {n : Nat} {r : Run} {bs : List Byte} {s t : State} (h : seededRun n r bs s = .ok t) : Keeps s t := by
  obtain ⟨u, hu, h⟩ := bind_ok h
  exact (writeVa_keeps hu).trans (beginRun_keeps h)

@[simp] theorem deliverSeed_keeps (n : Nat) (bs : List Byte) (s : State) : Keeps s (deliverSeed n bs s) := by
  unfold deliverSeed
  (repeat' split) <;> first
    | exact .refl s
    | exact haltLaunch_keeps _ _ _ _ _
    | (rename_i h; exact seededRun_keeps h)

@[simp] theorem deliver_keeps (who : Requester) (bs : List Byte) (s : State) : Keeps s (deliver who bs s) := by
  unfold deliver
  try dsimp only
  (repeat' split) <;> exact ⟨by simp [Stands], fun h => by simp +contextual (maxDischargeDepth := 60) [h]⟩

@[simp] theorem reseed_keeps (d : Drbg) (s : State) : Keeps s (reseed d s) := by
  unfold reseed
  try dsimp only
  (repeat' split) <;> exact ⟨by simp [Stands], fun h => by simp +contextual (maxDischargeDepth := 60) [h]⟩

@[simp] theorem serveRequest_keeps (r : GenReq) (d : Drbg) (s : State) : Keeps s (serveRequest r d s) := by
  unfold serveRequest
  try dsimp only
  (repeat' split) <;> exact ⟨by simp [Stands], fun h => by simp +contextual (maxDischargeDepth := 60) [h]⟩

@[simp] theorem generate_keeps (r : GenReq) (d : Drbg) (s : State) : Keeps s (generate r d s) := by
  unfold generate
  try dsimp only
  (repeat' split) <;> exact ⟨by simp [Stands], fun h => by simp +contextual (maxDischargeDepth := 60) [h]⟩

@[simp] theorem recoverCkpt_keeps (s : State) (e : Nat × Run) : Keeps s (recoverCkpt s e) := by
  unfold recoverCkpt
  try dsimp only
  (repeat' split) <;> exact ⟨by simp [Stands], fun h => by simp +contextual (maxDischargeDepth := 60) [h]⟩

@[simp] theorem recoverRuns_keeps (id : Nat) (s : State) : Keeps s (recoverRuns id s) := by
  unfold recoverRuns
  try dsimp only
  (repeat' split) <;> exact ⟨by simp [Stands], fun h => by simp +contextual (maxDischargeDepth := 60) [h]⟩

@[simp] theorem abortUsers_keeps (c : Nat) (s : State) : Keeps s (abortUsers c s) := by
  unfold abortUsers
  try dsimp only
  (repeat' split) <;> exact ⟨by simp [Stands], fun h => by simp +contextual (maxDischargeDepth := 60) [h]⟩

@[simp] theorem flushCluster_keeps (c : Nat) (s : State) : Keeps s (flushCluster c s) := by
  unfold flushCluster
  try dsimp only
  (repeat' split) <;> exact ⟨by simp [Stands], fun h => by simp +contextual (maxDischargeDepth := 60) [h]⟩

@[simp] theorem passReset_keeps (c : Nat) (reply : Option Reply) (s : State) : Keeps s (passReset c reply s) := by
  unfold passReset
  try dsimp only
  (repeat' split) <;> exact ⟨by simp [Stands], fun h => by simp +contextual (maxDischargeDepth := 60) [h]⟩

@[simp] theorem restartCluster_keeps (c : Nat) (reply : Option Reply) (s : State) : Keeps s (restartCluster c reply s) := by
  unfold restartCluster
  dsimp only
  refine ((abortUsers_keeps c s).trans (flushCluster_keeps c _)).trans ?_
  generalize flushCluster c (abortUsers c s) = t
  refine (State.modCluster_keeps t c Cluster.restart).trans ?_
  generalize t.modCluster c Cluster.restart = u
  have h1 : Keeps u { u with mem := u.mem.poisonCluster c, mgmt := { u.mgmt with sanitised := false } } :=
    ⟨.refl u, Mem.wf_poisonCluster _ _⟩
  refine h1.trans (Keeps.trans ?_ (sendResult_keeps _ _ _))
  split
  · exact markChanged_keeps _
  · exact .refl _

@[simp] theorem restartCtx_keeps (s : State) (n : Nat) : Keeps s (restartCtx s n) := by
  unfold restartCtx
  try dsimp only
  (repeat' split) <;> exact ⟨by simp [Stands], fun h => by simp +contextual (maxDischargeDepth := 60) [h]⟩

@[simp] theorem restartContexts_keeps (s : State) : Keeps s (restartContexts s) := by
  unfold restartContexts
  try dsimp only
  (repeat' split) <;> exact ⟨by simp [Stands], fun h => by simp +contextual (maxDischargeDepth := 60) [h]⟩

@[simp] theorem State.setPool_keeps (s : State) (t : Nat) (p : Pool) : Keeps s (State.setPool s t p) := by
  unfold State.setPool
  try dsimp only
  (repeat' split) <;> exact ⟨by simp [Stands], fun h => by simp +contextual (maxDischargeDepth := 60) [h]⟩

theorem takeFrame_keeps {s : State} {t n : Nat} {x : Nat × State} (h : takeFrame s t n = some x) : Keeps s x.2 := by
  unfold takeFrame at h
  dsimp only at h
  split at h <;> cases h
  exact (State.setPool_keeps _ _ _).trans (drawn_keeps _ _)

@[simp] theorem returnFrame_keeps (a n : Nat) (s : State) : Keeps s (returnFrame a n s) := by
  unfold returnFrame
  try dsimp only
  (repeat' split) <;> exact ⟨by simp [Stands], fun h => by simp +contextual (maxDischargeDepth := 60) [h]⟩

@[simp] theorem dropRoots_keeps (asid va n : Nat) (s : State) : Keeps s (dropRoots asid va n s) := by
  unfold dropRoots
  try dsimp only
  (repeat' split) <;> exact ⟨by simp [Stands], fun h => by simp +contextual (maxDischargeDepth := 60) [h]⟩

@[simp] theorem rewriteLeaf_keeps (asid va : Nat) (l : Leaf) (w : Nat) (s : State) : Keeps s (rewriteLeaf asid va l w s) := by
  unfold rewriteLeaf
  try dsimp only
  (repeat' split) <;> exact ⟨by simp [Stands], fun h => by simp +contextual (maxDischargeDepth := 60) [h]⟩

@[simp] theorem beginMove_keeps (asid page : Nat) (l : Leaf) (new : Nat) (drain : Bool) (s : State) :
    Keeps s (beginMove asid page l new drain s) := by
  unfold beginMove
  try dsimp only
  (repeat' split) <;> exact ⟨by simp [Stands], fun h => by simp +contextual (maxDischargeDepth := 60) [h]⟩

@[simp] theorem pageOrder_keeps (asid va tier : Nat) (s : State) : Keeps s (pageOrder asid va tier s) := by
  unfold pageOrder
  (repeat' split) <;> first
    | exact .refl s
    | (rename_i h; exact (takeFrame_keeps h).trans (beginMove_keeps _ _ _ _ _ _))

@[simp] theorem takeNext_keeps (s : State) : Keeps s (takeNext s) := by
  unfold takeNext
  try dsimp only
  (repeat' split) <;> exact ⟨by simp [Stands], fun h => by simp +contextual (maxDischargeDepth := 60) [h]⟩

@[simp] theorem clearJournal_keeps (m : Migration) (s : State) : Keeps s (clearJournal m s) := by
  unfold clearJournal
  try dsimp only
  (repeat' split) <;> exact ⟨by simp [Stands], fun h => by simp +contextual (maxDischargeDepth := 60) [h]⟩

@[simp] theorem rollBack_keeps (m : Migration) (s : State) : Keeps s (rollBack m s) := by
  unfold rollBack
  try dsimp only
  (repeat' split) <;> exact ⟨by simp [Stands], fun h => by simp +contextual (maxDischargeDepth := 60) [h]⟩

@[simp] theorem finishMove_keeps (m : Migration) (s : State) : Keeps s (finishMove m s) := by
  unfold finishMove
  try dsimp only
  (repeat' split) <;> exact ⟨by simp [Stands], fun h => by simp +contextual (maxDischargeDepth := 60) [h]⟩

theorem frameForPoison_keeps {s : State} {m : Migration} {x : Nat × State} (h : frameForPoison s m = some x) : Keeps s x.2 := by
  unfold frameForPoison at h
  split at h
  · cases h; exact .refl s
  · split at h
    · rename_i hx
      cases h
      exact (takeFrame_keeps hx).trans (returnFrame_keeps _ _ _)
    · split at h
      · cases h; exact .refl s
      · split at h
        · rename_i hx
          cases h
          exact (takeFrame_keeps hx).trans (returnFrame_keeps _ _ _)
        · cases h

@[simp] theorem endMove_keeps (m : Migration) (s : State) : Keeps s (endMove m s) := by
  unfold endMove
  split
  · exact rollBack_keeps _ _
  · split
    · exact (physWrite_keeps _ _ _).trans (finishMove_keeps _ _)
    · split
      · exact rollBack_keeps _ _
      · split
        · exact .refl s
        · rename_i hu
          exact (((frameForPoison_keeps hu).trans (Keeps.memc _ _)).trans (physWrite_keeps _ _ _)).trans (finishMove_keeps _ _)

theorem drainFrame_keeps {s : State} {t n : Nat} {x : Nat × State} (h : drainFrame s t n = some x) : Keeps s x.2 := by
  have hk : ∀ (us : List Nat) (r : Option (Nat × State)), (∀ x, r = some x → Keeps s x.2) →
      ∀ x, us.foldl (fun r u => r.or (takeFrame s u n)) r = some x → Keeps s x.2 := by
    intro us
    induction us with
    | nil => intro r hr x hx; exact hr x hx
    | cons u us ih =>
      intro r hr x hx
      refine ih _ ?_ x hx
      intro y hy
      cases r with
      | some z => exact hr y hy
      | none => exact takeFrame_keeps hy
  unfold drainFrame at h
  cases hf : takeFrame s t n with
  | some y => rw [hf] at h; cases h; exact takeFrame_keeps hf
  | none => rw [hf] at h; exact hk _ _ (fun x hx => by cases hx) x h

@[simp] theorem drainPage_keeps (s : State) (e : Nat × Nat × Leaf) : Keeps s (drainPage s e) := by
  unfold drainPage
  dsimp only
  (repeat' split) <;> first
    | exact .refl s
    | (rename_i h; exact (drainFrame_keeps h).trans (beginMove_keeps _ _ _ _ _ _))

@[simp] theorem drainAll_keeps (d : Drain) (s : State) : Keeps s (drainAll d s) := by
  unfold drainAll
  try dsimp only
  (repeat' split) <;> exact ⟨by simp [Stands], fun h => by simp +contextual (maxDischargeDepth := 60) [h]⟩

@[simp] theorem startDrain_keeps (d : Drain) (s : State) : Keeps s (startDrain d s) := by
  unfold startDrain
  try dsimp only
  (repeat' split) <;> exact ⟨by simp [Stands], fun h => by simp +contextual (maxDischargeDepth := 60) [h]⟩

@[simp] theorem dropRange_keeps (d : Drain) (s : State) : Keeps s (dropRange d s) := by
  unfold dropRange
  try dsimp only
  (repeat' split) <;> exact ⟨by simp [Stands], fun h => by simp +contextual (maxDischargeDepth := 60) [h]⟩

@[simp] theorem beginRetire_keeps (q k : Nat) (s : State) : Keeps s (beginRetire q k s) := by
  unfold beginRetire
  try dsimp only
  (repeat' split) <;> exact ⟨by simp [Stands], fun h => by simp +contextual (maxDischargeDepth := 60) [h]⟩

@[simp] theorem markDraining_keeps (q k : Nat) (s : State) : Keeps s (markDraining q k s) := by
  unfold markDraining
  try dsimp only
  (repeat' split) <;> exact ⟨by simp [Stands], fun h => by simp +contextual (maxDischargeDepth := 60) [h]⟩

@[simp] theorem receiveRetire_keeps (q k : Nat) (s : State) : Keeps s (receiveRetire q k s) := by
  unfold receiveRetire
  try dsimp only
  (repeat' split) <;> exact ⟨by simp [Stands], fun h => by simp +contextual (maxDischargeDepth := 60) [h]⟩

@[simp] theorem retireChannel_keeps (q k : Nat) (s : State) : Keeps s (retireChannel q k s) := by
  unfold retireChannel
  try dsimp only
  (repeat' split) <;> exact ⟨by simp [Stands], fun h => by simp +contextual (maxDischargeDepth := 60) [h]⟩

@[simp] theorem noteRetired_keeps (q k : Nat) (s : State) : Keeps s (noteRetired q k s) := by
  unfold noteRetired
  try dsimp only
  (repeat' split) <;> exact ⟨by simp [Stands], fun h => by simp +contextual (maxDischargeDepth := 60) [h]⟩

@[simp] theorem giveRange_keeps (port off n capacity : Nat) (switched : Bool) (lanes speed : Nat) (s : State) :
    Keeps s (giveRange port off n capacity switched lanes speed s) := by
  unfold giveRange
  exact (State.setCxl_keeps s port _).trans ⟨.refl _, fun h => h⟩

@[simp] theorem addDevice_keeps (port capacity : Nat) (switched : Bool) (lanes speed : Nat) (s : State) :
    Keeps s (addDevice port capacity switched lanes speed s) := by
  unfold addDevice
  try dsimp only
  (repeat' split) <;> exact ⟨by simp [Stands], fun h => by simp +contextual (maxDischargeDepth := 60) [h]⟩

@[simp] theorem noteDevices_keeps (port : Nat) (ranges : List (Nat × Nat × Nat)) (s : State) :
    Keeps s (noteDevices port ranges s) := by
  unfold noteDevices
  try dsimp only
  (repeat' split) <;> exact ⟨by simp [Stands], fun h => by simp +contextual (maxDischargeDepth := 60) [h]⟩

@[simp] theorem beginRemove_keeps (port : Nat) (d : Drain) (s : State) : Keeps s (beginRemove port d s) := by
  unfold beginRemove
  try dsimp only
  (repeat' split) <;> exact ⟨by simp [Stands], fun h => by simp +contextual (maxDischargeDepth := 60) [h]⟩

@[simp] theorem markPort_keeps (port : Nat) (s : State) : Keeps s (markPort port s) := by
  unfold markPort
  try dsimp only
  (repeat' split) <;> exact ⟨by simp [Stands], fun h => by simp +contextual (maxDischargeDepth := 60) [h]⟩

@[simp] theorem receiveRemove_keeps (port base : Nat) (s : State) : Keeps s (receiveRemove port base s) := by
  unfold receiveRemove
  try dsimp only
  (repeat' split) <;> exact ⟨by simp [Stands], fun h => by simp +contextual (maxDischargeDepth := 60) [h]⟩

@[simp] theorem removeDevice_keeps (port : Nat) (d : Drain) (s : State) : Keeps s (removeDevice port d s) := by
  unfold removeDevice
  try dsimp only
  (repeat' split) <;> exact ⟨by simp [Stands], fun h => by simp +contextual (maxDischargeDepth := 60) [h]⟩

@[simp] theorem popRequest_keeps (m : Nat) (s : State) : Keeps s (popRequest m s) := by
  unfold popRequest
  try dsimp only
  (repeat' split) <;> exact ⟨by simp [Stands], fun h => by simp +contextual (maxDischargeDepth := 60) [h]⟩

@[simp] theorem respond_keeps (m : Nat) (b : List Byte) (result : Nat) (body : List Byte) (s : State) :
    Keeps s (respond m b result body s) := by
  unfold respond
  try dsimp only
  (repeat' split) <;> exact ⟨by simp [Stands], fun h => by simp +contextual (maxDischargeDepth := 60) [h]⟩

theorem addFrames_keeps {t a n : Nat} {s : State} {x : State × Nat} (h : addFrames t a n s = .ok x) : Keeps s x.1 := by
  obtain ⟨_, -, h⟩ := bind_ok h
  cases h
  exact State.setPool_keeps _ _ _

@[simp] theorem beginLink_keeps (o : LinkOp) (s : State) : Keeps s (beginLink o s) := by
  unfold beginLink
  try dsimp only
  (repeat' split) <;> exact ⟨by simp [Stands], fun h => by simp +contextual (maxDischargeDepth := 60) [h]⟩

@[simp] theorem beginMoveEngine_keeps (e target : Nat) (s : State) : Keeps s (beginMoveEngine e target s) := by
  unfold beginMoveEngine
  try dsimp only
  (repeat' split) <;> exact ⟨by simp [Stands], fun h => by simp +contextual (maxDischargeDepth := 60) [h]⟩

@[simp] theorem popOrder_keeps (c : Nat) (s : State) : Keeps s (popOrder c s) := by
  unfold popOrder
  try dsimp only
  (repeat' split) <;> exact ⟨by simp [Stands], fun h => by simp +contextual (maxDischargeDepth := 60) [h]⟩

@[simp] theorem bumpMap_keeps (c : Nat) (s : State) : Keeps s (bumpMap c s) := by
  unfold bumpMap
  try dsimp only
  (repeat' split) <;> exact ⟨by simp [Stands], fun h => by simp +contextual (maxDischargeDepth := 60) [h]⟩

@[simp] theorem restoreInto_keeps (c p l : Nat) (s : State) : Keeps s (restoreInto c p l s) := by
  unfold restoreInto
  try dsimp only
  (repeat' split) <;> exact ⟨by simp [Stands], fun h => by simp +contextual (maxDischargeDepth := 60) [h]⟩

@[simp] theorem rerunCore_keeps (c l : Nat) (s : State) : Keeps s (rerunCore c l s) := by
  unfold rerunCore
  try dsimp only
  (repeat' split) <;> exact ⟨by simp [Stands], fun h => by simp +contextual (maxDischargeDepth := 60) [h]⟩

@[simp] theorem endUsers_keeps (c : Nat) (s : State) : Keeps s (endUsers c s) := by
  unfold endUsers
  try dsimp only
  (repeat' split) <;> exact ⟨by simp [Stands], fun h => by simp +contextual (maxDischargeDepth := 60) [h]⟩

@[simp] theorem fenceIndex_keeps (c p l : Nat) (s : State) : Keeps s (fenceIndex c p l s) := by
  unfold fenceIndex
  try dsimp only
  (repeat' split) <;> exact ⟨by simp [Stands], fun h => by simp +contextual (maxDischargeDepth := 60) [h]⟩

@[simp] theorem fenceSpare_keeps (c p : Nat) (s : State) : Keeps s (fenceSpare c p s) := by
  unfold fenceSpare
  try dsimp only
  (repeat' split) <;> exact ⟨by simp [Stands], fun h => by simp +contextual (maxDischargeDepth := 60) [h]⟩

@[simp] theorem applyFence_keeps (c p : Nat) (s : State) : Keeps s (applyFence c p s) := by
  unfold applyFence
  try dsimp only
  (repeat' split) <;> exact ⟨by simp [Stands], fun h => by simp +contextual (maxDischargeDepth := 60) [h]⟩

@[simp] theorem copySlice_keeps (s : State) (c sl k : Nat) : Keeps s (copySlice s c sl k) := by
  exact copySlice_fold (Keeps s) (fun t a bs h => h.trans (writeGddr_keeps t a bs false)) c sl k s (.refl s)

@[simp] theorem redirectSlice_keeps (c sl k : Nat) (s : State) : Keeps s (redirectSlice c sl k s) := by
  unfold redirectSlice
  try dsimp only
  (repeat' split) <;> exact ⟨by simp [Stands], fun h => by simp +contextual (maxDischargeDepth := 60) [h]⟩

@[simp] theorem retireSlice_keeps (c sl : Nat) (s : State) : Keeps s (retireSlice c sl s).1 := by
  unfold retireSlice
  generalize slicePoison s c sl = bad
  split
  · exact memcEvent_keeps _ _
  · rename_i k _
    have h := copySlice_keeps s c sl k
    generalize copySlice s c sl k = t at h ⊢
    dsimp only
    split
    · exact memcEvent_keeps _ _
    · exact (h.trans (State.modCluster_keeps t c _)).trans (redirectSlice_keeps _ _ _ _)

@[simp] theorem setUpload_keeps (u : Option Upload) (s : State) : Keeps s (setUpload u s) := by
  unfold setUpload
  try dsimp only
  (repeat' split) <;> exact ⟨by simp [Stands], fun h => by simp +contextual (maxDischargeDepth := 60) [h]⟩

@[simp] theorem startFirmware_keeps (i : Image) (s : State) : Keeps s (startFirmware i s) := by
  unfold startFirmware
  try dsimp only
  (repeat' split) <;> exact ⟨by simp [Stands], fun h => by simp +contextual (maxDischargeDepth := 60) [h]⟩

@[simp] theorem beginHandover_keeps (i : Image) (s : State) : Keeps s (beginHandover i s) := by
  unfold beginHandover
  try dsimp only
  (repeat' split) <;> exact ⟨by simp [Stands], fun h => by simp +contextual (maxDischargeDepth := 60) [h]⟩

@[simp] theorem settleAdvance_keeps (s : State) : Keeps s (settleAdvance s) := by
  unfold settleAdvance
  try dsimp only
  (repeat' split) <;> exact ⟨by simp [Stands], fun h => by simp +contextual (maxDischargeDepth := 60) [h]⟩

@[simp] theorem trainGdc_keeps (s : State) (e : Nat × Nat) : Keeps s (trainGdc s e) := by
  unfold trainGdc
  try dsimp only
  (repeat' split) <;> exact ⟨by simp [Stands], fun h => by simp +contextual (maxDischargeDepth := 60) [h]⟩

@[simp] theorem testChannel_keeps (s : State) (e : Nat × Nat) : Keeps s (testChannel s e) := by
  unfold testChannel
  try dsimp only
  (repeat' split) <;> exact ⟨by simp [Stands], fun h => by simp +contextual (maxDischargeDepth := 60) [h]⟩

@[simp] theorem testSlice_keeps (s : State) (e : Nat × Nat) : Keeps s (testSlice s e) := by
  unfold testSlice
  try dsimp only
  (repeat' split) <;> exact ⟨by simp [Stands], fun h => by simp +contextual (maxDischargeDepth := 60) [h]⟩

@[simp] theorem trainCxl_keeps (s : State) (e : Nat × Nat × Nat × Bool) : Keeps s (trainCxl s e) := by
  unfold trainCxl
  try dsimp only
  (repeat' split) <;> exact ⟨by simp [Stands], fun h => by simp +contextual (maxDischargeDepth := 60) [h]⟩

@[simp] theorem enumerate_keeps (s : State) (e : Nat × Nat) : Keeps s (enumerate s e) := by
  unfold enumerate
  extract_lets x off n
  split
  · exact .refl s
  · refine Keeps.trans ?_ (noteDevices_keeps _ _ _)
    exact State.setCxl_keeps _ _ _

@[simp] theorem applySelfTest_keeps (t : SelfTest) (s : State) : Keeps s (applySelfTest t s) := by
  unfold applySelfTest
  try dsimp only
  (repeat' split) <;> exact ⟨by simp [Stands], fun h => by simp +contextual (maxDischargeDepth := 60) [h]⟩

@[simp] theorem becomeReady_keeps (ok : Bool) (s : State) : Keeps s (becomeReady ok s) := by
  unfold becomeReady
  try dsimp only
  (repeat' split) <;> exact ⟨by simp [Stands], fun h => by simp +contextual (maxDischargeDepth := 60) [h]⟩

@[simp] theorem wipe_keeps (s : State) : Keeps s (wipe s) := by
  exact ⟨⟨rfl, rfl, rfl, rfl, rfl, rfl, rfl, rfl⟩, Mem.wf_wipe s⟩

@[simp] theorem writePattern_keeps (b : Byte) (s : State) : Keeps s (writePattern b s) := by
  refine ⟨?_, Mem.wf_writePattern b s⟩
  unfold writePattern
  refine Stands.foldl _ _ { s with mem := _ } (fun s e => ?_)
  unfold fillChannel
  split <;> exact .refl s

@[simp] theorem passed_keeps (step failed : Nat) (s : State) : Keeps s (passed step failed s) := by
  unfold passed
  try dsimp only
  (repeat' split) <;> exact ⟨by simp [Stands], fun h => by simp +contextual (maxDischargeDepth := 60) [h]⟩

@[simp] theorem receiveRecord_keeps (e : EvRec) (s : State) : Keeps s (receiveRecord e s) := by
  unfold receiveRecord
  try dsimp only
  (repeat' split) <;> exact ⟨by simp [Stands], fun h => by simp +contextual (maxDischargeDepth := 60) [h]⟩

@[simp] theorem nextHandover_keeps (c : Nat) (s : State) : Keeps s (nextHandover c s) := by
  unfold nextHandover
  try dsimp only
  (repeat' split) <;> exact ⟨by simp [Stands], fun h => by simp +contextual (maxDischargeDepth := 60) [h]⟩

@[simp] theorem afterRestart_keeps (c : Nat) (newFw : Bool) (r : Option Reply) (s : State) :
    Keeps s (afterRestart c newFw r s) := by
  unfold afterRestart
  try dsimp only
  (repeat' split) <;> exact ⟨by simp [Stands], fun h => by simp +contextual (maxDischargeDepth := 60) [h]⟩

@[simp] theorem noteAdded_keeps (p : Nat) (base : Option Nat) (ranges : List (Nat × Nat × Nat)) (s : State) :
    Keeps s (noteAdded p base ranges s) := by
  unfold noteAdded
  try dsimp only
  (repeat' split) <;> exact ⟨by simp [Stands], fun h => by simp +contextual (maxDischargeDepth := 60) [h]⟩

@[simp] theorem noteFifos_keeps (u : Nat) (counts : List Nat) (s : State) : Keeps s (noteFifos u counts s) := by
  unfold noteFifos
  try dsimp only
  (repeat' split) <;> exact ⟨by simp [Stands], fun h => by simp +contextual (maxDischargeDepth := 60) [h]⟩

@[simp] theorem receiveResult_keeps (r : Result) (s : State) : Keeps s (receiveResult r s) := by
  unfold receiveResult
  try dsimp only
  (repeat' split) <;> exact ⟨by simp [Stands], fun h => by simp +contextual (maxDischargeDepth := 60) [h]⟩

@[simp] theorem sendHeat_keeps (s : State) (e : Nat × HeatUnit) : Keeps s (sendHeat s e) := by
  unfold sendHeat
  try dsimp only
  (repeat' split) <;> exact ⟨by simp [Stands], fun h => by simp +contextual (maxDischargeDepth := 60) [h]⟩

@[simp] theorem takeHeat_keeps (s : State) : Keeps s (takeHeat s) := by
  unfold takeHeat
  try dsimp only
  (repeat' split) <;> exact ⟨by simp [Stands], fun h => by simp +contextual (maxDischargeDepth := 60) [h]⟩

@[simp] theorem sendDecision_keeps (c : Nat) (d : Decision) (s : State) : Keeps s (sendDecision c d s) := by
  unfold sendDecision
  try dsimp only
  (repeat' split) <;> exact ⟨by simp [Stands], fun h => by simp +contextual (maxDischargeDepth := 60) [h]⟩

@[simp] theorem failCluster_keeps (s : State) (c : Nat) : Keeps s (failCluster s c) := by
  unfold failCluster
  try dsimp only
  (repeat' split) <;> exact ⟨by simp [Stands], fun h => by simp +contextual (maxDischargeDepth := 60) [h]⟩

@[simp] theorem testCluster_keeps (c : Nat) (passed : Bool) (s : State) : Keeps s (testCluster c passed s) := by
  unfold testCluster
  try dsimp only
  (repeat' split) <;> exact ⟨by simp [Stands], fun h => by simp +contextual (maxDischargeDepth := 60) [h]⟩

@[simp] theorem abortLaunch_keeps (s : State) (ln : Launch) : Keeps s (abortLaunch s ln) := by
  unfold abortLaunch
  exact (stopLaunch_keeps _ _ _).trans (.foldl _ _ _ (fun s c => by
    split
    · exact State.modCluster_keeps _ _ _
    · exact .refl s))

@[simp] theorem takeOrder_keeps (c : Nat) (k : Pkt) (s : State) : Keeps s (takeOrder c k s) := by
  unfold takeOrder
  try dsimp only
  (repeat' split) <;> exact ⟨by simp [Stands], fun h => by simp +contextual (maxDischargeDepth := 60) [h]⟩

theorem takeDispatcher_keeps {k : Pkt} {s t : State} (h : takeDispatcher k s = some t) : Keeps s t := by
  unfold takeDispatcher at h
  split at h <;> cases h
  · exact passReset_keeps _ _ _
  · exact receiveRemove_keeps _ _ _

@[simp] theorem takeRequest_keeps (q : Nat) (k : Pkt) (s : State) : Keeps s (takeRequest q k s) := by
  unfold takeRequest
  try dsimp only
  (repeat' split) <;> exact ⟨by simp [Stands], fun h => by simp +contextual (maxDischargeDepth := 60) [h]⟩

@[simp] theorem takeGddr_keeps (q : Nat) (k : Pkt) (s : State) : Keeps s (takeGddr q k s) := by
  unfold takeGddr
  try dsimp only
  (repeat' split) <;> exact ⟨by simp [Stands], fun h => by simp +contextual (maxDischargeDepth := 60) [h]⟩

@[simp] theorem takeCxl_keeps (d : Nat) (k : Pkt) (s : State) : Keeps s (takeCxl d k s) := by
  unfold takeCxl
  try dsimp only
  (repeat' split) <;> exact ⟨by simp [Stands], fun h => by simp +contextual (maxDischargeDepth := 60) [h]⟩

@[simp] theorem takeSilk_keeps (p : Nat) (k : Pkt) (s : State) : Keeps s (takeSilk p k s) := by
  unfold takeSilk
  try dsimp only
  (repeat' split) <;> exact ⟨by simp [Stands], fun h => by simp +contextual (maxDischargeDepth := 60) [h]⟩

theorem takePacket_keeps {s t : State} {node : RNode} {o : Nat} {k : Pkt} (h : takePacket s node o k = some t) : Keeps s t := by
  unfold takePacket at h
  split at h
  · cases h; exact deliverCore_keeps _ _ _ _
  · split at h
    · cases h; exact takeOrder_keeps _ _ _
    · split at h
      · cases h; exact serveCrossbar_keeps _ _ _
      · split at h
        · obtain ⟨q, -, h⟩ := Option.map_eq_some_iff.mp h
          cases h; exact takeGddr_keeps _ _ _
        · cases h
  · split at h
    · exact takeDispatcher_keeps h
    · split at h
      · cases h; exact takeCxl_keeps _ _ _
      · split at h
        · cases h; exact takeSilk_keeps _ _ _
        · cases h
  · cases h

theorem movePacket_keeps {s t : State} {n : Nat} {k : Pkt} {bad : BitVec 17} (h : movePacket s n k bad = some t) :
    Keeps s t := by
  unfold movePacket at h
  dsimp only at h
  split at h
  · split at h <;> cases h
    exact (((popFifo_keeps s n).trans (countBad_keeps _ _ _)).trans (noteServed_keeps _ _ _)).trans (pushAll_keeps _ _)
  · split at h
    · exact ((popFifo_keeps s n).trans (countBad_keeps _ _ _)).trans (takePacket_keeps h)
    · cases h

@[simp] theorem readHead_keeps (s : State) (n : Nat) (k : Pkt) (bad : BitVec 17) : Keeps s (readHead s n k bad) := by
  unfold readHead
  try dsimp only
  (repeat' split) <;> exact ⟨by simp [Stands], fun h => by simp +contextual (maxDischargeDepth := 60) [h]⟩

@[simp] theorem ackSources_keeps (s : State) (c : Nat) (k : Pkt) : Keeps s (ackSources s c k) := by
  unfold ackSources
  try dsimp only
  (repeat' split) <;> exact ⟨by simp [Stands], fun h => by simp +contextual (maxDischargeDepth := 60) [h]⟩

@[simp] theorem takePartial_keeps (c : Nat) (k : Pkt) (s : State) : Keeps s (takePartial c k s) := by
  unfold takePartial
  try dsimp only
  (repeat' split) <;> exact ⟨by simp [Stands], fun h => by simp +contextual (maxDischargeDepth := 60) [h]⟩

@[simp] theorem assertReset_keeps (s : State) : Keeps s (assertReset s) := by
  unfold assertReset
  try dsimp only
  (repeat' split) <;> exact ⟨by simp [Stands], fun h => by simp +contextual (maxDischargeDepth := 60) [h]⟩

@[simp] theorem trainHost_keeps (width speed : Nat) (s : State) : Keeps s (trainHost width speed s) := by
  unfold trainHost
  try dsimp only
  (repeat' split) <;> exact ⟨by simp [Stands], fun h => by simp +contextual (maxDischargeDepth := 60) [h]⟩

@[simp] theorem endAll_keeps (s : State) : Keeps s (endAll s) := by
  unfold endAll
  exact (withdraw_keeps _ _).trans ⟨.refl _, fun h => h⟩

@[simp] theorem discardDrains_keeps (s : State) : Keeps s (discardDrains s) := by
  unfold discardDrains
  try dsimp only
  (repeat' split) <;> exact ⟨by simp [Stands], fun h => by simp +contextual (maxDischargeDepth := 60) [h]⟩

@[simp] theorem endSanitise_keeps (s : State) : Keeps s (endSanitise s) := by
  unfold endSanitise
  try dsimp only
  (repeat' split) <;> exact ⟨by simp [Stands], fun h => by simp +contextual (maxDischargeDepth := 60) [h]⟩

@[simp] theorem abandonUpload_keeps (s : State) : Keeps s (abandonUpload s) := by
  unfold abandonUpload
  try dsimp only
  (repeat' split) <;> exact ⟨by simp [Stands], fun h => by simp +contextual (maxDischargeDepth := 60) [h]⟩

@[simp] theorem writeClu_keeps (c off : Nat) (w : SlotWrite) (s : State) : Keeps s (writeClu c off w s) := by
  unfold writeClu
  try dsimp only
  (repeat' split) <;> exact ⟨by simp [Stands], fun h => by simp +contextual (maxDischargeDepth := 60) [h]⟩

@[simp] theorem writeCore_keeps (c l off : Nat) (w : SlotWrite) (s : State) : Keeps s (writeCore c l off w s) := by
  unfold writeCore
  try dsimp only
  (repeat' split) <;> exact ⟨by simp [Stands], fun h => by simp +contextual (maxDischargeDepth := 60) [h]⟩

@[simp] theorem writeMemc_keeps (off : Nat) (w : SlotWrite) (s : State) : Keeps s (writeMemc off w s) := by
  unfold writeMemc
  try dsimp only
  (repeat' split) <;> exact ⟨by simp [Stands], fun h => by simp +contextual (maxDischargeDepth := 60) [h]⟩

@[simp] theorem writeSilk_keeps (off : Nat) (w : SlotWrite) (s : State) : Keeps s (writeSilk off w s) := by
  unfold writeSilk
  try dsimp only
  (repeat' split) <;> exact ⟨by simp [Stands], fun h => by simp +contextual (maxDischargeDepth := 60) [h]⟩

@[simp] theorem writeDisp_keeps (off : Nat) (w : SlotWrite) (s : State) : Keeps s (writeDisp off w s) := by
  unfold writeDisp
  try dsimp only
  (repeat' split) <;> exact ⟨by simp [Stands], fun h => by simp +contextual (maxDischargeDepth := 60) [h]⟩

@[simp] theorem writeMsix_keeps (o : Nat) (w : SlotWrite) (s : State) : Keeps s (writeMsix o w s) := by
  unfold writeMsix
  try dsimp only
  (repeat' split) <;> exact ⟨by simp [Stands], fun h => by simp +contextual (maxDischargeDepth := 60) [h]⟩

@[simp] theorem writeDoorbell_keeps (q off : Nat) (w : SlotWrite) (s : State) : Keeps s (writeDoorbell q off w s) := by
  unfold writeDoorbell
  try dsimp only
  (repeat' split) <;> exact ⟨by simp [Stands], fun h => by simp +contextual (maxDischargeDepth := 60) [h]⟩

@[simp] theorem writeSync_keeps (off : Nat) (w : SlotWrite) (s : State) : Keeps s (writeSync off w s) := by
  unfold writeSync
  try dsimp only
  (repeat' split) <;> exact ⟨by simp [Stands], fun h => by simp +contextual (maxDischargeDepth := 60) [h]⟩

@[simp] theorem writeBox_keeps (m off : Nat) (w : SlotWrite) (s : State) : Keeps s (writeBox m off w s) := by
  unfold writeBox
  try dsimp only
  (repeat' split) <;> exact ⟨by simp [Stands], fun h => by simp +contextual (maxDischargeDepth := 60) [h]⟩

@[simp] theorem writeMgmt_keeps (off : Nat) (w : SlotWrite) (s : State) : Keeps s (writeMgmt off w s) := by
  unfold writeMgmt
  try dsimp only
  (repeat' split) <;> exact ⟨by simp [Stands], fun h => by simp +contextual (maxDischargeDepth := 60) [h]⟩

@[simp] theorem writeBar_keeps (o : Nat) (w : SlotWrite) (s : State) : Keeps s (writeBar o w s) := by
  unfold writeBar
  try dsimp only
  (repeat' split) <;> exact ⟨by simp [Stands], fun h => by simp +contextual (maxDischargeDepth := 60) [h]⟩

@[simp] theorem writeSlot_keeps (src : Source) (a : Nat) (w : SlotWrite) (s : State) : Keeps s (writeSlot src a w s) := by
  unfold writeSlot
  extract_lets o
  clear_value o
  refine .ite _ (.refl s) (.ite _ (writeClu_keeps _ _ _ _) (.ite _ ?_ (.ite _ ?_ (.ite _ (writeCore_keeps _ _ _ _ _)
    (.ite _ (.refl s) (.ite _ (writeMemc_keeps _ _ _) (.ite _ (State.setGdc_keeps _ _ _) (.ite _ (State.setCxl_keeps _ _ _)
    (.ite _ (writeSilk_keeps _ _ _) (.ite _ (.ite _ (writeBar_keeps _ _ _) (.refl s)) (.ite _ ?_ (.refl s))))))))))))
  all_goals exact ⟨.refl s, fun h => h⟩

@[simp] theorem writeReg_keeps (src : Source) (a size : Nat) (v : Word) (s : State) : Keeps s (writeReg src a size v s) := by
  unfold writeReg
  try dsimp only
  (repeat' split) <;> exact ⟨by simp [Stands], fun h => by simp +contextual (maxDischargeDepth := 60) [h]⟩

@[simp] theorem apertureAbort_keeps (write : Bool) (a : Nat) (s : State) : Keeps s (apertureAbort write a s) := by
  unfold apertureAbort
  try dsimp only
  (repeat' split) <;> exact ⟨by simp [Stands], fun h => by simp +contextual (maxDischargeDepth := 60) [h]⟩

@[simp] theorem apertureRead_keeps (a n : Nat) (s : State) : Keeps s (apertureRead a n s) := by
  unfold apertureRead
  try dsimp only
  (repeat' split) <;> exact ⟨by simp [Stands], fun h => by simp +contextual (maxDischargeDepth := 60) [h]⟩

@[simp] theorem apertureWrite_keeps (a : Nat) (data : List Byte) (poisoned : Bool) (s : State) :
    Keeps s (apertureWrite a data poisoned s) := by
  unfold apertureWrite
  try dsimp only
  (repeat' split) <;> exact ⟨by simp [Stands], fun h => by simp +contextual (maxDischargeDepth := 60) [h]⟩

@[simp] theorem sendTo_keeps (dev : Nat) (k : SilkPkt) (s : State) : Keeps s (sendTo dev k s) := by
  unfold sendTo
  try dsimp only
  (repeat' split) <;> exact ⟨by simp [Stands], fun h => by simp +contextual (maxDischargeDepth := 60) [h]⟩

@[simp] theorem refuse_keeps (typ src tag addr : Nat) (last : Bool) (s : State) : Keeps s (refuse typ src tag addr last s) := by
  unfold refuse
  try dsimp only
  (repeat' split) <;> exact ⟨by simp [Stands], fun h => by simp +contextual (maxDischargeDepth := 60) [h]⟩

@[simp] theorem performRead_keeps (src tag addr length : Nat) (s : State) : Keeps s (performRead src tag addr length s) := by
  unfold performRead
  try dsimp only
  (repeat' split) <;> exact ⟨by simp [Stands], fun h => by simp +contextual (maxDischargeDepth := 60) [h]⟩

@[simp] theorem performWrite_keeps (src tag addr : Nat) (data : List Byte) (last : Bool) (s : State) :
    Keeps s (performWrite src tag addr data last s) := by
  unfold performWrite
  try dsimp only
  (repeat' split) <;> exact ⟨by simp [Stands], fun h => by simp +contextual (maxDischargeDepth := 60) [h]⟩

@[simp] theorem performPeerAtomic_keeps (src tag kind addr : Nat) (a b : Word) (s : State) :
    Keeps s (performPeerAtomic src tag kind addr a b s) := by
  unfold performPeerAtomic
  try dsimp only
  (repeat' split) <;> exact ⟨by simp [Stands], fun h => by simp +contextual (maxDischargeDepth := 60) [h]⟩

@[simp] theorem showPeer_keeps (g : Nat) (data : List Byte) (m : BitVec 128) (s : State) : Keeps s (showPeer g data m s) := by
  exact ⟨.refl s, fun h => h⟩

@[simp] theorem takeData_keeps (t : Txn) (data : List Byte) (m : BitVec 128) (last : Bool) (s : State) :
    Keeps s (takeData t data m last s) := by
  unfold takeData
  try dsimp only
  (repeat' split) <;> exact ⟨by simp [Stands], fun h => by simp +contextual (maxDischargeDepth := 60) [h]⟩

@[simp] theorem endTxn_keeps (t : Txn) (data : List Byte) (m : BitVec 128) (s : State) : Keeps s (endTxn t data m s) := by
  unfold endTxn
  dsimp only
  refine (dropTxn_keeps t s).trans (Keeps.trans ?_ (afterTxn_keeps _ _))
  have h1 : ∀ u : State, Keeps u { u with mem := { u.mem with peer := showBytes u.mem.peer t.addr t.data } } :=
    fun u => ⟨.refl u, fun h => h⟩
  (repeat' split) <;> first
    | exact (h1 _).trans (barrierAnswer_keeps _ _ _ _)
    | exact (h1 _).trans (pushPort_keeps _ _ _)
    | exact h1 _
    | exact barrierAnswer_keeps _ _ _ _
    | exact .refl _

@[simp] theorem takeResponse_keeps (t : Txn) (data : List Byte) (m : BitVec 128) (last : Bool) (s : State) :
    Keeps s (takeResponse t data m last s) := by
  unfold takeResponse
  try dsimp only
  (repeat' split) <;> exact ⟨by simp [Stands], fun h => by simp +contextual (maxDischargeDepth := 60) [h]⟩

@[simp] theorem refusedTxn_keeps (t : Txn) (s : State) : Keeps s (refusedTxn t s) := by
  unfold refusedTxn
  try dsimp only
  (repeat' split) <;> exact ⟨by simp [Stands], fun h => by simp +contextual (maxDischargeDepth := 60) [h]⟩

@[simp] theorem respondTxn_keeps (src tag status : Nat) (data : List Byte) (m : BitVec 128) (last : Bool) (s : State) :
    Keeps s (respondTxn src tag status data m last s) := by
  unfold respondTxn
  try dsimp only
  (repeat' split) <;> exact ⟨by simp [Stands], fun h => by simp +contextual (maxDischargeDepth := 60) [h]⟩

@[simp] theorem timeOut_keeps (t : Txn) (s : State) : Keeps s (timeOut t s) := by
  unfold timeOut
  try dsimp only
  (repeat' split) <;> exact ⟨by simp [Stands], fun h => by simp +contextual (maxDischargeDepth := 60) [h]⟩

theorem loadPiece_keeps {ln : Launch} {c l va n off : Nat} {x y : State × List Txn} (h : loadPiece ln c l va n off x = .ok y) :
    Keeps x.1 y.1 := by
  unfold loadPiece at h
  dsimp only at h
  have h0 := (translate_keeps c ln.asid va false x.1).trans (heatCount_keeps c ln.asid va n _)
  split at h
  · cases h
  · split at h
    · cases h
    · split at h
      · cases h; exact h0.trans (throughEgress_keeps _ _ _ _ _)
      · split at h
        · cases h
        · split at h <;> cases h
          exact (h0.trans (throughEgress_keeps _ _ _ _ _)).trans ((readThrough_keeps _ _ _ _ _).trans (coreWrite_keeps _ _ _ _ _))

theorem loadPieces_keeps {ln : Launch} {c l : Nat} {ps : List ((Nat × Nat) × Nat)} {x y : State × List Txn}
    (h : loadPieces ln c l ps x = .ok y) : Keeps x.1 y.1 := by
  induction ps generalizing x with
  | nil => cases h; exact .refl _
  | cons p ps ih =>
    unfold loadPieces at h
    split at h
    · cases h
    · rename_i u hu
      exact (loadPiece_keeps hu).trans (ih h)

theorem storePiece_keeps {ln : Launch} {c l va off n : Nat} {x y : State × List Txn}
    (h : storePiece ln c l va off n x = .ok y) : Keeps x.1 y.1 := by
  unfold storePiece at h
  dsimp only at h
  have h0 := (translate_keeps c ln.asid va true x.1).trans (heatCount_keeps c ln.asid va n _)
  split at h
  · cases h
  · split at h
    · cases h
    · split at h
      · cases h; exact h0.trans (throughEgress_keeps _ _ _ _ _)
      · split at h <;> cases h
        rename_i u hu
        exact (h0.trans (throughEgress_keeps _ _ _ _ _)).trans (leafWrite_keeps hu)

theorem storePieces_keeps {ln : Launch} {c l : Nat} {ps : List ((Nat × Nat) × Nat)} {x y : State × List Txn}
    (h : storePieces ln c l ps x = .ok y) : Keeps x.1 y.1 := by
  induction ps generalizing x with
  | nil => cases h; exact .refl _
  | cons p ps ih =>
    unfold storePieces at h
    split at h
    · cases h
    · rename_i u hu
      exact (storePiece_keeps hu).trans (ih h)

@[simp] theorem sendPackets_keeps (c l acks : Nat) (ps : List Pkt) (s : State) : Keeps s (sendPackets c l acks ps s) := by
  unfold sendPackets
  try dsimp only
  (repeat' split) <;> exact ⟨by simp [Stands], fun h => by simp +contextual (maxDischargeDepth := 60) [h]⟩

@[simp] theorem shifted_keeps (code : BitVec 8) (t : Tap) (bits width : Nat) (s : State) :
    Keeps s (shifted code t bits width s) := by
  unfold shifted
  try dsimp only
  (repeat' split) <;> exact ⟨by simp [Stands], fun h => by simp +contextual (maxDischargeDepth := 60) [h]⟩

@[simp] theorem captureBoundary_keeps (code : BitVec 8) (pins : BitVec 6) (s : State) :
    Keeps s (captureBoundary code pins s) := by
  unfold captureBoundary
  try dsimp only
  (repeat' split) <;> exact ⟨by simp [Stands], fun h => by simp +contextual (maxDischargeDepth := 60) [h]⟩

@[simp] theorem setSync3_keeps (f : Sync3 → Sync3) (s : State) : Keeps s (setSync3 f s) := by
  unfold setSync3
  try dsimp only
  (repeat' split) <;> exact ⟨by simp [Stands], fun h => by simp +contextual (maxDischargeDepth := 60) [h]⟩

@[simp] theorem correct_keeps (th : Int) (s : State) : Keeps s (correct th s) := by
  unfold correct
  try dsimp only
  (repeat' split) <;> exact ⟨by simp [Stands], fun h => by simp +contextual (maxDischargeDepth := 60) [h]⟩

@[simp] theorem loseSync_keeps (s : State) : Keeps s (loseSync s) := by
  unfold loseSync
  try dsimp only
  (repeat' split) <;> exact ⟨by simp [Stands], fun h => by simp +contextual (maxDischargeDepth := 60) [h]⟩

@[simp] theorem setOffsets_keeps (th d : Int) (s : State) : Keeps s (setOffsets th d s) := by
  unfold setOffsets
  try dsimp only
  (repeat' split) <;> exact ⟨by simp [Stands], fun h => by simp +contextual (maxDischargeDepth := 60) [h]⟩

@[simp] theorem applyOffset_keeps (th : Int) (s : State) : Keeps s (applyOffset th s) := by
  unfold applyOffset
  try dsimp only
  (repeat' split) <;> exact ⟨by simp [Stands], fun h => by simp +contextual (maxDischargeDepth := 60) [h]⟩

@[simp] theorem missMeasurement_keeps (s : State) : Keeps s (missMeasurement s) := by
  unfold missMeasurement
  try dsimp only
  (repeat' split) <;> exact ⟨by simp [Stands], fun h => by simp +contextual (maxDischargeDepth := 60) [h]⟩

@[simp] theorem convSat_keeps (c l : Nat) (b : Bool) (s : State) : Keeps s (convSat c l b s) := by
  unfold convSat
  try dsimp only
  (repeat' split) <;> exact ⟨by simp [Stands], fun h => by simp +contextual (maxDischargeDepth := 60) [h]⟩

@[simp] theorem writeResult_keeps (c l : Nat) (d : Desc) (mode : Nat) (rows : List (List Val)) (sat : Bool) (s : State) :
    Keeps s (writeResult c l d mode rows sat s) := by
  unfold writeResult
  try dsimp only
  (repeat' split) <;> exact ⟨by simp [Stands], fun h => by simp +contextual (maxDischargeDepth := 60) [h]⟩

/-! ## Operations that carry another one out -/

theorem needs_keeps {c : Bool} {s t u : State} (h : needs c u s = .next t) (hu : Keeps s u) : Keeps s t := by
  unfold needs at h
  split at h <;> cases h
  · exact hu
  · exact .refl _

theorem engineOp_keeps {s t : State} {c code : Nat} {e : Engine} {worst : OpWord → Nat} {f : Launch → OpWord → CoreWork}
    (hf : ∀ ln o s l t, f ln o s l = .ok t → Keeps s t) (h : engineOp s c code e worst f = .next t) : Keeps s t := by
  unfold engineOp at h
  split at h
  · cases h; exact .refl _
  · dsimp only at h
    split at h <;> cases h
    · rename_i hu
      exact (runCores_keeps (hf _ _) hu).trans ((Keeps.foldl _ _ _ (fun s l => countOp_keeps _ _ _ _ s l)).trans (advance_keeps _ _))
    · exact stopCore_keeps _ _ _ _ _ _

theorem controlOp_keeps {s t : State} {c code : Nat} {f : Launch → OpWord → State → Except CoreStop State}
    (hf : ∀ ln o s t, f ln o s = .ok t → Keeps s t) (h : controlOp s c code f = .next t) : Keeps s t := by
  unfold controlOp at h
  split at h
  · cases h; exact .refl _
  · split at h
    · cases h; exact advance_keeps _ _
    · split at h <;> cases h
      · rename_i hu
        exact (hf _ _ _ _ hu).trans (advance_keeps _ _)
      · exact stopUnit_keeps _ _ _ _

theorem Cmd.run_keeps {c : Cmd} {m : Nat} {b : List Byte} {s : State} (hc : ∀ m b s x, c.act m b s = .ok x → Keeps s x.1) :
    Keeps s (c.run m b s) := by
  unfold Cmd.run
  split
  · exact respond_keeps _ _ _ _ _
  · split
    · exact respond_keeps _ _ _ _ _
    · rename_i hx
      exact (hc _ _ _ _ hx).trans (respond_keeps _ _ _ _ _)
    · rename_i hx
      exact (hc _ _ _ _ hx).trans (State.setBox_keeps _ _ _)

theorem serve_keeps {m : Nat} {want : List Byte → Bool} {c : Cmd} {s t : State}
    (hc : ∀ m b s x, c.act m b s = .ok x → Keeps s x.1) (h : serve m want c s = .next t) : Keeps s t := by
  unfold serve at h
  split at h
  · cases h; exact .refl _
  · exact needs_keeps h ((popRequest_keeps m s).trans (Cmd.run_keeps hc))

theorem drainRound_keeps {d : Drain} {done : State → State} {s : State} (hd : ∀ s, Keeps s (done s)) :
    Keeps s (drainRound d done s) := by
  unfold drainRound
  dsimp only
  split
  · exact (dropRange_keeps d s).trans (hd _)
  · exact (drainAll_keeps d s).trans (sendResult_keeps _ _ _)

end Sys2Proof.Machine
end

