-- ==== Sys2Proof/Laws/PerInstr.lean ====
section
/-! SUPPORT. The family NoWord, instruction by instruction: the table gives no row any bits, so no word spells a command. -/

namespace Sys2Proof.Laws.NoWord

/-- No word of any width decodes to the command. -/
def Statement (i : Instr) : Prop := ∀ nbits w, decodeTableWord nbits w ≠ some i

theorem noWord (i : Instr) : Statement i := fun _ _ h => nomatch h

theorem powerGood (boostEn complyEn rsvdA rsvdB : Bool) (width speed : Nat) :
    Statement (.powerGood boostEn complyEn rsvdA rsvdB width speed) := noWord _
theorem resetInput (ns : Nat) : Statement (.resetInput ns) := noWord _
theorem refclkLoss (ns : Nat) : Statement (.refclkLoss ns) := noWord _
theorem coldPowerUp (ns : Nat) (regulator : Bool) : Statement (.coldPowerUp ns regulator) := noWord _
theorem thermalTrip (sensor : Nat) (eighths : Int) : Statement (.thermalTrip sensor eighths) := noWord _
theorem functionLevelReset : Statement .functionLevelReset := noWord _
theorem laserLoss (engine : Nat) : Statement (.laserLoss engine) := noWord _
theorem tapReset : Statement .tapReset := noWord _
theorem extest (pins : BitVec 6) : Statement (.extest pins) := noWord _
theorem samplePreload (pins : BitVec 6) : Statement (.samplePreload pins) := noWord _
theorem idcode : Statement .idcode := noWord _
theorem optLoop (value : BitVec 72) : Statement (.optLoop value) := noWord _
theorem optResult (locked : BitVec 18) (errors : List Nat) : Statement (.optResult locked errors) := noWord _
theorem bypass (tdi : Bool) : Statement (.bypass tdi) := noWord _
theorem bar0BadAccess (write : Bool) (offset size : Nat) : Statement (.bar0BadAccess write offset size) := noWord _
theorem apertureRead (offset size : Nat) : Statement (.apertureRead offset size) := noWord _
theorem apertureWrite (offset : Nat) (data : List Byte) (poisoned : Bool) :
    Statement (.apertureWrite offset data poisoned) := noWord _
theorem registerWrite (source : Source) (addr size : Nat) (value : Word) :
    Statement (.registerWrite source addr size value) := noWord _
theorem sqTailWrite (q : Nat) (v : Word32) : Statement (.sqTailWrite q v) := noWord _
theorem cqHeadWrite (q : Nat) (v : Word32) : Statement (.cqHeadWrite q v) := noWord _
theorem cqArmWrite (q : Nat) (arm : Bool) : Statement (.cqArmWrite q arm) := noWord _
theorem queueEnable (q : Nat) : Statement (.queueEnable q) := noWord _
theorem queueDisable (q : Nat) : Statement (.queueDisable q) := noWord _
theorem syncValueWrite (n : Nat) (v : Word) : Statement (.syncValueWrite n v) := noWord _
theorem syncOwnerWrite (g : Nat) (v : Word32) : Statement (.syncOwnerWrite g v) := noWord _
theorem invalPage (asid : BitVec 12) : Statement (.invalPage asid) := noWord _
theorem invalAddressSpace (asid : BitVec 12) : Statement (.invalAddressSpace asid) := noWord _
theorem invalAll (asid : BitVec 12) : Statement (.invalAll asid) := noWord _
theorem invalReservedScope (asid : BitVec 12) : Statement (.invalReservedScope asid) := noWord _
theorem invalidationComplete : Statement .invalidationComplete := noWord _
theorem migHoldRequest (asid : BitVec 12) (all : Bool) : Statement (.migHoldRequest asid all) := noWord _
theorem migHoldRelease (asid : BitVec 12) (all : Bool) : Statement (.migHoldRelease asid all) := noWord _
theorem migHoldHeld : Statement .migHoldHeld := noWord _
theorem silkRouteWrite (n : Nat) (ports : BitVec 12) : Statement (.silkRouteWrite n ports) := noWord _
theorem mbReqWrite (m : Nat) (w : Word) : Statement (.mbReqWrite m w) := noWord _
theorem mbCommit (m : Nat) (poison : Bool) : Statement (.mbCommit m poison) := noWord _
theorem mbAbort (m : Nat) : Statement (.mbAbort m) := noWord _
theorem mbFlush (m : Nat) : Statement (.mbFlush m) := noWord _
theorem mbRspRead (m : Nat) : Statement (.mbRspRead m) := noWord _
theorem mbResponseWrite (m : Nat) : Statement (.mbResponseWrite m) := noWord _
theorem identify (m : Nat) : Statement (.identify m) := noWord _
theorem configSet (m : Nat) : Statement (.configSet m) := noWord _
theorem oppointGet (m : Nat) : Statement (.oppointGet m) := noWord _
theorem oppointSet (m : Nat) : Statement (.oppointSet m) := noWord _
theorem admissionRead (m : Nat) : Statement (.admissionRead m) := noWord _
theorem coreMapReport (m : Nat) : Statement (.coreMapReport m) := noWord _
theorem coreMapFence (m : Nat) : Statement (.coreMapFence m) := noWord _
theorem coreMapRetireSlice (m : Nat) : Statement (.coreMapRetireSlice m) := noWord _
theorem coreMapClusterReset (m : Nat) : Statement (.coreMapClusterReset m) := noWord _
theorem tierPolicySet (m : Nat) : Statement (.tierPolicySet m) := noWord _
theorem tierPolicyGet (m : Nat) : Statement (.tierPolicyGet m) := noWord _
theorem framePoolAdd (m : Nat) : Statement (.framePoolAdd m) := noWord _
theorem framePoolRemove (m : Nat) : Statement (.framePoolRemove m) := noWord _
theorem framePoolQuery (m : Nat) : Statement (.framePoolQuery m) := noWord _
theorem topologyRead (m : Nat) : Statement (.topologyRead m) := noWord _
theorem telemetryRead (m : Nat) : Statement (.telemetryRead m) := noWord _
theorem eventRead (m : Nat) : Statement (.eventRead m) := noWord _
theorem linkRetireChannel (m : Nat) : Statement (.linkRetireChannel m) := noWord _
theorem linkAddExpander (m : Nat) : Statement (.linkAddExpander m) := noWord _
theorem linkRemoveExpander (m : Nat) : Statement (.linkRemoveExpander m) := noWord _
theorem linkRetrainLane (m : Nat) : Statement (.linkRetrainLane m) := noWord _
theorem linkOe17Takeover (m : Nat) : Statement (.linkOe17Takeover m) := noWord _
theorem linkOe17Handback (m : Nat) : Statement (.linkOe17Handback m) := noWord _
theorem linkSetSyncRole (m : Nat) : Statement (.linkSetSyncRole m) := noWord _
theorem fwBegin (m : Nat) : Statement (.fwBegin m) := noWord _
theorem fwData (m : Nat) : Statement (.fwData m) := noWord _
theorem fwCommit (m : Nat) : Statement (.fwCommit m) := noWord _
theorem fwAbort (m : Nat) : Statement (.fwAbort m) := noWord _
theorem sanitise (m : Nat) : Statement (.sanitise m) := noWord _
theorem attest (m : Nat) : Statement (.attest m) := noWord _
theorem pairSet (m : Nat) : Statement (.pairSet m) := noWord _
theorem opStatus (m : Nat) : Statement (.opStatus m) := noWord _
theorem eventRecord : Statement .eventRecord := noWord _
theorem counterSnapshot : Statement .counterSnapshot := noWord _
theorem heatSnapshot : Statement .heatSnapshot := noWord _
theorem telemetryRefresh (temps : List Int) (supplies powers : List Nat) :
    Statement (.telemetryRefresh temps supplies powers) := noWord _
theorem faultReport (cluster position : Nat) (addr : Nat) (decision : Decision) :
    Statement (.faultReport cluster position addr decision) := noWord _
theorem fenceOrder (c : Nat) : Statement (.fenceOrder c) := noWord _
theorem clusterUnitFault (c : Nat) : Statement (.clusterUnitFault c) := noWord _
theorem routerFault (die : Nat) : Statement (.routerFault die) := noWord _
theorem retireSliceOrder (c : Nat) : Statement (.retireSliceOrder c) := noWord _
theorem channelRetireOrder (q k : Nat) : Statement (.channelRetireOrder q k) := noWord _
theorem channelRetireComplete (q k : Nat) : Statement (.channelRetireComplete q k) := noWord _
theorem cxlDeviceAdded (port capacity : Nat) (switched : Bool) (lanes speed : Nat) :
    Statement (.cxlDeviceAdded port capacity switched lanes speed) := noWord _
theorem cxlDeviceRemoved (port base : Nat) : Statement (.cxlDeviceRemoved port base) := noWord _
theorem pageRetireOrder (asid va tier : Nat) : Statement (.pageRetireOrder asid va tier) := noWord _
theorem migrationComplete (asid va : Nat) : Statement (.migrationComplete asid va) := noWord _
theorem handoverOrder (c : Nat) (runs : Bool) : Statement (.handoverOrder c runs) := noWord _
theorem dispatcherHandover : Statement .dispatcherHandover := noWord _
theorem mantisHandover : Statement .mantisHandover := noWord _
theorem firmwareReady (test : SelfTest) : Statement (.firmwareReady test) := noWord _
theorem svnFuseBlown : Statement .svnFuseBlown := noWord _
theorem clusterTestOrder (c : Nat) (passed : Bool) : Statement (.clusterTestOrder c passed) := noWord _
theorem sanitiseOrder (failedWords : Nat) : Statement (.sanitiseOrder failedWords) := noWord _
theorem sanitiseComplete : Statement .sanitiseComplete := noWord _
theorem abortOrder (die : Nat) : Statement (.abortOrder die) := noWord _
theorem rampBegin : Statement .rampBegin := noWord _
theorem rampEnd : Statement .rampEnd := noWord _
theorem launchFetch (q : Nat) : Statement (.launchFetch q) := noWord _
theorem dependencyCycle (launches : List Nat) : Statement (.dependencyCycle launches) := noWord _
theorem preload (c : Nat) : Statement (.preload c) := noWord _
theorem launchStart (id : Nat) : Statement (.launchStart id) := noWord _
theorem barrierComplete (id : Nat) : Statement (.barrierComplete id) := noWord _
theorem launchComplete (id : Nat) : Statement (.launchComplete id) := noWord _
theorem pacedStepStart (c : Nat) : Statement (.pacedStepStart c) := noWord _
theorem launchWideStepEnd (id : Nat) : Statement (.launchWideStepEnd id) := noWord _
theorem stepBoundExpiry (id : Nat) : Statement (.stepBoundExpiry id) := noWord _
theorem stepRecompute (c : Nat) : Statement (.stepRecompute c) := noWord _
theorem nop (c : Nat) : Statement (.nop c) := noWord _
theorem stepEnd (c : Nat) : Statement (.stepEnd c) := noWord _
theorem sync (c : Nat) : Statement (.sync c) := noWord _
theorem time (c : Nat) : Statement (.time c) := noWord _
theorem entropy (c : Nat) : Statement (.entropy c) := noWord _
theorem rclear (c : Nat) : Statement (.rclear c) := noWord _
theorem rdrain (c : Nat) : Statement (.rdrain c) := noWord _
theorem clear (c : Nat) : Statement (.clear c) := noWord _
theorem mma (c : Nat) : Statement (.mma c) := noWord _
theorem drain (c : Nat) : Statement (.drain c) := noWord _
theorem vconv (c : Nat) : Statement (.vconv c) := noWord _
theorem vquant (c : Nat) : Statement (.vquant c) := noWord _
theorem vbin (c : Nat) : Statement (.vbin c) := noWord _
theorem vfma (c : Nat) : Statement (.vfma c) := noWord _
theorem vfunc (c : Nat) : Statement (.vfunc c) := noWord _
theorem vred (c : Nat) : Statement (.vred c) := noWord _
theorem vbits (c : Nat) : Statement (.vbits c) := noWord _
theorem load (c : Nat) : Statement (.load c) := noWord _
theorem store (c : Nat) : Statement (.store c) := noWord _
theorem send (c : Nat) : Statement (.send c) := noWord _
theorem mcast (c : Nat) : Statement (.mcast c) := noWord _
theorem reduce (c : Nat) : Statement (.reduce c) := noWord _
theorem counters (c : Nat) : Statement (.counters c) := noWord _
theorem anneal (c : Nat) : Statement (.anneal c) := noWord _
theorem gibbs (c : Nat) : Statement (.gibbs c) := noWord _
theorem loadimg (c : Nat) : Statement (.loadimg c) := noWord _
theorem ctxread (c : Nat) : Statement (.ctxread c) := noWord _
theorem release (c : Nat) : Statement (.release c) := noWord _
theorem annealPhase (ctx : Nat) : Statement (.annealPhase ctx) := noWord _
theorem sweepEnd (ctx : Nat) : Statement (.sweepEnd ctx) := noWord _
theorem rotationStart (ctx : Nat) : Statement (.rotationStart ctx) := noWord _
theorem checkpointWrite (ctx : Nat) : Statement (.checkpointWrite ctx) := noWord _
theorem traceRingWrite (c : Nat) : Statement (.traceRingWrite c) := noWord _
theorem reportPacket (ctx sender : Nat) : Statement (.reportPacket ctx sender) := noWord _
theorem reportTimeout (ctx : Nat) : Statement (.reportTimeout ctx) := noWord _
theorem reductionPartialArrival (c : Nat) : Statement (.reductionPartialArrival c) := noWord _
theorem routerPacket (fifo : Nat) (badMain badCopy : BitVec 8) (badFlits : BitVec 17) :
    Statement (.routerPacket fifo badMain badCopy badFlits) := noWord _
theorem mcastPacketAccept (fifo : Nat) : Statement (.mcastPacketAccept fifo) := noWord _
theorem gddr7Burst (addr : Nat) (write : Bool) (crcFails : Nat) (ecc : Nat) :
    Statement (.gddr7Burst addr write crcFails ecc) := noWord _
theorem gddr7Refresh (q k : Nat) (tempC : Int) : Statement (.gddr7Refresh q k tempC) := noWord _
theorem channelFailed (q k : Nat) : Statement (.channelFailed q k) := noWord _
theorem cxlLinkDown (port : Nat) : Statement (.cxlLinkDown port) := noWord _
theorem silkFrameReceive (p : Nat) (frame : Frame) : Statement (.silkFrameReceive p frame) := noWord _
theorem silkReplayTimeout (p : Nat) : Statement (.silkReplayTimeout p) := noWord _
theorem silkTrainingDone (p : Nat) (lanes : Lanes) (partnerEpoch : BitVec 32) (partnerAck : BitVec 16) (partner : Option Nat) :
    Statement (.silkTrainingDone p lanes partnerEpoch partnerAck partner) := noWord _
theorem silkPortDownTimeout (p : Nat) : Statement (.silkPortDownTimeout p) := noWord _
theorem laneRetrainDone (p : Nat) (ok : Bool) : Statement (.laneRetrainDone p ok) := noWord _
theorem oe17SubstitutionDone (p : Nat) (ok : Bool) : Statement (.oe17SubstitutionDone p ok) := noWord _
theorem hostLinkMoveDone (ok : Bool) (recovered : Bool) : Statement (.hostLinkMoveDone ok recovered) := noWord _
theorem silkReadRequest (src tag : Nat) (addr length : Nat) :
    Statement (.silkReadRequest src tag addr length) := noWord _
theorem silkWrite (src tag : Nat) (addr : Nat) (data : List Byte) (last : Bool) :
    Statement (.silkWrite src tag addr data last) := noWord _
theorem silkAtomic (src tag : Nat) (kind : Nat) (addr : Nat) (a b : Word) :
    Statement (.silkAtomic src tag kind addr a b) := noWord _
theorem silkResponse (src tag : Nat) (status : Nat) (data : List Byte) (poisonMap : BitVec 128) (last : Bool) :
    Statement (.silkResponse src tag status data poisonMap last) := noWord _
theorem silkTransactionTimeout (tag : Nat) : Statement (.silkTransactionTimeout tag) := noWord _
theorem timeRequestSend : Statement .timeRequestSend := noWord _
theorem timeRequest (src : Nat) (t1 t2 : Word) : Statement (.timeRequest src t1 t2) := noWord _
theorem timeResponse (t1 t2 t3 t4 : Word) : Statement (.timeResponse t1 t2 t3 t4) := noWord _
theorem timeMeasurementTimeout : Statement .timeMeasurementTimeout := noWord _
theorem deferredCricketCorrection : Statement .deferredCricketCorrection := noWord _
theorem barrierPoll (id : Nat) : Statement (.barrierPoll id) := noWord _
theorem barrierTimeout (id : Nat) : Statement (.barrierTimeout id) := noWord _
theorem digestPacket (src : Nat) (tag seq sweep : Word) (digest : List Byte) :
    Statement (.digestPacket src tag seq sweep digest) := noWord _
theorem digestTimeout (id : Nat) : Statement (.digestTimeout id) := noWord _
theorem entropySample (counts : List Nat) : Statement (.entropySample counts) := noWord _
theorem healthWindowEnd : Statement .healthWindowEnd := noWord _
theorem generateRequest (requester bits : Nat) : Statement (.generateRequest requester bits) := noWord _
theorem generateDeliver : Statement .generateDeliver := noWord _
theorem badCommand (m : Nat) : Statement (.badCommand m) := noWord _
theorem cxlReadResponse (port addr : Nat) (data : List Byte) (poison : Bool) :
    Statement (.cxlReadResponse port addr data poison) := noWord _
theorem hostReadCompletion (addr : Nat) (data : List Byte) (outcome : HostRead) :
    Statement (.hostReadCompletion addr data outcome) := noWord _
theorem hostLinkDown : Statement .hostLinkDown := noWord _
theorem laserReady (engine : Nat) : Statement (.laserReady engine) := noWord _

end Sys2Proof.Laws.NoWord
end

