-- ==== Sys2Proof/WellFormed.lean ====
section
/-! DEFINITION. Which terms of Instr are commands that can be sent: every operand that numbers a unit of the device is in
that unit's range, every size is one that the row's access has, and every list has the length its pins or reports have.
The meanings do not assume it: a command outside these ranges changes nothing (DESIGN CHOICE, log entry 3). -/

namespace Sys2Proof

namespace WellFormed

/-- A cluster number (R7). -/
def cluster (c : Nat) : Bool := c < 256
/-- A queue number (R801). -/
def queue (q : Nat) : Bool := q < 4096
/-- A synchronisation object (R830). -/
def syncObject (n : Nat) : Bool := n < 65536
/-- A group of synchronisation objects (R831). -/
def syncGroup (g : Nat) : Bool := g < 256
/-- A mailbox pair (R932). -/
def pair (m : Nat) : Bool := m < 8
/-- A Silk port (R698). -/
def port (p : Nat) : Bool := p < 12
/-- A GDDR7 controller and one of its channels (R535). -/
def channel (q k : Nat) : Bool := q < 16 && k < 4
/-- A CXL root port (R555). -/
def cxlPort (p : Nat) : Bool := p < 4
/-- A problem context (R283). -/
def context (x : Nat) : Bool := x < 262144
/-- A Silk device identifier of 12 bits (R717). -/
def device (d : Nat) : Bool := d < 4096
/-- A compute die (R1). -/
def die (d : Nat) : Bool := d < 4
/-- A router output FIFO (DESIGN CHOICE, log entry 21). -/
def fifo (n : Nat) : Bool := n < 306660
/-- A register access of 4 or 8 bytes, naturally aligned (R792). -/
def access (addr size : Nat) : Bool := (size == 4 || size == 8) && addr % size == 0
/-- A Silk frame: four flit slots of 64 bytes, credits of a virtual channel that exists (R702). -/
def frame (f : Frame) : Bool := f.nflits ≤ 4 && f.flits.length == 256 && f.creditVc < 3 && f.creditN ≤ 68
/-- A self-test report names units that exist (R109, R537, R553, R557, R601). -/
def selfTest (t : SelfTest) : Bool :=
  t.rates.length == 16 && t.rates.all (· < 4) && t.cores.all (fun x => x.1 < 256 && x.2 < 64) &&
    t.slices.all (fun x => x.1 < 256 && x.2 < 16) && t.channels.all (fun x => x.1 < 16 && x.2 < 4) &&
    t.expanders.all (fun x => x.1 < 4) && t.links.all (fun x => x.1 < 4 && x.2.1 ≤ 16 && x.2.2.1 < 4)

end WellFormed

open WellFormed in
/-- The command names units that exist. -/
def Instr.wellFormed : Instr → Bool
  | .powerGood _ _ _ _ w sp => w ≤ 8 && sp < 4
  | .thermalTrip n _ => n < 5
  | .laserLoss e | .laserReady e => e < 18
  | .optResult _ es => es.length == 18
  | .bar0BadAccess _ off size => !access off size
  | .apertureWrite _ data _ => !data.isEmpty
  | .registerWrite _ a n _ => access a n
  | .sqTailWrite q _ | .cqHeadWrite q _ | .cqArmWrite q _ | .queueEnable q | .queueDisable q | .launchFetch q => queue q
  | .syncValueWrite n _ => syncObject n
  | .syncOwnerWrite g _ => syncGroup g
  | .silkRouteWrite n _ => device n
  | .mbReqWrite m _ | .mbCommit m _ | .mbAbort m | .mbFlush m | .mbRspRead m | .mbResponseWrite m
  | .identify m | .configSet m | .oppointGet m | .oppointSet m | .admissionRead m
  | .coreMapReport m | .coreMapFence m | .coreMapRetireSlice m | .coreMapClusterReset m
  | .tierPolicySet m | .tierPolicyGet m | .framePoolAdd m | .framePoolRemove m | .framePoolQuery m
  | .topologyRead m | .telemetryRead m | .eventRead m
  | .linkRetireChannel m | .linkAddExpander m | .linkRemoveExpander m | .linkRetrainLane m
  | .linkOe17Takeover m | .linkOe17Handback m | .linkSetSyncRole m
  | .fwBegin m | .fwData m | .fwCommit m | .fwAbort m | .sanitise m | .attest m | .pairSet m | .opStatus m
  | .badCommand m => pair m
  | .telemetryRefresh ts ss ps => ts.length == 5 && ss.length == 5 && ps.length == 5
  | .faultReport c pos _ d => cluster c && pos < 64 && (match d with
      | .nothing => true | .fence p => p < 64 | .retireSlice n => n < 16)
  | .routerFault d => die d
  | .abortOrder d => d ≤ 4
  | .channelRetireOrder q k | .channelRetireComplete q k | .gddr7Refresh q k _ | .channelFailed q k => channel q k
  | .cxlDeviceAdded p _ _ l sp => cxlPort p && l ≤ 16 && sp < 4
  | .cxlDeviceRemoved p _ | .cxlLinkDown p | .cxlReadResponse p _ _ _ => cxlPort p
  | .pageRetireOrder _ _ t => t < 3
  | .firmwareReady t => selfTest t
  | .fenceOrder c | .clusterUnitFault c | .retireSliceOrder c | .handoverOrder c _ | .clusterTestOrder c _
  | .preload c | .pacedStepStart c | .stepRecompute c
  | .nop c | .stepEnd c | .sync c | .time c | .entropy c | .rclear c | .rdrain c | .clear c | .mma c | .drain c
  | .vconv c | .vquant c | .vbin c | .vfma c | .vfunc c | .vred c | .vbits c | .load c | .store c | .send c | .mcast c
  | .reduce c | .counters c | .anneal c | .gibbs c | .loadimg c | .ctxread c | .release c
  | .traceRingWrite c | .reductionPartialArrival c => cluster c
  | .annealPhase x | .sweepEnd x | .rotationStart x | .checkpointWrite x | .reportTimeout x => context x
  | .reportPacket x d => context x && device d
  | .routerPacket n _ _ _ | .mcastPacketAccept n => fifo n
  | .gddr7Burst _ _ _ e => e < 3
  | .silkFrameReceive p f => port p && frame f
  | .silkReplayTimeout p | .silkPortDownTimeout p | .laneRetrainDone p _ | .oe17SubstitutionDone p _ => port p
  | .silkTrainingDone p _ _ _ d => port p && (match d with | none => true | some n => device n)
  | .silkReadRequest d _ _ _ | .silkAtomic d _ _ _ _ _ | .silkResponse d _ _ _ _ _ | .timeRequest d _ _ => device d
  | .silkWrite d _ _ data _ => device d && !data.isEmpty
  | .digestPacket d _ _ _ h => device d && h.length == 48
  | .entropySample cs => cs.length == 64
  | .resetInput _ | .refclkLoss _ | .coldPowerUp _ _ | .functionLevelReset | .tapReset | .extest _ | .samplePreload _
  | .idcode | .optLoop _ | .bypass _ | .apertureRead _ _ | .invalPage _ | .invalAddressSpace _ | .invalAll _
  | .invalReservedScope _ | .invalidationComplete | .migHoldRequest _ _ | .migHoldRelease _ _ | .migHoldHeld
  | .eventRecord | .counterSnapshot | .heatSnapshot | .migrationComplete _ _
  | .dispatcherHandover | .mantisHandover | .svnFuseBlown | .sanitiseOrder _ | .sanitiseComplete | .rampBegin | .rampEnd
  | .dependencyCycle _ | .launchStart _ | .barrierComplete _ | .launchComplete _ | .launchWideStepEnd _
  | .stepBoundExpiry _ | .hostLinkMoveDone _ _ | .silkTransactionTimeout _ | .timeRequestSend | .timeResponse _ _ _ _
  | .timeMeasurementTimeout | .deferredCricketCorrection | .barrierPoll _ | .barrierTimeout _ | .digestTimeout _
  | .healthWindowEnd | .generateRequest _ _ | .generateDeliver | .hostReadCompletion _ _ _ | .hostLinkDown => true

end Sys2Proof
end

