-- ==== Sys2Proof/Tests/Slice0.lean ====
section
/-! SUPPORT. The model's own tests: ill-formed commands that the check refuses, small one-step runs with results taken from
the spec, and for each statement with hypotheses a state that meets them. -/

set_option Elab.async false

namespace Sys2Proof.Tests

open Sys2Proof Sys2Proof.Machine

/-! ## Ill-formed commands -/

theorem test_ill_formed_units :
    (Instr.nop 256).wellFormed = false ∧ (Instr.launchFetch 4096).wellFormed = false ∧
    (Instr.syncValueWrite 65536 0).wellFormed = false ∧ (Instr.syncOwnerWrite 256 0).wellFormed = false ∧
    (Instr.identify 8).wellFormed = false ∧ (Instr.silkReplayTimeout 12).wellFormed = false ∧
    (Instr.channelFailed 16 0).wellFormed = false ∧ (Instr.channelFailed 0 4).wellFormed = false ∧
    (Instr.cxlLinkDown 4).wellFormed = false ∧ (Instr.sweepEnd 262144).wellFormed = false ∧
    (Instr.silkRouteWrite 4096 0).wellFormed = false ∧ (Instr.routerFault 4).wellFormed = false ∧
    (Instr.routerPacket 306660 0 0 0).wellFormed = false ∧ (Instr.abortOrder 5).wellFormed = false ∧
    (Instr.thermalTrip 5 0).wellFormed = false ∧ (Instr.laserLoss 18).wellFormed = false ∧
    (Instr.pageRetireOrder 0 0 3).wellFormed = false ∧ (Instr.gddr7Burst 0 false 0 3).wellFormed = false := by decide +kernel

theorem test_ill_formed_shapes :
    (Instr.registerWrite .host 0 2 0).wellFormed = false ∧ (Instr.registerWrite .host 4 8 0).wellFormed = false ∧
    (Instr.bar0BadAccess true 8 8).wellFormed = false ∧ (Instr.apertureWrite 0 [] false).wellFormed = false ∧
    (Instr.powerGood false false false false 9 0).wellFormed = false ∧ (Instr.optResult 0 []).wellFormed = false ∧
    (Instr.entropySample [1]).wellFormed = false ∧ (Instr.digestPacket 0 0 0 0 []).wellFormed = false ∧
    (Instr.silkWrite 0 0 0 [] true).wellFormed = false ∧ (Instr.telemetryRefresh [] [] []).wellFormed = false ∧
    (Instr.cxlDeviceAdded 0 1 false 17 0).wellFormed = false ∧ (Instr.reportPacket 0 4096).wellFormed = false ∧
    (Instr.faultReport 0 64 0 .nothing).wellFormed = false ∧ (Instr.faultReport 0 0 0 (.fence 64)).wellFormed = false ∧
    (Instr.faultReport 0 0 0 (.retireSlice 16)).wellFormed = false ∧
    (Instr.silkTrainingDone 0 .all 0 0 (some 4096)).wellFormed = false ∧
    (Instr.silkFrameReceive 0 ⟨[], 0, 0, false, true, false, 0, 0, 0, 0, 0⟩).wellFormed = false ∧
    (Instr.firmwareReady ⟨[], [], [], [], [], [], true⟩).wellFormed = false := by decide +kernel

theorem test_well_formed :
    (Instr.nop 255).wellFormed = true ∧ (Instr.registerWrite .program 0x00F004000050 8 0).wellFormed = true ∧
    (Instr.bar0BadAccess true 4 8).wellFormed = true ∧ (Instr.faultReport 255 63 0 (.fence 63)).wellFormed = true ∧
    (Instr.firmwareReady ⟨List.replicate 16 3, [(0, 1)], [], [], [], [], true⟩).wellFormed = true := by decide +kernel

/-! ## Small states -/

/-- A powered device whose host link is up and whose firmware runs. -/
def up : State := { board := { power := .good }, hostp := { linkUp := true }, mgmt := { state := 2 } }

/-- The outcome is a next state of which a property holds. -/
def ends (o : Host.Outcome State Fault Refusal) (p : State → Bool) : Bool :=
  match o with
  | .next t => p t
  | _ => false

/-- The device with a request waiting in pair 0. -/
def asked (code tag : Nat) (body : List Byte) : State :=
  up.setBox 0 { requests := [{ words := wordsLe (requestMessage code tag body), seq := 0 }] }

/-! ## Power, reset and test port -/

theorem test_power_good : ends (exec (.powerGood true false false false 8 2) State.reset)
    (fun t => t.on && t.board.straps.boostEn && t.pace.cricket == 0) = true := by decide +kernel

theorem test_power_good_reserved : (match exec (.powerGood true false true false 8 2) State.reset with
    | .fault .reservedStrap => true
    | _ => false) = true := by decide +kernel

theorem test_reset_input : ends (exec (.resetInput 10000) up) (fun t => !t.on && t.board.resetLow) = true := by decide +kernel

/-- PowerGoodAndItsLoss: a device that waits for power-good, with laser light on OE16, on OE17 alone, and on neither; a
powered device. -/
theorem witness_power : State.reset.board.power = .down ∧
    ({ State.reset with board := { laserOk := 0x10000#18 } } : State).board.laserOk.getLsbD 16 = true ∧
    ({ State.reset with board := { laserOk := 0x20000#18 } } : State).board.laserOk.getLsbD 17 = true ∧
    ({ State.reset with board := { laserOk := 0#18 } } : State).board.laserOk = 0#18 ∧ up.board.power = .good := by decide +kernel

/-- FunctionLevelResetEndsEverything. -/
theorem test_function_level_reset : up.board.power = .good ∧ up.hostp.linkUp = true ∧
    ends (exec .functionLevelReset { up with pace := { cricket := 7 }, ctxs := [(5, { state := .running })] })
      (fun t => t.pace.cricket == 7 && (t.ctx 5).state != .running && t.disp.queues.isEmpty) = true := by decide +kernel

/-- LaserEventsAndTheTestPort: the log has room, the test port is enabled, RESET_N is high and low. -/
theorem witness_laser_and_test_port : up.mgmt.log.length < 4096 ∧
    ({ up with board := { straps := { complyEn := true } } } : State).board.straps.complyEn = true ∧
    ({ up with board := { straps := { complyEn := true }, resetLow := true } } : State).board.resetLow = true ∧
    up.board.resetLow = false ∧ up.tap.errors = [] := by decide +kernel

theorem test_laser_loss : ends (exec (.laserLoss 3) { up with board := { power := .good, laserOk := 0xF#18 } })
    (fun t => t.board.laserOk == 0x7#18 && t.mgmt.log.map (·.kind) == [10]) = true := by decide +kernel

theorem test_idcode : ends (exec .idcode { up with board := { straps := { complyEn := true } } })
    (fun t => t.tap.id.toNat / 2 ^ 12 % 2 ^ 16 == 0x9600 && t.tap.ir == 2) = true := by decide +kernel

/-! ## Host accesses and registers -/

/-- HostAccessesReachWhatTheyName: a bad access, a range of the aperture that is open and one that is not, and words that read. -/
theorem witness_host_accesses : ¬((2 = 4 ∨ 2 = 8) ∧ 0 % 2 = 0) ∧ 8 ≤ up.hostp.bar2Size ∧
    apertureOpen up (up.hostp.aperture.toNat + 0) 8 = true ∧ (physRead up (up.hostp.aperture.toNat + 0) 8).isSome = true ∧
    apertureOpen { up with hostp := { linkUp := true, aperture := 0x00FFFFFC0000000#64 } } 0x00FFFFFC0000000 8 = false := by
  decide +kernel

theorem test_aperture_write_and_read : ends (exec (.apertureWrite 8 [1, 2, 3, 4, 5, 6, 7, 8] false) up)
    (fun t => physRead t 0x002000000008 8 == some (untagged [1, 2, 3, 4, 5, 6, 7, 8]) &&
      physRead t 0x002000000000 8 == some (untagged [0, 0, 0, 0, 0, 0, 0, 0])) = true := by decide +kernel

/-- RegistersKeepTheirAccessTypes, DoorbellsMoveTheQueues, SyncAndRouteWritesTakeEffect: power and link alone; fields that are
zero but for their RW bits. -/
theorem witness_registers : up.board.power = .good ∧ up.hostp.linkUp = true ∧
    up.hostp.aperture &&& ~~~0x000FFFFFC0000000#64 = 0#64 ∧ up.memc.astabBase &&& ~~~0x000FFFFFFFFFF001#64 = 0#64 := by
  decide +kernel

theorem test_w1c : ends (exec (.registerWrite .program 0x00F004000050 8 0x40) { up with memc := { events := 0x41#32 } })
    (fun t => t.memc.events == 1#32) = true := by decide +kernel

/-- A queue that is idle with room for three entries, and one whose tail cannot go back. -/
def queued : State := up.setQueue 5 { state := .idle, f := 2, t := 2, sqEntries := 4 }

theorem test_doorbell : ends (exec (.sqTailWrite 5 6) queued) (fun t => (t.queue 5).t == 6 && (t.queue 5).state == .active) = true ∧
    ends (exec (.sqTailWrite 5 7) queued) (fun t => (t.queue 5).t == 2 && t.hostp.events == up.hostp.events) = true := by
  decide +kernel

/-! ## The operation list -/

def opWord (code : Nat) (imm : List Nat) (aux oflags : Nat := 0) (a b c : Nat := 0) (d : Nat := 1) : OpWord :=
  { opcode := code, oflags := oflags, wait := 0, aux := aux, a := a, b := b, c := c, d := d, reserved0 := 0, cores := 1
    imm := imm, reserved1 := 0 }

/-- A descriptor of core memory with rows packed one after the other. -/
def core (format rows cols addr stride : Nat) : Desc :=
  { format := format, plane := false, isVirtual := false, argrel := false, rows := rows, cols := cols, addr := addr, expAddr := 0
    rowStride := stride, expStride := 0 }

/-- Cluster 0 runs launch 1 and stands before one operation on logical core 0; the lines of its first KiB are logged. -/
def before (o : OpWord) (ds : List Desc) (mem : List (Nat × List Byte)) : State :=
  let s : State := { up with
    disp := { launches := [{ id := 1, queue := 0, sqIndex := 0, asid := 0, barrier := false, phase := .running, started := true
                             header := { lcores := 1, marks := 0, clusters := 1, steps := 1 }, steps := [⟨0, 0, 1, 0, 0, 0, 0⟩] }] }
    ent := { state := .ready } }
  let s := s.modCluster 0 (fun k => { k with
    state := .running, launch := some 1, ops := [o], descs := ds, snap := { logged := (List.range 16).map (fun i => (0, i)) } })
  mem.foldl (fun s e => physWrite s (window 0 0 e.1) (untagged e.2)) s

/-- Bytes of the core memory of that core. -/
def bytesAt (s : State) (off n : Nat) : List Byte := plain (coreRead s 0 0 off n)

/-- The operation is issued and the four conditions that the statements put on cluster and cores hold. -/
def ready (s : State) (code : Nat) : Bool :=
  (issuing s 0 code).isSome && (s.cluster 0).rerun.isEmpty && ((s.cluster 0).op).any (fun o => (s.cluster 0).active o == [0]) &&
    s.mem.wf

theorem test_nop : ends (exec (.nop 0) (before (opWord 0 []) [] [])) (fun t => (t.cluster 0).pos == 1) = true := by decide +kernel

theorem test_sync : ends (exec (.sync 0) (before (opWord 2 []) [] [])) (fun t => (t.cluster 0).pos == 1) = true := by
  decide +kernel

theorem test_step_end : ready (before (opWord 1 []) [] []) 1 = true ∧
    ends (exec (.stepEnd 0) (before (opWord 1 []) [] [])) (fun t => (t.cluster 0).ended && (t.cluster 0).pos == 0) = true := by
  decide +kernel

/-- ControllerOperationsSequenceAndStamp: a destination of eight bytes, and the states of the source. -/
theorem witness_time_entropy : let s := before (opWord 3 []) [core 5 1 8 0 8, core 5 1 8 64 8] []
    ready s 3 = true ∧ (s.desc 0 1).inCore = true ∧ eightBytes (s.desc 0 1) = true ∧
    ready (before (opWord 4 []) [core 5 1 8 0 8, core 5 1 8 64 8] []) 4 = true := by decide +kernel

theorem test_time_destination : ends (exec (.time 0) (before (opWord 3 []) [core 5 1 8 0 8, core 5 1 7 64 8] []))
    (fun t => (t.launch 1).map (·.status) == some 0x201) = true := by decide +kernel

theorem test_entropy_waits : ends (exec (.entropy 0) (before (opWord 4 []) [core 5 1 8 0 8, core 5 1 8 64 8] []))
    (fun t => (t.cluster 0).entropyWait && (t.cluster 0).pos == 0 && t.ent.queue ++ t.ent.waiting == [⟨.entropyOp 0, 64⟩]) = true := by
  decide +kernel

theorem test_clear : ready (before (opWord 0x10 [5] 3) [] []) 0x10 = true ∧
    ends (exec (.clear 0) (before (opWord 0x10 [5] 3) [] []))
      (fun t => (coreTile t 0 0 3).f == 5 && (t.core 0 0).ops.count == 1 && (t.cluster 0).pos == 1) = true ∧
    ends (exec (.clear 0) (before (opWord 0x10 [127] 3) [] []))
      (fun t => (t.launch 1).map (·.status) == some 0x201) = true := by decide +kernel

/-- 1 * 3 + 2 * 4 = 11 in INT8; the tile holds it exactly. -/
def mmaState : State :=
  before (opWord 0x11 [0] 0 1 0 1) [core 5 1 2 0 8, core 5 1 2 8 8] [(0, [1, 2, 0, 0, 0, 0, 0, 0]), (8, [3, 4, 0, 0, 0, 0, 0, 0])]

/-- TilesAreClearedAndAccumulate. -/
theorem witness_mma : ready mmaState 0x11 = true ∧ (mmaState.desc 0 0).inCore = true ∧ (mmaState.desc 0 1).inCore = true ∧
    (readTensor mmaState 0 0 (mmaState.desc 0 0)).poison = [] ∧ (readTensor mmaState 0 0 (mmaState.desc 0 1)).poison = [] ∧
    mmaFormats 5 5 = true := by decide +kernel

/-- The tile after the product, drained to INT32, holds 11 at (0, 0). -/
def drainState : State :=
  (before (opWord 0x12 [2 ^ 8 * 8]) [core 8 16 16 0 64, core 8 16 16 0 64] []).modCore 0 0 (fun k => { k with
    tiles := (match exec (.mma 0) mmaState with
      | .next t => (t.core 0 0).tiles
      | _ => []) })

theorem test_mma_and_drain : ready drainState 0x12 = true ∧ (drainWordOf (2 ^ 8 * 8)).valid 4 = true ∧
    drainShape (drainState.desc 0 1) (drainWordOf (2 ^ 8 * 8)) = true ∧
    ends (exec (.drain 0) drainState)
      (fun t => bytesAt t 0 8 == [11, 0, 0, 0, 0, 0, 0, 0] && (t.core 0 0).tileSat == 0#4) = true := by decide +kernel

def fp (v : Nat) : List Byte := leBytes 4 v

/-- Two FP32 numbers in each operand: (1, 2), (3, 0.5) and (2, -1). -/
def floats (code : Nat) (imm : List Nat) (aux : Nat := 0) : State :=
  before (opWord code imm aux 0 0 1 2 3) [core 0 1 2 0 8, core 0 1 2 8 8, core 0 1 2 16 8, core 0 1 2 24 8]
    [(0, fp 0x3F800000 ++ fp 0x40000000), (8, fp 0x40400000 ++ fp 0x3F000000), (16, fp 0x40000000 ++ fp 0xBF800000)]

/-- ElementwiseResultsAreConvertedToTheDestination and VectorOperationsWriteTheirResults: operands that are read without poison
and have one shape, a rounding mode, a function number. -/
theorem witness_vector : ready (floats 0x20 []) 0x20 = true ∧ ready (floats 0x22 [0]) 0x22 = true ∧
    ready (floats 0x23 []) 0x23 = true ∧ ready (floats 0x24 [0]) 0x24 = true ∧ ((floats 0x22 [0]).desc 0 0).inCore = true ∧
    ((floats 0x22 [0]).desc 0 3).inCore = true ∧ likeShape ((floats 0x22 [0]).desc 0 0) ((floats 0x22 [0]).desc 0 3) = true ∧
    (readTensor (floats 0x22 [0]) 0 0 ((floats 0x22 [0]).desc 0 0)).poison = [] ∧
    (readTensor (floats 0x22 [0]) 0 0 ((floats 0x22 [0]).desc 0 1)).poison = [] ∧
    (readTensor (floats 0x22 [0]) 0 0 ((floats 0x22 [0]).desc 0 2)).poison = [] ∧ (vbinFunction 0).isSome = true := by
  decide +kernel

theorem test_vconv : ends (exec (.vconv 0) (floats 0x20 [])) (fun t => bytesAt t 24 8 == fp 0x3F800000 ++ fp 0x40000000) = true := by
  decide +kernel

/-- 1 + 3 = 4 and 2 + 0.5 = 2.5. -/
theorem test_vbin_add : ends (exec (.vbin 0) (floats 0x22 [0])) (fun t => bytesAt t 24 8 == fp 0x40800000 ++ fp 0x40200000) = true := by
  decide +kernel

/-- 1 * 3 + 2 = 5 and 2 * 0.5 - 1 = 0. -/
theorem test_vfma : ends (exec (.vfma 0) (floats 0x23 [])) (fun t => bytesAt t 24 8 == fp 0x40A00000 ++ fp 0) = true := by
  decide +kernel

/-- Virtual address v of address space 0 is byte v of channel 0 of GDDR7: one leaf of 1 GiB. -/
def mapped (s : State) : State :=
  let g := Config.gddrBase
  [(0x0, g + 0x1000 + 1), (0x1000, g + 0x2000 + 1), (0x2000, g + 0x3000 + 1), (0x3000, g + 7)].foldl
    (fun s e => physWrite s (g + e.1) (untagged (leBytes 8 e.2)))
    { s with memc := { s.memc with astabBase := BitVec.ofNat 64 (g + 1) } }

/-- A virtual descriptor. -/
def virt (format rows cols addr stride : Nat) : Desc := { core format rows cols addr stride with isVirtual := true }

theorem test_walk : (walk (mapped up) 0 0x12345 true).toOption.map (·.at 0x12345) = some 0x002000012345 := by decide +kernel

theorem test_walk_faults : (walk up 0 0 false).toOption = none ∧
    (match walk (mapped up) 0 (2 ^ 57) false with
      | .error e => e == (1, 7)
      | .ok _ => false) = true ∧
    (match walk (mapped up) 0 0x40000000 false with
      | .error e => e == (3, 2)
      | .ok _ => false) = true := by decide +kernel

/-- Stacked memory from address 0 on appears at virtual address 0x80000000; cluster 0 reaches it without the network. -/
def local0 (s : State) : State :=
  [(0x3010, Config.gddrBase + 0x6000 + 1), (0x6000, 7)].foldl (fun s e => physWrite s (Config.gddrBase + e.1) (untagged (leBytes 8 e.2)))
    (mapped s)

/-- Eight bytes are loaded from a virtual address, and stored there. -/
def loadState (va : Nat) : State :=
  [0x10000, Config.gddrBase + 0x10000].foldl (fun s a => physWrite s a (untagged [8, 7, 6, 5, 4, 3, 2, 1]))
    (local0 (before (opWord 0x30 []) [virt 5 1 8 va 8, core 5 1 8 64 8] []))

def storeState (va : Nat) : State :=
  local0 (before (opWord 0x31 []) [core 5 1 8 0 8, virt 5 1 8 va 8] [(0, [1, 2, 3, 4, 5, 6, 7, 8])])

/-- The pieces of a move have run, and the transactions that the network carries have started. -/
def moved (r : Except CoreStop (State × List Txn)) (p : State → Bool) : Bool :=
  match r with
  | .ok x => p (startTxns 0 0 x.2 x.1)
  | .error _ => false

def mover : Launch := { id := 1, queue := 0, sqIndex := 0, asid := 0, barrier := false }

/-- A load from the cluster's own slices is done at once; one from GDDR7 leaves as a read request (R632), of at least 64 bytes (R381). -/
theorem test_load : ready (loadState 0x80010000) 0x30 = true ∧ ((loadState 0x80010000).desc 0 0).isVirtual = true ∧
    ends (exec (.load 0) (loadState 0x80010000)) (fun t => bytesAt t 64 8 == [8, 7, 6, 5, 4, 3, 2, 1]) = true ∧
    ends (exec (.load 0) (loadState 0x10000)) (fun t => (t.core 0 0).sent.length == 1 && bytesAt t 64 8 == List.replicate 8 0) = true ∧
    moved (loadPieces mover 0 0 [((0x10000, 8), 64)] (loadState 0x10000, [])) (fun t => (t.fifo (corePort 0 0 1)).map
      (fun k => (k.typ, k.addr, k.length)) == [(0, Config.gddrBase + 0x10000, 64)]) = true := by decide +kernel

theorem test_store : ready (storeState 0x80010000) 0x31 = true ∧
    ends (exec (.store 0) (storeState 0x80010000))
      (fun t => physRead t 0x10000 8 == some (untagged [1, 2, 3, 4, 5, 6, 7, 8])) = true ∧
    ends (exec (.store 0) (storeState 0x10000)) (fun t => (t.core 0 0).sent.length == 1) = true ∧
    moved (storePieces mover 0 0 [((0x10000, 8), 0)] (storeState 0x10000, [])) (fun t => (t.fifo (corePort 0 0 1)).map
      (fun k => (k.typ, k.addr, k.payload)) == [(1, Config.gddrBase + 0x10000, .bytes (untagged [1, 2, 3, 4, 5, 6, 7, 8]))]) = true := by
  decide +kernel

theorem test_load_faults : ends (exec (.load 0) (before (opWord 0x30 []) [virt 5 1 8 0x10000 8, core 5 1 8 64 8] []))
    (fun t => (t.launch 1).map (·.status) == some 0x300 && t.memc.events.getLsbD 6) = true := by decide +kernel

/-- BlockMovesGoThroughTranslation: the pieces translate, to a local page and, with TARGET 1, to a peer's. -/
theorem witness_translate : (match translate 0 0 0x10000 false (loadState 0x10000) with
      | (_, .ok l) => l.target == 0 && !l.mig
      | _ => false) = true ∧
    (match translate 0 0 0x10000 true (physWrite (mapped up) 0x002000003000 (untagged (leBytes 8 (7 + 8)))) with
      | (_, .ok l) => l.target == 1 && !l.mig
      | _ => false) = true ∧
    (match translate 0 0 0x40000000 false (loadState 0x10000) with
      | (_, .error _) => true
      | _ => false) = true := by decide +kernel

/-- VQUANT of (1, 2) with s_min = -128: 2 < 127.5 * 2^-5, so the scale is 2^-5 and the contents are 32 and 64 (R169). -/
def quantState (code : Nat) (imm : List Nat) (d : Desc) : State :=
  before (opWord code imm) [core 0 1 2 0 8, d] [(0, fp 0x3F800000 ++ fp 0x40000000)]

theorem test_vquant :
    let s := quantState 0x21 [0x80] { core 5 1 2 64 32 with plane := true, expAddr := 128, expStride := 8 }
    ready s 0x21 = true ∧ (s.desc 0 1).plane = true ∧ (s.desc 0 1).inCore = true ∧ likeShape (s.desc 0 0) (s.desc 0 1) = true ∧
    ends (exec (.vquant 0) s) (fun t => bytesAt t 64 2 == [32, 64] && bytesAt t 128 1 == [122]) = true := by decide +kernel

theorem test_vfunc : ready (quantState 0x24 [9] (core 0 1 2 8 8)) 0x24 = true ∧
    ends (exec (.vfunc 0) (quantState 0x24 [9] (core 0 1 2 8 8)))
      (fun t => bytesAt t 8 8 == fp 0xBF800000 ++ fp 0xC0000000) = true := by decide +kernel

/-- The maximum of (1, 2), as FP32. -/
theorem test_vred : ready (quantState 0x25 [1, 0] (core 0 1 1 8 8)) 0x25 = true ∧
    vredValid 1 0 (drainWordOf 0) (core 0 1 2 0 8) (core 0 1 1 8 8) = true ∧
    ends (exec (.vred 0) (quantState 0x25 [1, 0] (core 0 1 1 8 8))) (fun t => bytesAt t 8 4 == fp 0x40000000) = true := by
  decide +kernel

/-- Bits 1, 0, 1 in bit convention. -/
def bitsState : State := before (opWord 0x26 [] 2) [core 5 1 3 0 8, core 5 1 3 8 8] [(0, [5, 0, 0, 0, 0, 0, 0, 0])]

theorem test_vbits : ready bitsState 0x26 = true ∧ ((bitRows (bitsState.desc 0 0)).inCore && (bitsState.desc 0 1).inCore) = true ∧
    anyPoison (coreRead bitsState 0 0 0 1) = false ∧
    ends (exec (.vbits 0) bitsState) (fun t => bytesAt t 8 3 == [1, 0, 1]) = true := by decide +kernel

/-- Rows that share their bytes are read without poison if one is. -/
theorem wides_clean (s : State) (c l : Nat) (d : Desc) (h0 : d.rowStride = 0)
    (h : anyPoison (coreRead s c l d.addr (32 * d.cols)) = false) : (readWides s c l d).2 = [] := by
  have hp : ∀ a ts, anyPoison ts = false → poisonPlaces a ts = [] := by
    intro a ts ht
    have : ts.zipIdx.filter (fun e => e.1.2) = [] := by
      rw [List.filter_eq_nil_iff]
      intro e he
      have hm : e.1 ∈ ts := List.fst_mem_of_mem_zipIdx he
      simp only [anyPoison, List.any_eq_false] at ht
      exact ht _ hm
    simp [poisonPlaces, this]
  simp only [readWides, h0, Nat.mul_zero, Nat.add_zero, List.flatMap_eq_nil_iff]
  intro e he
  have hm := List.fst_mem_of_mem_zipIdx he
  obtain ⟨r, _, hr⟩ := List.mem_map.mp hm
  exact hp _ _ (by rw [← hr]; exact h)

/-- A tile of wide records whose rows share their bytes, and an INT8 element beside it. -/
def widesState (code : Nat) (imm : List Nat) : State :=
  before (opWord code imm) [core 10 16 16 0 0, core 5 1 1 512 8] [(0, List.replicate 512 0#8)]

theorem wides_rows : anyPoison (coreRead (widesState 0x41 [1, 0, 0, 0]) 0 0 0 512) = false ∧
    anyPoison (coreRead (widesState 0x34 [0, 0]) 0 0 0 512) = false := by decide +kernel

/-- DrainsAndGibbsWriteTheirRows and TransfersHandPacketsToTheRouter: a tile of wide records without poison. -/
theorem witness_wides : ready (widesState 0x41 [1, 0, 0, 0]) 0x41 = true ∧ ready (widesState 0x34 [0, 0]) 0x34 = true ∧
    ((widesState 0x41 [1, 0, 0, 0]).desc 0 0).inCore = true ∧ ((widesState 0x41 [1, 0, 0, 0]).desc 0 1).inCore = true ∧
    (readWides (widesState 0x41 [1, 0, 0, 0]) 0 0 (core 10 16 16 0 0)).2 = [] ∧
    (readWides (widesState 0x34 [0, 0]) 0 0 (core 10 16 16 0 0)).2 = [] :=
  ⟨by decide +kernel, by decide +kernel, by decide +kernel, by decide +kernel,
    wides_clean _ _ _ _ rfl wides_rows.1, wides_clean _ _ _ _ rfl wides_rows.2⟩

def countersState : State :=
  (before (opWord 0x35 []) [core 5 1 128 0 128, core 5 1 128 0 128] []).modCore 0 0
    (fun k => { k with events := 4#32, ops := { count := 9 } })

theorem test_counters : ready countersState 0x35 = true ∧ (countersState.desc 0 1).rows * (countersState.desc 0 1).rowBytes = 128 ∧
    ends (exec (.counters 0) countersState) (fun t => bytesAt t 0 128 == counterBytes (countersState.core 0 0) && (t.core 0 0).ops.count == 10) = true := by
  decide +kernel

/-- TransfersHandPacketsToTheRouter. -/
def sendState (code : Nat) (imm : List Nat) (fmt rows cols stride : Nat) : State :=
  before (opWord code imm) [core fmt rows cols 0 stride, core fmt rows cols 64 stride] [(0, [1, 2, 3, 4, 5, 6, 7, 8])]

theorem test_send : ready (sendState 0x32 [0] 5 1 8 8) 0x32 = true ∧
    (((sendState 0x32 [0] 5 1 8 8).launch 1).any (fun ln => takesPart ln 0)) = true ∧
    rangePoison (sendState 0x32 [0] 5 1 8 8) 0 0 ((sendState 0x32 [0] 5 1 8 8).desc 0 0).coreRanges = [] ∧
    ends (exec (.send 0) (sendState 0x32 [0] 5 1 8 8))
      (fun t => (t.core 0 0).acks == 1) = true := by decide +kernel

/-- The packet of the transfer stands at the router port of the core. -/
theorem test_send_packets : (((sendPackets 0 0 1 (transferPackets 4 0 0 1 7 [0] 0 0 0 (untagged [1, 2]) [(64, 2)]) up).fifo (corePort 0 0 1)).map
    (fun k => (k.typ, k.vc, k.flits, k.last, k.pieces)) == [(4, 1, 2, true, [(64, 2)])]) = true := by decide +kernel

theorem test_mcast : ready (sendState 0x33 [1, 0] 5 1 8 8) 0x33 = true ∧
    ends (exec (.mcast 0) (sendState 0x33 [1, 0] 5 1 8 8))
      (fun t => (t.core 0 0).acks == 1) = true := by decide +kernel

/-- ContextAndNodeTileOperations. -/
theorem test_rclear : ready (before (opWord 0x08 [7] 3) [] []) 0x08 = true ∧ goodPoint (immI8 7 0) = true ∧
    ends (exec (.rclear 0) (before (opWord 0x08 [7] 3) [] []))
      (fun t => (nodeTile (t.cluster 0) 3).tile == { f := 7, els := [] }) = true := by decide +kernel

/-- A drain of a reduction-node tile to core memory, and to virtual memory with CORES zero (R469). -/
def rdrainState : State := before (opWord 0x09 [2 ^ 8 * 8, 0]) [core 8 16 16 0 0, core 8 16 16 0 0] []
def rdrainVirtual : State :=
  mapped (before { opWord 0x09 [2 ^ 8 * 8, 0] with cores := 0 } [virt 8 16 16 0x10000 0, virt 8 16 16 0x10000 0] [])

theorem test_rdrain : ready rdrainState 0x09 = true ∧ (issuing rdrainVirtual 0 0x09).isSome = true ∧
    rdrainGood (opWord 0x09 [2 ^ 8 * 8, 0]) (drainWordOf (2 ^ 8 * 8)) (rdrainState.desc 0 1) = true ∧
    rdrainGood { opWord 0x09 [2 ^ 8 * 8, 0] with cores := 0 } (drainWordOf (2 ^ 8 * 8)) (rdrainVirtual.desc 0 1) = true ∧
    streamsIdle rdrainState 0 = true ∧ (nodeTile (rdrainState.cluster 0) 0).received 0 = true ∧
    ends (exec (.rdrain 0) rdrainState) (fun t => (t.cluster 0).pos == 1) = true := by decide +kernel

/-- A context of address space 0 and one of address space 1. -/
def ctxState (code : Nat) (imm : List Nat) : State :=
  { mapped (before (opWord code imm) [] []) with ctxs := [(2, { state := .ready }), (3, { state := .ready, asid := 1 })] }

theorem test_ctxread : ready (ctxState 0x43 [2, 0x10000]) 0x43 = true ∧
    ends (exec (.ctxread 0) (ctxState 0x43 [2, 0x10000])) (fun t => (t.cluster 0).pos == 1) = true ∧
    ends (exec (.ctxread 0) (ctxState 0x43 [3, 0x10000])) (fun t => (t.launch 1).map (·.status) == some 0x300) = true := by
  decide +kernel

theorem test_release : ready (ctxState 0x44 [2]) 0x44 = true ∧
    ends (exec (.release 0) (ctxState 0x44 [2])) (fun t => t.ctx 2 == {} && (t.cluster 0).pos == 1) = true ∧
    ends (exec (.release 0) (ctxState 0x44 [3])) (fun t => (t.launch 1).map (·.status) == some 0x300) = true := by decide +kernel

/-- InvalidOperandsAndPoisonStopAnOperation: a descriptor that is none of core memory's, and operands never written. -/
theorem test_invalid_operand : ((before (opWord 0x20 []) [virt 0 1 2 0 8, core 0 1 2 8 8] []).desc 0 0).inCore = false ∧
    ends (exec (.vconv 0) (before (opWord 0x20 []) [virt 0 1 2 0 8, core 0 1 2 8 8] []))
      (fun t => (t.launch 1).map (·.status) == some 0x201 && (t.core 0 0).events.getLsbD 2) = true := by decide +kernel

def poisonState (code : Nat) (imm : List Nat) (a b : Desc) : State := before (opWord code imm 0 0 0 1 0 1) [a, b] []

theorem test_poison_stops : ready (poisonState 0x20 [] (core 0 1 2 0 8) (core 0 1 2 8 8)) 0x20 = true ∧
    (readTensor (poisonState 0x20 [] (core 0 1 2 0 8) (core 0 1 2 8 8)) 0 0 (core 0 1 2 0 8)).poison ≠ [] ∧
    (readTensor (poisonState 0x11 [0] (core 5 1 2 0 8) (core 5 1 2 8 8)) 0 0 (core 5 1 2 0 8)).poison ≠ [] ∧
    ends (exec (.vconv 0) (poisonState 0x20 [] (core 0 1 2 0 8) (core 0 1 2 8 8)))
      (fun t => (t.cluster 0).abandon.isSome && t.memc.poison.count == 1) = true := by decide +kernel

/-! ## Mailbox commands -/

/-- The request is taken: the premise of the statements on mailbox commands. -/
theorem witness_requests : Requests (asked 0x0001 9 []) 0 0x0001 9 [] ∧
    Requests (asked 0x0020 9 ([1, 0] ++ leBytes 2 255 ++ leBytes 1 63 ++ [0, 0, 0])) 0 0x0020 9
      ([1, 0] ++ leBytes 2 255 ++ leBytes 1 63 ++ [0, 0, 0]) :=
  ⟨⟨by decide +kernel, by decide +kernel, by decide +kernel, by decide +kernel, _, rfl, by decide +kernel, by decide +kernel⟩,
   ⟨by decide +kernel, by decide +kernel, by decide +kernel, by decide +kernel, _, rfl, by decide +kernel, by decide +kernel⟩⟩

/-- COMMAND, TAG and RESULT of the answer that waits in pair 0. -/
def answered (t : State) (code tag result : Nat) : Bool :=
  match (t.box 0).waiting with
  | some b => b.take 8 == leBytes 2 code ++ leBytes 2 tag ++ [1, 0] ++ leBytes 2 result && (t.box 0).requests.isEmpty
  | none => false

theorem test_queries : ends (exec (.identify 0) (asked 0x0001 9 [])) (fun t => answered t 1 9 0) = true ∧
    ends (exec (.oppointGet 0) (asked 0x0010 9 [])) (fun t => answered t 0x10 9 0) = true ∧
    ends (exec (.admissionRead 0) (asked 0x0012 9 [])) (fun t => answered t 0x12 9 0) = true ∧
    ends (exec (.coreMapReport 0) (asked 0x0020 9 [0, 0, 5, 0, 0, 0, 0, 0])) (fun t => answered t 0x20 9 0) = true ∧
    ends (exec (.tierPolicyGet 0) (asked 0x0031 9 [1, 0, 0, 0, 0, 0, 0, 0])) (fun t => answered t 0x31 9 0) = true ∧
    ends (exec (.framePoolQuery 0) (asked 0x0032 9 ([1, 2, 0, 0, 0, 0, 0, 0] ++ List.replicate 16 0#8)))
      (fun t => answered t 0x32 9 0) = true ∧
    ends (exec (.topologyRead 0) (asked 0x0040 9 (List.replicate 8 0#8))) (fun t => answered t 0x40 9 0) = true := by
  decide +kernel

theorem test_reports : ends (exec (.telemetryRead 0) (asked 0x0050 9 (List.replicate 8 0#8))) (fun t => answered t 0x50 9 0) = true ∧
    ends (exec (.eventRead 0) (asked 0x0051 9 [7, 0, 0, 0, 0, 0, 0, 0])) (fun t => answered t 0x51 9 0) = true ∧
    ends (exec (.opStatus 0) (asked 0x00F0 9 [4, 0, 0, 0, 0, 0, 0, 0])) (fun t => answered t 0xF0 9 0) = true ∧
    ends (exec (.badCommand 0) (asked 0x0099 9 [])) (fun t => answered t 0x99 9 0x100) = true ∧ 0x0099 ∉ knownCodes := by
  decide +kernel

theorem test_fabric : ends (exec (.configSet 0) (asked 0x0002 9 [3, 0, 0, 0, 0, 0, 0, 0]))
      (fun t => answered t 2 9 0 && t.silk.device == some 3) = true ∧
    ends (exec (.configSet 0) { asked 0x0002 9 [3, 0, 0, 0, 0, 0, 0, 0] with
      mgmt := { (asked 0x0002 9 [3, 0, 0, 0, 0, 0, 0, 0]).mgmt with summary := { outstanding := 1 } } })
      (fun t => answered t 2 9 0x201 && t.silk.device == none) = true ∧
    ends (exec (.pairSet 0) (asked 0x00A0 9 [1, 1, 5, 0, 0, 0, 0, 0])) (fun t => answered t 0xA0 9 0 && t.silk.pairPartner == 5) = true ∧
    ends (exec (.linkSetSyncRole 0) (asked 0x0060 9 ([6, 0, 7, 0, 2, 0, 0, 0] ++ List.replicate 8 0#8)))
      (fun t => answered t 0x60 9 0 && t.silk.master == 7) = true := by decide +kernel

theorem test_oppoint : ends (exec (.oppointSet 0) (asked 0x0011 9 [2, 0, 0, 0, 0, 0, 0, 0])) (fun t => answered t 0x11 9 0x201) = true ∧
    ends (exec (.oppointSet 0) (asked 0x0011 9 [0, 0, 0, 0, 0, 0, 0, 0]))
      (fun t => answered t 0x11 9 1 && t.mgmt.rampPending && t.mgmt.target == 0) = true ∧
    ends (exec (.oppointSet 0) (asked 0x0011 9 [1, 0, 0, 0, 0, 0, 0, 0])) (fun t => answered t 0x11 9 0) = true := by
  decide +kernel

theorem test_core_map : ends (exec (.coreMapFence 0) (asked 0x0020 9 [1, 0, 5, 0, 3, 0, 0, 0]))
      (fun t => t.fifo (hubPort 1 0) == [orderPkt .controller 5 0 (.fence 3 (some ⟨0, 0x20, 9⟩))] && (t.box 0).busy) = true ∧
    ends (exec (.coreMapFence 0) { asked 0x0020 9 [1, 0, 5, 0, 3, 0, 0, 0] with
      mgmt := { (asked 0x0020 9 [1, 0, 5, 0, 3, 0, 0, 0]).mgmt with view := { clusters := [(5, { fenced := 8 })] } } })
      (fun t => (t.fifo (hubPort 1 0)).isEmpty && answered t 0x20 9 0) = true ∧
    ends (exec (.coreMapRetireSlice 0) (asked 0x0020 9 [2, 0, 5, 0, 15, 0, 0, 0]))
      (fun t => t.fifo (hubPort 1 0) == [orderPkt .controller 5 0 (.retireSlice 15 (some ⟨0, 0x20, 9⟩))]) = true ∧
    ends (exec (.coreMapClusterReset 0) (asked 0x0020 9 [3, 0, 5, 0, 0, 0, 0, 0]))
      (fun t => t.fifo (hubPort 1 0) == [orderPkt .hub 0 0 (.reset 5 (some ⟨0, 0x20, 9⟩))]) = true := by decide +kernel

theorem test_policy_and_pool :
    ends (exec (.tierPolicySet 0) (asked 0x0030 9 (leBytes 2 7 ++ List.replicate 14 0#8 ++ [1, 7] ++ List.replicate 62 0#8)))
      (fun t => answered t 0x30 9 0 && (t.policy 7).enable && (t.policy 7).tiers == 7#3) = true ∧
    ends (exec (.framePoolAdd 0) (asked 0x0032 9 ([1, 0, 0, 0, 0, 0, 0, 0] ++ leBytes 8 Config.gddrBase ++ leBytes 8 0x10000)))
      (fun t => answered t 0x32 9 0 && (t.pool 1).total == 0x10000) = true ∧ tierRange up 1 Config.gddrBase 0x10000 = true ∧
    ends (exec (.framePoolAdd 0) (asked 0x0032 9 ([1, 0, 0, 0, 0, 0, 0, 0] ++ leBytes 8 Config.gddrBase ++ leBytes 8 0x8000)))
      (fun t => answered t 0x32 9 0x102) = true ∧
    ends (exec (.framePoolRemove 0) (asked 0x0032 9 ([1, 1, 0, 0, 0, 0, 0, 0] ++ leBytes 8 Config.gddrBase ++ leBytes 8 0x10000)))
      (fun t => answered t 0x32 9 0) = true := by decide +kernel

/-- LinkCommandsStartTheirOperation. -/
def linkBody (op unit item : Nat) (arg : Nat := 0) : List Byte := [BitVec.ofNat 8 op, 0] ++ leBytes 2 unit ++ leBytes 2 item ++ [0, 0] ++ leBytes 8 arg

theorem test_link : retirable 0#4 3 2 = true ∧
    ends (exec (.linkRetireChannel 0) (asked 0x0060 9 (linkBody 0 3 2)))
      (fun t => answered t 0x60 9 1 && t.mgmt.link == some (.retireChannel 3 2)) = true ∧
    ends (exec (.linkAddExpander 0) (asked 0x0060 9 (linkBody 1 3 0)))
      (fun t => answered t 0x60 9 1 && t.mgmt.link == some (.addExpander 3)) = true ∧
    ends (exec (.linkOe17Takeover 0) (asked 0x0060 9 (linkBody 4 16 0)))
      (fun t => answered t 0x60 9 1 && t.hostp.moving == some 17) = true ∧
    ends (exec (.linkRetrainLane 0) (asked 0x0060 9 (linkBody 3 11 7)))
      (fun t => answered t 0x60 9 1 && t.fifo (hubPort 1 0) == [orderPkt .hub 0 17 (.retrainLane 7)]) = true := by decide +kernel

/-- The management processor knows of an expander of 256 MiB at the bottom of port 0's window. -/
def knowing (s : State) : State := { s with mgmt := { s.mgmt with view := { devices := [(0, [(0, 2 ^ 28, 2 ^ 28)])] } } }

/-- That expander is to be removed; and a takeover of port 4 is to be handed back. -/
theorem test_link_end : (∃ r ∈ mapGet [] (knowing up).mgmt.view.devices 0, Config.cxlBase + 0 * 2 ^ 42 + r.1 = Config.cxlBase) ∧
    ends (exec (.linkRemoveExpander 0) (knowing (asked 0x0060 9 (linkBody 2 0 0 Config.cxlBase))))
      (fun t => answered t 0x60 9 1 && t.fifo (hubPort 1 0) ==
        [orderPkt .hub 0 2 .drainDevice, orderPkt .hub 0 0 (.removeDevice 0 Config.cxlBase)]) = true ∧
    ends (exec (.linkOe17Handback 0) { asked 0x0060 9 (linkBody 5 0 0) with mgmt := { (asked 0x0060 9 (linkBody 5 0 0)).mgmt with oe17 := some 4 } })
      (fun t => answered t 0x60 9 1 && t.mgmt.link == some .handback) = true := by decide +kernel

def uploading (s : State) (u : Upload) : State := { s with mgmt := { s.mgmt with upload := some u, updating := u.update } }

/-- FirmwareAndTrustCommands: an upload that fails its checks. -/
theorem test_upload : ends (exec (.fwBegin 0) (asked 0x0070 9 ([1, 0, 0, 0, 0, 0, 0, 0] ++ leBytes 8 (2 ^ 27))))
      (fun t => answered t 0x70 9 0 && t.mgmt.updating) = true ∧
    ends (exec (.fwBegin 0) (asked 0x0070 9 ([1, 0, 0, 0, 0, 0, 0, 0] ++ leBytes 8 (2 ^ 27 + 1)))) (fun t => answered t 0x70 9 0x102) = true ∧
    ends (exec (.fwData 0) (uploading (asked 0x0071 9 (leBytes 8 8 ++ leBytes 2 8 ++ List.replicate 6 0#8 ++ [1, 2, 3, 4, 5, 6, 7, 8])) ⟨true, 16, []⟩))
      (fun t => answered t 0x71 9 0 && t.mgmt.upload.map (·.bytes.length) == some 8) = true ∧
    imageCheck (uploading (asked 0x0072 9 []) ⟨true, 16, []⟩) ⟨true, 16, []⟩ ≠ 0 ∧
    ends (exec (.fwCommit 0) (uploading (asked 0x0072 9 []) ⟨true, 16, []⟩)) (fun t => answered t 0x72 9 1 && (t.op 2).state == 3) = true ∧
    ends (exec (.fwAbort 0) (uploading (asked 0x0073 9 []) ⟨true, 16, []⟩))
      (fun t => answered t 0x73 9 0 && t.mgmt.upload == none && !t.mgmt.updating) = true := by decide +kernel

theorem test_sanitise : ends (exec (.sanitise 0) (asked 0x0080 9 (leBytes 4 0x53414E49 ++ [0, 0, 0, 0])))
      (fun t => answered t 0x80 9 1 && t.mgmt.sanitising && t.mgmt.sanStep == 1) = true ∧
    ends (exec (.sanitise 0) ((asked 0x0080 9 (leBytes 4 0x53414E49 ++ [0, 0, 0, 0])).setQueue 0 { state := .idle }))
      (fun t => answered t 0x80 9 0x201 && !t.mgmt.sanitising) = true := by decide +kernel

/-- ATTEST with the nonce of the pair's report answers with a fragment of that report. -/
theorem test_attest : ends (exec (.attest 0) ((asked 0x0090 9 (List.replicate 48 1#8 ++ List.replicate 8 0#8)).setBox 0
      { (asked 0x0090 9 (List.replicate 48 1#8 ++ List.replicate 8 0#8)).box 0 with
        nonce := some (List.replicate 48 1#8), report := List.replicate 448 7#8 }))
      (fun t => answered t 0x90 9 0) = true := by decide +kernel

theorem test_mailbox_words : ends (exec (.mbReqWrite 7 0xAB) up) (fun t => (t.box 7).openPkt == some [0xAB#64]) = true ∧
    ends (exec (.mbCommit 7 false) (up.setBox 7 { openPkt := some [1#64], reqSeq := 4 }))
      (fun t => (t.box 7).requests == [{ words := [1#64], seq := 4 }] && (t.box 7).reqSeq == 5) = true ∧
    ends (exec (.mbCommit 7 false) (up.setBox 7 { openPkt := some [1#64], overrun := true }))
      (fun t => (t.box 7).requests.isEmpty && t.mgmt.events == 32#32) = true ∧
    ends (exec (.mbRspRead 7) (up.setBox 7 { responses := [[1#64, 2#64]] }))
      (fun t => (t.box 7).responses == [[2#64]] && t.out == [.readData [1, 0, 0, 0, 0, 0, 0, 0] false]) = true ∧
    ends (exec (.mbResponseWrite 7) (up.setBox 7 { waiting := some (List.replicate 16 0#8), rspSeq := 3 }))
      (fun t => (t.box 7).responses == [[BitVec.ofNat 64 (16 + 3 * 2 ^ 16), 0#64, 0#64]]) = true := by decide +kernel

/-! ## Events and orders -/

/-- EventsAreLoggedAndSnapshotsTaken. -/
def million : State := { up with pace := { cricket := 1000000 } }

/-- Reports of one source wait at the management processor. -/
def reporting (source : Nat) (ps : List Payload) (s : State) : State := s.setFifo (fifoNum .hub 1 0) (ps.map (reportPkt source))

theorem test_event_record :
    ends (exec .eventRecord (reporting 5 [.event { kind := 3, source := 5 }] million))
      (fun t => t.net.fifos.isEmpty && t.mgmt.log == [{ kind := 3, source := 5, cricket := 1000000 }]) = true ∧
    ends (exec .eventRecord (reporting 70 [.event { kind := 16, source := 70 }] million))
      (fun t => t.fifo (hubPort 1 0) == [orderPkt .hub 0 0 (.abort 1)]) = true ∧
    ends (exec .eventRecord (reporting 5 [.result (.order 5 0x300 (some ⟨3, 0x20, 9⟩))] (million.setBox 3 { busy := true })))
      (fun t => !(t.box 3).busy && ((t.box 3).waiting.map (·.take 8)) == some [0x20, 0, 9, 0, 1, 0, 0, 3]) = true := by decide +kernel

theorem test_snapshots :
    ends (exec .counterSnapshot (million.modCluster 7 (fun k => { k with netDrops := { count := 4 } })))
      (fun t => t.mgmt.snapshotAt == 1000000 && t.fifo (ctlPort 7 0) == [reportPkt 7 (.result (.counters 7 [0, 4, 0]))]) = true ∧
    ends (exec .heatSnapshot { million with memc := { heat := [(0, { entries := [⟨0, 1, 2⟩] })] } })
      (fun t => (t.fifo (unitPort 0)).map (·.payload) == [.result (.heat 0 [⟨0, 1, 2⟩])] &&
        t.memc.heat == [(0, { entries := [] })] && t.mgmt.heatAt == 1000000) = true ∧
    ends (exec (.telemetryRefresh [1, 2, 3, 4, 5] [6, 6, 6, 6, 6] [7, 7, 7, 7, 7]) million) (fun t => t.board.temps == [1, 2, 3, 4, 5]) = true := by
  decide +kernel

/-- FaultsBringOrdersThatChangeTheMap: a fence order of a spare, and of a core that has one. -/
def fencing (p : Nat) : State := up.modCluster 9 (fun k => { k with orders := [.fence p none] })

theorem test_fence : ((fencing 63).cluster 9).state = .idle ∧ boundFor (fencing 63) 9 63 = false ∧
    bit ((fencing 63).cluster 9).spares.toNat 63 = true ∧ boundFor (fencing 5) 9 5 = false ∧
    bit ((fencing 5).cluster 9).spares.toNat 5 = false ∧ findIdx (fun e => e == some 5) ((fencing 5).cluster 9).map 0 = some 5 ∧
    nearestSpare 5 (setBit ((fencing 5).cluster 9).spares.toNat 5 false) = some 62 ∧ nearestSpare 5 0 = none ∧
    ends (exec (.fenceOrder 9) (fencing 63)) (fun t => (t.cluster 9).mapGen == 1 && (t.cluster 9).events == 1#32) = true ∧
    ends (exec (.fenceOrder 9) (fencing 5)) (fun t => (t.cluster 9).phys 5 == some 62 && (t.cluster 9).events == 3#32) = true := by
  decide +kernel

theorem test_fence_unbacked : ends (exec (.fenceOrder 9) ((fencing 5).modCluster 9 (fun k => { k with spares := 0 })))
    (fun t => (t.cluster 9).phys 5 == none && (t.cluster 9).events.getLsbD 2) = true ∧
    ends (exec (.faultReport 9 5 0 (.fence 5)) up)
      (fun t => t.fifo (hubPort 1 0) == [orderPkt .controller 9 0 (.fence 5 none)] && t.mgmt.log.length == 1) = true := by
  decide +kernel

/-- SlicesAndClustersLeaveService: slots that are free, none, clusters in and out of service, under test. -/
theorem witness_slices : let s := up.modCluster 9 (fun k => { k with orders := [.retireSlice 15 none] })
    (freeSlot s).isSome = true ∧ (s.cluster 9).live.getLsbD 15 = true ∧ (s.cluster 9).state = .idle ∧
    freeSlot { up with memc := { redirect := (List.range 64).map (fun i => (i, (0, i))) } } = none ∧
    (up.cluster 255).state ≠ .out := by decide +kernel

theorem test_clusters : ends (exec (.clusterUnitFault 255) up) (fun t => (t.cluster 255).state == .out && (t.cluster 255).events == 16#32) = true ∧
    ends (exec (.routerFault 3) up) (fun t => (t.cluster 192).state == .out && (t.cluster 191).state == .idle) = true ∧
    ends (exec (.clusterTestOrder 7 true) (up.modCluster 7 (fun k => { k with testing := true, state := .out })))
      (fun t => (t.cluster 7).state == .idle && !(t.cluster 7).testing) = true := by decide +kernel

/-- An order waits at the dispatcher. -/
def ordering (o : Order) (s : State) : State := s.setFifo (fifoNum .hub 0 0) [orderPkt .hub 0 0 o]

/-- ChannelsAndExpandersJoinAndLeave. -/
theorem test_channel :
    ends (exec (.channelRetireOrder 15 2) up) (fun t => t.mgmt.link == some (.retireChannel 15 2) && (t.fifo (hubPort 1 0)).length == 2) = true ∧
    ends (exec (.channelRetireOrder 15 2) (ordering (.retireChannel 15 2) up))
      (fun t => t.memc.drains == [channelRange 15 2] && t.fifo (hubPort 0 0) == [reportPkt 0x100 (.result (.draining 3 0))]) = true ∧
    pagesIn up (channelRange 15 2) = [] ∧
    ends (exec (.channelRetireComplete 15 2) { up with memc := { drains := [channelRange 15 2] } })
      (fun t => (t.gdcOf 15).retired.getLsbD 2 && t.fifo (hubPort 0 0) == [reportPkt 0x100 (.result (.channelRetired 15 2))]) = true ∧
    ends (exec .eventRecord (reporting 0x100 [.result (.channelRetired 15 2)] { up with mgmt := { state := 2, link := some (.retireChannel 15 2) } }))
      (fun t => t.mgmt.link == none && t.mgmt.log.map (fun e => (e.kind, e.detail)) == [(7, 62#64)]) = true := by decide +kernel

/-- A device of 256 MiB on CXL port 2 whose range has drained. -/
def leaving : State :=
  { up with memc := { drains := [cxlRange 2 0 (2 ^ 28)] } }.setCxl 2 { state := .draining, ranges := [(0, 2 ^ 28, 2 ^ 28)] }

theorem test_expander : ends (exec (.cxlDeviceAdded 2 (2 ^ 28 + 1) false 16 3) (up.setCxl 2 { adding := true }))
      (fun t => (t.cxlOf 2).ranges == [(0, 2 ^ 29, 2 ^ 28 + 1)] && (t.cxlOf 2).state == .active) = true ∧
    lowestGap (deviceBytes (2 ^ 28)) 0 [] = some 0 ∧
    ends (exec (.cxlDeviceAdded 2 0 false 16 3) (up.setCxl 2 { adding := true }))
      (fun t => !(t.cxlOf 2).adding && t.fifo (hubPort 4 0) == [reportPkt 0x104 (.result (.deviceAdded 2 none []))]) = true ∧
    deviceAt (leaving.cxlOf 2).ranges 2 (Config.cxlBase + 2 * 2 ^ 42) = some (cxlRange 2 0 (2 ^ 28)) ∧
    (leaving.arbiter 18).pending = [] ∧
    ends (exec (.cxlDeviceRemoved 2 (Config.cxlBase + 2 * 2 ^ 42)) leaving)
      (fun t => (t.cxlOf 2).ranges.isEmpty && (t.cxlOf 2).state == .noLink &&
        t.fifo (hubPort 4 0) == [reportPkt 0x104 (.result (.deviceRemoved 2 []))]) = true := by decide +kernel

/-- A live update whose hand-over has reached a cluster. -/
def handing (c : Nat) : State := { up with mgmt := { state := 2, newImage := some {}, view := { handover := some c } } }

/-- FirmwareStartsAndHandsOver. -/
theorem test_handover : ends (exec (.handoverOrder 4 true) (up.modCluster 4 (fun k => { k with orders := [.handover] })))
      (fun t => (t.cluster 4).newFw && t.fifo (ctlPort 4 0) == [reportPkt 4 (.result (.handedOver 4))]) = true ∧
    ends (exec .eventRecord (reporting 4 [.result (.handedOver 4)] (handing 4)))
      (fun t => t.fifo (hubPort 1 0) == [orderPkt .controller 5 0 .handover] && t.mgmt.view.handover == some 5) = true ∧
    ends (exec .eventRecord (reporting 255 [.result (.handedOver 255)] (handing 255)))
      (fun t => t.mgmt.view.handover == none && (t.fifo (hubPort 1 0)).isEmpty) = true ∧
    ends (exec .mantisHandover { up with mgmt := { state := 2, newImage := some { fwVersion := 7 }, dispNew := true, updating := true } })
      (fun t => t.mgmt.fwVersion == 7#64 && t.mgmt.log.map (·.kind) == [14] && !t.mgmt.updating) = true ∧
    ends (exec (.firmwareReady ⟨List.replicate 16 2, [], [], [], [], [], true⟩) { up with mgmt := { state := 1 } })
      (fun t => t.mgmt.state == 2 && (t.gdcOf 15).rate == 2) = true := by decide +kernel

theorem test_dispatcher_handover :
    ends (exec .dispatcherHandover { up with mgmt := { state := 2, newImage := some {} } }) (fun t => t.mgmt.dispNew) = true := by decide +kernel

theorem test_fuses : nextFuse { up with mgmt := { state := 2, image := some { svn := 3, advance := true } } } = some (.svn 0) ∧
    nextFuse { up with mgmt := { state := 2, image := some { keySlot := 2, revokeBelow := true } } } = some (.revoked 0) := by decide +kernel

/-- SanitiseAbortAndRampSteps. -/
theorem test_sanitise_steps :
    ends (exec (.sanitiseOrder 0) { up with mgmt := { state := 2, sanitising := true, sanStep := 1 }, ctxs := [(1, { state := .ready })] })
      (fun t => t.mgmt.sanStep == 2 && t.ctxs.isEmpty) = true ∧
    ends (exec .sanitiseComplete { up with mgmt := { state := 2, sanitising := true, sanStep := 5, sanFailed := 3 } })
      (fun t => t.mgmt.sanitised && (t.op 3).state == 3 && (t.op 3).detail == 3) = true := by decide +kernel

theorem test_abort_and_ramp : ends (exec (.abortOrder 0) (ordering (.abort 0) (before (opWord 0 []) [] [])))
      (fun t => t.net.fifos.isEmpty && (t.launch 1).map (fun l => (l.phase == .ended, l.status)) == some (true, 0x102)) = true ∧
    ends (exec .rampBegin { up with mgmt := { state := 2, rampPending := true, target := 0 } }) (fun t => t.mgmt.ramping) = true ∧
    ends (exec .rampBegin { up with mgmt := { state := 2, rampPending := true, target := 0, summary := { paced := 1 } } })
      (fun t => !t.mgmt.ramping) = true ∧
    ends (exec .rampEnd { up with mgmt := { state := 2, ramping := true, target := 0 } })
      (fun t => t.mgmt.point == 0 && t.mgmt.log.map (·.kind) == [13]) = true := by decide +kernel

/-! ## Dispatch of launches and steps -/

/-- A ring of four entries at virtual address 0x10000 with one barrier record, and the same ring where it is poison. -/
def ring : State :=
  (physWrite (mapped up) 0x002000010000 (untagged (pack 128 [(0, 1, 1), (4, 4, 0xFFFFFFFF)]))).setQueue 5
    { state := .active, sqVa := 0x10000, sqEntries := 4, cqVa := 0x20000, cqEntries := 4, t := 1 }

theorem test_launch_fetch : nextQueue ring = some 5 ∧
    ends (exec (.launchFetch 5) ring)
      (fun t => t.disp.launches.map (fun l => (l.id, l.barrier, l.phase == .waiting)) == [(0, true, true)] && (t.queue 5).f == 1) = true ∧
    ends (exec (.launchFetch 5) (ring.setQueue 5 { ring.queue 5 with t := 0 })) (fun t => (t.queue 5).state == .idle) = true ∧
    ends (exec (.launchFetch 5) (ring.setQueue 5 { ring.queue 5 with sqVa := 0x40000000 })) (fun t => (t.queue 5).state == .faulted) = true := by
  decide +kernel

theorem test_launch_fetch_fails :
    ends (exec (.launchFetch 5) (physWrite ring 0x002000010000 (tagged (List.replicate 8 0#8) true)))
      (fun t => t.disp.launches.map (fun l => (l.phase == .ended, l.status)) == [(true, 0x301)]) = true ∧
    ends (exec (.launchFetch 5) (physWrite ring 0x002000010000 (untagged [2, 0, 0, 0, 0, 0, 0, 0])))
      (fun t => t.disp.launches.map (fun l => (l.phase == .ended, l.status)) == [(true, 0x100)]) = true := by decide +kernel

/-- A launch of the program header at virtual address 0x11000, which takes cluster 0. -/
def waitingLaunch : Launch :=
  { id := 0, queue := 5, sqIndex := 0, asid := 0, barrier := false, programVa := 0x11000
    header := { lcores := 1, clusters := 1, steps := 1, imageSize := 4096, stepTableOff := 256, cprogDirOff := 320 } }

def launchable (ln : Launch) : State :=
  let s := physWrite (mapped up) 0x002000011000 (untagged (pack 256 [(0, 4, 0x4D504752), (4, 2, 1), (6, 1, 1), (8, 1, 1), (0x28, 4, 1),
    (0x30, 8, 256), (0x38, 8, 320), (0x40, 8, 4096)]))
  { s with disp := { launches := [ln] } }

/-- LaunchesStartWhenTheirConditionsHold: the start decision succeeds, or refuses; a start count to come. -/
theorem test_launch_start : launchReady (launchable waitingLaunch) [] waitingLaunch = true ∧
    clustersFree (launchable waitingLaunch) waitingLaunch = true ∧
    (startDecision (launchable waitingLaunch) waitingLaunch).toOption = some waitingLaunch ∧
    startWaits (launchable waitingLaunch) waitingLaunch = false ∧
    ends (exec (.launchStart 0) (launchable waitingLaunch))
      (fun t => (t.launch 0).any (·.started) && (t.cluster 0).launch == some 0) = true ∧
    ends (exec (.launchStart 0) (launchable { waitingLaunch with lflags := 8, start := 5 }))
      (fun t => (t.launch 0).map (·.phase) == some .armed) = true ∧
    ends (exec (.launchStart 0) (launchable { waitingLaunch with programVa := 0x11800 }))
      (fun t => (t.launch 0).map (fun l => (l.phase == .ended, l.status)) == some (true, 0x200)) = true := by decide +kernel

theorem test_barrier_complete : ends (exec (.barrierComplete 0) (launchable { waitingLaunch with barrier := true }))
    (fun t => (t.launch 0).map (·.phase) == some .ended) = true := by decide +kernel

/-- CyclesPreloadsAndCompletions: two launches that wait for each other's objects; a launch that runs before another on cluster
0; a launch that has ended. -/
def cycle : State := { up with disp := { launches :=
  [{ waitingLaunch with waits := [{ obj := 1, target := 1 }], signals := [2] },
   { waitingLaunch with id := 1, waits := [{ obj := 2, target := 1 }], signals := [1] }] } }

theorem test_cycle : isCycle cycle (cycle.disp.launches.headD waitingLaunch) cycle.disp.launches = true ∧
    ends (exec (.dependencyCycle [0, 1]) cycle)
      (fun t => t.disp.launches.all (fun l => l.phase == .ended && l.status != 0) && t.disp.cycleCount.count == 1) = true := by
  decide +kernel

theorem test_preload : ends (exec (.preload 0) { launchable waitingLaunch with disp := { launches :=
      [{ waitingLaunch with id := 3, started := true, phase := .running }, { waitingLaunch with id := 4 }] } })
    (fun t => t.disp.preloads.map (fun p => (p.cluster, p.launch)) == [(0, 4)]) = true := by decide +kernel

def endedState : State :=
  (launchable { waitingLaunch with phase := .ended, started := true }).setQueue 5 { state := .active, cqVa := 0x20000, cqEntries := 4 }

theorem test_launch_complete : completionReady endedState { waitingLaunch with phase := .ended, started := true } = true ∧
    entryWaits endedState { waitingLaunch with phase := .ended, started := true } = false ∧
    ends (exec (.launchComplete 0) endedState) (fun t => t.disp.launches.isEmpty && (t.queue 5).c == 1) = true := by decide +kernel

/-! ## Queues, routes, invalidation -/

/-- A queue table at the bottom of GDDR7 with one good entry, of queue 1. -/
def tabled : State :=
  let s := physWrite up (Config.gddrBase + 64) (untagged (pack 64 [(0x8, 8, 0x10000), (0x10, 8, 0x20000), (0x18, 4, 4), (0x1C, 4, 8)]))
  { s with disp := { qtabBase := BitVec.ofNat 64 (Config.gddrBase + 1) } }

/-- DoorbellsMoveTheQueues: a good entry, one of zeros, and an enabled queue; entries to consume and none. -/
theorem test_queue_enable : tablePlace tabled (bits tabled.disp.qtabBase.toNat 12 40 * 4096 + 64) = true ∧
    (physRead tabled (Config.gddrBase + 64) 64).map (fun ts => (anyPoison ts, entryGood (ts.map (·.1)))) = some (false, true) ∧
    (physRead tabled (Config.gddrBase + 128) 64).map (fun ts => (anyPoison ts, entryGood (ts.map (·.1)))) = some (false, false) ∧
    ends (exec (.queueEnable 1) tabled) (fun t => (t.queue 1).state == .idle && (t.queue 1).sqEntries == 4 && (t.queue 1).cqEntries == 8 &&
      !t.disp.qctlRefused) = true ∧
    ends (exec (.queueEnable 2) tabled) (fun t => (t.queue 2).state == .disabled && t.disp.qctlRefused) = true ∧
    ends (exec (.queueDisable 5) queued) (fun t => (t.queue 5).state == .disabled) = true := by decide +kernel

theorem test_completion_doorbells : ends (exec (.cqHeadWrite 5 3) (queued.setQueue 5 { queued.queue 5 with c := 4 })) (fun t => (t.queue 5).h == 3) = true ∧
    ends (exec (.cqArmWrite 5 true) (queued.setQueue 5 { queued.queue 5 with c := 4, vecEn := true, vector := 9 }))
      (fun t => !(t.queue 5).armed && t.out == [.msix 9]) = true ∧
    ends (exec (.cqArmWrite 5 true) queued) (fun t => (t.queue 5).armed && t.out == []) = true := by decide +kernel

/-- SyncAndRouteWritesTakeEffect: a device with and without an outstanding transaction. -/
def outstanding : State := { up with silk := { device := some 0, txns := [{ kind := .read, device := 7, addr := 7 * 2 ^ 52, bytes := 64, issuer := .barrier }] } }

theorem test_sync_and_routes : ends (exec (.syncValueWrite 300 9) up) (fun t => (t.sync 300).value == 9) = true ∧
    ends (exec (.syncOwnerWrite 1 0x80000005) { up with disp := { syncs := [(300, { value := 4, error := true })] } })
      (fun t => t.sync 300 == {} && mapGet 0#32 t.disp.owner 1 == 0x80000005#32) = true ∧
    ends (exec (.silkRouteWrite 7 3) up) (fun t => mapGet 0#12 t.silk.routes 7 == 3#12) = true ∧
    ends (exec (.silkRouteWrite 7 3) outstanding) (fun t => mapGet 0#12 t.silk.routes 7 == 0#12 && mapFind t.silk.routeNext 7 == some 3#12) = true := by
  decide +kernel

/-- InvalidationsAndMigrationHolds: a translation in scope of an invalidation in progress; a hold with no migration. -/
theorem test_invalidation : ends (exec (.invalPage 3) { up with memc := { invalVa := 0x5000#64 } })
      (fun t => t.memc.busy == some (.page 3 0x5000)) = true ∧
    scopeQuiet { up with memc := { busy := some (.space 3), tlb := [(0, [⟨3, 0x5000, 4096, 0⟩, ⟨4, 0x5000, 4096, 0⟩])] } } (.space 3) = true ∧
    ends (exec .invalidationComplete { up with memc := { busy := some (.space 3), tlb := [(0, [⟨3, 0x5000, 4096, 0⟩, ⟨4, 0x5000, 4096, 0⟩])] } })
      (fun t => t.memc.busy == none && mapGet [] t.memc.tlb 0 == [⟨4, 0x5000, 4096, 0⟩]) = true ∧
    ends (exec .migHoldHeld { up with memc := { migHold := 0x2003#32 } }) (fun t => t.memc.held) = true := by decide +kernel

/-! ## Migration -/

/-- Address space 0 with one page of 64 KiB at virtual address 0, in GDDR7, that its policy lets into stacked memory. -/
def movable : State :=
  let g := Config.gddrBase
  let s := [(0x0, g + 0x1000 + 1), (0x1000, g + 0x2000 + 1), (0x2000, g + 0x3000 + 1), (0x3000, g + 0x4000 + 1),
      (0x4000, g + 0x5000 + 1),
      (0x5000, g + 0x100000 + 7)].foldl (fun s e => physWrite s (g + e.1) (untagged (leBytes 8 e.2)))
    { up with memc := { astabBase := BitVec.ofNat 64 (g + 1) } }
  { s with memc := { s.memc with
      policies := [(0, { enable := true, tiers := 7, stackedCap := 2 ^ 30, gddrCap := 2 ^ 30, rate := 2 ^ 30 })]
      pools := [(0, { frames := [(0x200000, 0x10000)], total := 0x10000 })] } }

/-- Pages that a drain of their channel has still to move. -/
theorem witness_drain_goes_on : pagesIn { movable with memc := { movable.memc with drains := [channelRange 0 0] } } (channelRange 0 0) ≠ [] := by
  decide +kernel

/-- A journal entry of a page of one line. -/
def moving : State :=
  let s := physWrite movable (Config.gddrBase + 0x100000) (untagged (List.replicate 8 5#8))
  { s with memc := { s.memc with moves :=
    [{ asid := 0, va := 0, bytes := 64, leafAt := Config.gddrBase + 0x5000, old := Config.gddrBase + 0x100000, new := 0x200000, oldTier := 1
       newTier := 0, drain := false }] } }

/-- MigrationsFollowTheJournal. -/
theorem test_migration : (match pageAt movable 0 0x123 with
      | some (page, l) => page == 0 && l.bytes == 65536 && eligible movable 0 l 0 && withinPolicy movable 0 l page 0 &&
        freeFrames movable 0 l.bytes == [0x200000] && !eligible { movable with memc := { movable.memc with policies := [] } } 0 l 0
      | none => false) = true ∧
    (physRead moving 0x002000100000 64).map anyPoison = some false ∧
    ends (exec (.migrationComplete 0 0) moving) (fun t => t.memc.moves.isEmpty && t.memc.migrations.count == 1) = true := by decide +kernel

/-! ## Steps, recomputation, anneal -/

/-- StepsBeginEndAndExpire: a Paced launch whose start is past and one whose start is to come; a bound that has passed; the end of
the only step, and of the first of two. -/
def paced (sigma : Nat) : State :=
  let s := { before (opWord 1 []) [] [] with pace := { cricket := 100 } }
  (s.modLaunch 1 (fun l => { l with lflags := 2, sigma := sigma, bounds := [50] })).modCluster 0 (fun k => { k with begun := false })

/-- Cluster 0 has ended the step of a launch of n steps. -/
def stepEnded (n : Nat) : State :=
  ((before (opWord 1 []) [] []).modLaunch 1 (fun l => { l with steps := List.replicate n ⟨0, 0, 1, 0, 0, 0, 0⟩ })).modCluster 0
    (fun k => { k with ended := true, sat := 2 })

theorem test_steps : (paced 90).runningOn 0 = (paced 90).launch 1 ∧ ((paced 90).launch 1).isSome = true ∧
    (((paced 90).launch 1).any (fun l => l.phase == .running && l.lflags.testBit 1 && !l.barred && l.status == 0)) = true ∧
    ends (exec (.stepBoundExpiry 1) (paced 90)) (fun t => (t.launch 1).map (·.status) == some 0x203) = true ∧
    ((stepEnded 1).launch 1).any (fun l => allEnded (stepEnded 1) l && !longStep (stepEnded 1) l && (overRuns (stepEnded 1) 1).isEmpty) = true ∧
    ends (exec (.launchWideStepEnd 1) (stepEnded 1)) (fun t => (t.launch 1).map (fun x => (x.phase == .ended, x.status)) == some (true, 1)) = true ∧
    ends (exec (.launchWideStepEnd 1) (stepEnded 2)) (fun t => (t.launch 1).map (fun x => (x.phase == .running, x.step)) == some (true, 1) &&
      (t.cluster 0).pos == 1) = true := by decide +kernel

/-- RecomputationRestoresTheSnapshot: a step abandoned with a golden copy at hand, with three reruns behind it, and over a lost
port; a place consumed twice; a snapshot slot with a bad word. -/
def abandoned (a : Abandon) : State := (before (opWord 0 []) [] []).modCluster 0 (fun k => { k with abandon := some a, snap := {}, pos := 5 })

theorem test_recompute : ends (exec (.stepRecompute 0) (abandoned { core := 0, places := [] }))
      (fun t => (t.cluster 0).abandon == none && (t.cluster 0).pos == 0 && (t.cluster 0).reruns == 1) = true ∧
    ends (exec (.stepRecompute 0) ((abandoned { core := 0, places := [] }).modCluster 0 (fun k => { k with reruns := 3 })))
      (fun t => (t.launch 1).map (·.status) == some 0x302) = true ∧
    ends (exec (.stepRecompute 0) (abandoned { core := 0, places := [], lost := true })) (fun t => (t.launch 1).map (·.status) == some 0x400) = true ∧
    consumedTwice (abandoned { core := 0, places := [] }) 0 1 [] = false ∧ stepQuiet (abandoned { core := 0, places := [] }) 0 = true ∧
    consumedTwice ((abandoned { core := 0, places := [Config.gddrBase] }).modCluster 0 (fun k => { k with
      consumed := [(Config.gddrBase, List.replicate 8 0#8)] })) 0 1 [Config.gddrBase] = true := by decide +kernel

theorem test_recompute_bad_slot :
    let s := (abandoned { core := 0, places := [] }).modCluster 0 (fun k => { k with snap := { k.snap with logged := [(0, 0)] } })
    let s := { s with mem := { s.mem with check := [(slotAddr 0 0 0 / 8, 1#8)] } }
    (s.cluster 0).snap.logged.any (lineSlotBad s 0) = true ∧ stepQuiet s 0 = true ∧ consumedTwice s 0 1 [] = false ∧
    ends (exec (.stepRecompute 0) s) (fun t => (t.launch 1).map (·.status) == some 0x301) = true := by decide +kernel

/-- An image at virtual address 0x14000: two variables in one block, packed as INT4, no coupling, biases 1 and 0; one replica; one stage of
two sweeps. -/
def imaged (s : State) : State :=
  let g := Config.gddrBase + 0x14000
  [(0, pack 256 [(0, 4, 0x4D425250), (4, 2, 1), (8, 8, 2), (0x10, 4, 1), (0x1C, 2, 1), (0x1E, 1, 1), (0x20, 2, 1), (0x28, 8, 2),
      (0x40, 8, 4096), (0x48, 8, 256), (0x58, 8, 320), (0x70, 8, 384), (0x78, 8, 448)]),
    (256, pack 24 [(4, 2, 2), (7, 1, 7), (0x10, 8, 512)]), (320, leBytes 8 1),
    (448, pack 32 [(4, 4, 2), (8, 4, 0x80000000), (0x18, 4, 1)]),
    (1024, List.replicate 32 0x7F#8)].foldl (fun s e => physWrite s (g + e.1) (untagged e.2)) (mapped s)

/-- LOADIMG of the image at a virtual address into context 2. -/
def loading (va : Nat) : State :=
  (imaged (before (opWord 0x42 [0, 0]) [] [])).modLaunch 1 (fun l => { l with
    header := { l.header with argBytes := 32 }, args := pack 32 [(0, 8, va), (8, 4, 2)] })

/-- LoadsCheckTheImageAndReadyTheContext, the first load step: a good image, a page of zeros, a context that another run holds. -/
theorem test_load_begins : ready (loading 0x14000) 0x42 = true ∧ ((loading 0x14000).launch 1).any (fun l => !l.longRan) = true ∧
    (checkDirectories (fetchAt (loading 0x14000) 0 0x14000) 0x14000).toOption.map (·.h.nvars) = some 2 ∧
    ends (exec (.loadimg 0) (loading 0x14000))
      (fun t => (t.ctx 2).state == .loading && (mapFind t.loads 2).map (·.stepsTotal) == some 5 && (t.cluster 0).pos == 1) = true ∧
    ends (exec (.loadimg 0) (physWrite (loading 0x16000) 0x002000016000 (untagged (leBytes 8 0)))) (fun t => ((t.ctx 2).state, (t.ctx 2).loadError) == (.failed, 1) &&
      (t.launch 1).map (·.status) == some 0x204) = true ∧
    ends (exec (.loadimg 0) ((loading 0x14000).setCtx 2 { state := .running })) (fun t => (t.launch 1).map (·.status) == some 0x205) = true := by
  decide +kernel

/-- The same load before one of its steps. -/
def loadingAt (k : Nat) : State :=
  { (loading 0x14000).setCtx 2 { state := .loading, imageVa := 0x14000 } with
    loads := [(2, { launch := 1, reload := false, sections := 0, stepsDone := k, stepsTotal := 5 })] }

/-- LoadsCheckTheImageAndReadyTheContext, the steps after it. -/
theorem test_load_goes_on : ends (exec (.loadimg 0) (loadingAt 1)) (fun t => (mapFind t.loads 2).map (·.stepsDone) == some 2) = true ∧
    (match (fetchAt (loadingAt 4) 0 0x14000).problem with
      | .ok m => (quantiseSections (fetchAt (loadingAt 4) 0 0x14000) m (m.h.source &&& 0) (inMiB 0)).toOption == some [] &&
          (packedFailures (fetchAt (loadingAt 4) 0 0x14000) m 7).toOption == some [] &&
          (checkContent (fetchAt (loadingAt 4) 0 0x14000) m).isOk && (coefficientStream (fetchAt (loadingAt 4) 0 0x14000) m).isOk
      | .error _ => false) = true := by decide +kernel

/-- Context 2 runs that image for launch 1, before a step of a kind; its area lies at virtual address 0x18000. -/
def annealing (next : RunStage) : State :=
  let s := (imaged (before (opWord 0x40 [2, 0]) [] [])).modCluster 0 (fun k => { k with ended := true, pos := 1 })
  let s := [0x18000, 0x19000, 0x1A000].foldl (fun s a => physWrite s (Config.gddrBase + a) (untagged (leBytes 8 0))) s
  let s := s.modLaunch 1 (fun l => { l with place := [0] })
  (s.setCtx 2 { state := .running, imageVa := 0x14000, bestEnergy := 5 }).setRun 2
    { launch := 1, asid := 0, next := next, reps := [{ energy := 1, bestEnergy := 1, betaM := 0x80000000 }]
      area := { va := 0x18000, size := 0x3000, stats := 256, state := 512, best := 576, ckpt0 := 0x1000, ckpt1 := 0x2000, ckptBytes := 0x1000 } }

/-- PhasesUpdateEveryReplica. -/
theorem test_phase : (runAt (annealing .phase) 2 .phase).any (fun x => stepMayRun (annealing .phase) x.1 && x.2.traceStop.isNone && x.2.exch.isNone) = true ∧
    (match (fetchAt (annealing .phase) 0 0x14000).problem with
      | .ok m => ((fetchAt (annealing .phase) 0 0x14000).schedule m).isOk
      | .error _ => false) = true ∧
    ends (exec (.annealPhase 2) (annealing .phase)) (fun t => (t.run 2).map (fun r => (r.phase, r.next)) == some (1, .sweepEnd) &&
      (t.run 2).any (fun r => r.reps.all (fun x => x.attempts.count == 2))) = true := by decide +kernel

/-- The phases of a sweep are done. -/
def sweepDone : State := (annealing .sweepEnd).modRun 2 (fun r => { r with phase := 1 })

/-- SweepsEndWithRecordsAndPositions: a sweep after which the run goes on, its last one, and a run resumed after its last one. -/
theorem test_sweep_end : ends (exec (.sweepEnd 2) sweepDone)
      (fun t => (t.run 2).map (fun r => (r.sweep, r.stageSweep, r.next)) == some (1, 1, .phase)) = true ∧
    (((annealing .sweepEnd).run 2).any (fun r => !r.traceOn && !r.due)) = true ∧
    ends (exec (.sweepEnd 2) (annealing .sweepEnd)) (fun t => (t.run 2).map (fun r => (r.next, r.sweep)) == some (.finished, 0)) = true ∧
    ends (exec (.sweepEnd 2) (sweepDone.modRun 2 (fun r => { r with stageSweep := 1 })))
      (fun t => (t.run 2).map (·.next) == some .finished && (t.ctx 2).state == .ready && (t.ctx 2).bestEnergy == 1 && (t.ctx 2).runs == 1) = true := by
  decide +kernel

/-- SweepsEndWithRecordsAndPositions: a member's sweep ends; the report of the other member is in its states. -/
theorem test_member_sweep_end : ends (exec (.sweepEnd 2) ((annealing .sweepEnd).modRun 2 (fun r => { r with
      phase := 1
      exch := some { loose := false, members := [⟨0, 0, 1, 0, 0⟩, ⟨1, 1, 1, 0, 0⟩], self := 0, timeoutUs := 1, epoch := 7
                     inboxOff := 0, sub := 8192, ackOff := 0
                     reports := [{ sender := 1, sweep := 0, phase := 0, boundary := [⟨1, 0, true⟩], boundaryDone := true }] } })))
    (fun t => (t.run 2).any (fun r => r.reps.map (·.u) == [2] && r.exch.any (·.reports.isEmpty))) = true := by decide +kernel

/-- RotationsAndCheckpointsWriteTheArea: a checkpoint that goes on, and one that pauses. -/
theorem witness_checkpoint : let s := annealing .checkpoint
    (match (fetchAt s 0 0x14000).problem, s.run 2 with
      | .ok m, some r =>
        match writeCkpt s 2 r (fetchAt s 0 0x14000) m with
        | .ok w => (match writeAll 0 (markRan 1 (annealWork ((s.launch 1).getD waitingLaunch) { r with ckptSeq := 1 } m .checkpoint w.1)) 0 r.area.va
              (areaRows r.area m.h.nvars r.reps) with
            | .ok u => (readPause u { r with ckptSeq := 1 }).toOption == some false &&
                (closeRun 2 ((s.launch 1).getD waitingLaunch) m true { r with ckptSeq := 1, pausing := true } u).isOk
            | .error _ => false)
        | .error _ => false
      | _, _ => false) = true := by decide +kernel

/-- RotationsAndCheckpointsWriteTheArea: a resumed run of one rotation whose block is staged from virtual address 0x1C000 on. -/
def rotating : State := (annealing .resume).modRun 2 (fun r => { r with
  plan := [(1, [0])], area := { r.area with stageVa := 0x1C000, stageBytes := 0x2000 } })

theorem test_rotation : ends (exec (.rotationStart 2) rotating) (fun t => (t.run 2).map (·.next) == some .phase) = true := by decide +kernel

/-- ANNEAL of that image in context 2, its area at virtual address 0x18000, its descriptor at the start of the arguments. -/
def starting (state : CtxState) : State :=
  let s := (imaged (before (opWord 0x40 [2, 0]) [] [])).setCtx 2 { state := state, imageVa := 0x14000, stateVa := 0x18000, replicas := 1, nvars := 2 }
  let s := physWrite s (Config.gddrBase + 0x18000) (untagged (pack 104 [(0, 4, 0x52535441), (4, 2, 1), (8, 8, 0x3000), (0x10, 8, 256),
    (0x18, 8, 512), (0x20, 8, 576), (0x48, 8, 0x1000), (0x50, 8, 0x2000), (0x58, 8, 0x1000)]))
  s.modLaunch 1 (fun l => { l with place := [0], header := { l.header with argBytes := 64 }, args := pack 64 [(0, 8, 77), (9, 1, 2)] })

/-- AnnealStartsARun: a run that begins, a context that has none to begin, and a run that stands. -/
theorem test_anneal : ready (starting .ready) 0x40 = true ∧
    ends (exec (.anneal 0) (starting .ready)) (fun t => (t.cluster 0).pos == 1 && ((t.ctx 2).state == .running) &&
      (t.run 2).any (fun r => r.seed == 77 && !r.seedWait && r.next == .phase && r.reps.all (fun x => x.best == x.u))) = true ∧
    ends (exec (.anneal 0) (starting .failed)) (fun t => (t.launch 1).map (·.status) == some 0x205) = true ∧
    ends (exec (.anneal 0) ((annealing .phase).modCluster 0 (fun k => { k with ended := false, pos := 0 }))) (fun t => (t.cluster 0).pos == 1) = true := by
  decide +kernel

/-- TraceRecordsReachTheRingInOrder: a ring of one slot with room, without room, and where the read index cannot be read. -/
def tracing (n : Nat) (rdVa : Nat) : State :=
  ((annealing .phase).modRun 2 (fun r => { r with traceOn := true, traceN := n, traceVa := 0x19000, traceSlots := 1, traceRdVa := rdVa, traceWrVa := 0x19048 })
    ).modCluster 0 (fun k => { k with trace := [{ ctx := 2, launch := 1, replica := 0, bytes := List.replicate 64 0#8 }] })

theorem test_trace_ring : ends (exec (.traceRingWrite 0) (tracing 0 0x19040))
      (fun t => (t.cluster 0).trace.isEmpty && (t.run 2).map (·.traceN) == some 1 && t.trace.records.count == 1) = true ∧
    ends (exec (.traceRingWrite 0) (tracing 1 0x19040)) (fun t => (t.cluster 0).trace.length == 1 && t.trace.events == 2#32) = true ∧
    ends (exec (.traceRingWrite 0) (tracing 0 0x40000000)) (fun t => (t.run 2).map (·.traceStop) == some (some 0x300)) = true := by decide +kernel

/-- ReportsAreConsumedInOrder: member 0 of two, whose partner on device 1 has sent a packet of a type. -/
def exchanging (typ : Nat) : State :=
  let s := physWrite (annealing .phase) (Config.gddrBase + 0x1A000) (untagged (pack 64 [(0, 1, typ), (6, 1, 1),
    (0x38, 8, if typ = 3 then 0x1000 else 64)]))
  let x : Exch := {
    loose := false, members := [⟨0, 0, 1, 0, 0⟩, ⟨1, 1, 1, 2 ^ 52, 2 ^ 52 + 4096⟩], self := 0, timeoutUs := 5, epoch := 0
    inboxOff := 0x1000, sub := 0x1000, ackOff := 0, own := some [] }
  let s := s.modRun 2 (fun r => { r with seed := 9, exch := some x })
  { s with silk := { device := some 0, routes := [(1, 1#12)], ports := [(0, { state := .up8 })] } }

theorem test_reports_arrive : (match (exchanging 3).run 2 with
      | some r => r.exch.any (fun x => (peerWrite (exchanging 3) ((x.member 1).ackGva + 8 * x.self) (untagged (leBytes 8 0x1000))).isOk)
      | none => false) = true ∧
    ends (exec (.reportPacket 2 1) (exchanging 3)) (fun t => ((t.run 2).bind (·.exch)).map (fun x => mapGet 0 x.rpos 1) == some 0x1000) = true ∧
    ends (exec (.reportPacket 2 1) (exchanging 1)) (fun t => (t.launch 1).map (·.status) == some 0x401) = true ∧
    ends (exec (.reportPacket 2 1) ((exchanging 1).modRun 2 (fun r => { r with seed := 0 })))
      (fun t => ((t.run 2).bind (·.exch)).map (fun x => (x.rpos, x.reports.length)) == some ([(1, 64)], 1)) = true ∧
    ends (exec (.reportPacket 2 1) ((exchanging 1).modRun 2 (fun r => { r with exch := r.exch.map (fun x => { x with epoch := 1 }) })))
      (fun t => (t.launch 1).map (·.status) == some 0) = true := by decide +kernel

/-- PhasesUpdateEveryReplica, a run of several devices and one whose ring writer has stopped. -/
theorem test_member_phase :
    ends (exec (.annealPhase 2) ((exchanging 0).modRun 2 (fun r => { r with exch := r.exch.map (fun x => { x with own := none }) })))
      (fun t => (t.run 2).any (fun r => r.phase == 1 && r.exch.any (fun x => x.last == some (0, 0)))) = true ∧
    ends (exec (.annealPhase 2) ((annealing .phase).modRun 2 (fun r => { r with traceStop := some 0x301 })))
      (fun t => (t.launch 1).map (·.status) == some 0x301) = true := by decide +kernel

/-- A member that has waited for the reports of phase 0 of sweep 0 since count 0. -/
def lateMember (now : Nat) : State :=
  { (exchanging 0).modRun 2 (fun r => { r with exch := r.exch.map (fun x => { x with last := some (0, 0), own := none }) }) with pace := { cricket := now } }

theorem test_report_timeout : ends (exec (.reportTimeout 2) (lateMember 5001)) (fun t => (t.launch 1).map (·.status) == some 0x400) = true ∧
    ends (exec (.reportTimeout 2) (lateMember 5000)) (fun t => (t.launch 1).map (·.status) == some 0) = true := by decide +kernel

/-! ## Network and memory ports -/

/-- A SEND packet from logical core 5 to logical core 6 of cluster 0, and a partial to its reduction node. -/
def sent : Pkt :=
  { typ := 4, vc := 1, flits := 2, last := true, destUnit := .core, destIndex := 6, srcUnit := .core, srcIndex := 5, targets := [6]
    payload := .bytes (untagged [1, 2, 3, 4, 5, 6, 7, 8]), pieces := [(64, 8)] }

def reducing : Pkt :=
  { typ := 6, vc := 1, flits := 2, netred := true, destUnit := .node, destIndex := 3, srcUnit := .core, srcIndex := 5, launch := 1, sources := 1
    payload := .wides [{ w := { v := 7, n := 1 }, f := 0 }] }

def carrying (n : Nat) (k : Pkt) : State := up.setFifo n [k]

/-- RoutersForwardMergeAndDeliver: a packet at its router port, at an output, and at the port of the core it goes to. -/
theorem test_router : takenBy (corePort 0 5 1) = some (.core 0 5) ∧ itsTurn (carrying (corePort 0 5 1) sent) (corePort 0 5 1) = true ∧
    (branches up (.core 0 5) sent).map (·.1) = [fifoNum (.core 0 5) 1 1] ∧
    nextInput (carrying (corePort 0 5 1) sent) (fifoNum (.core 0 5) 1 1) = some (corePort 0 5 1) ∧
    ends (exec (.routerPacket (corePort 0 5 1) 0 0 0) (carrying (corePort 0 5 1) sent))
      (fun t => (t.fifo (corePort 0 5 1)).isEmpty && (t.fifo (fifoNum (.core 0 5) 1 1)).length == 1) = true ∧
    ends (exec (.routerPacket (corePort 0 5 1) 4 4 0) (carrying (corePort 0 5 1) sent))
      (fun t => t.fifo (ctlPort 0 0) == [reportPkt 0 (eventOf 16 0 0 0)] && (t.cluster 0).netDrops.count == 1) = true ∧
    hasRoom (up.setFifo (fifoNum (.core 0 5) 1 1) (List.replicate 34 sent)) (fifoNum (.core 0 5) 1 1) sent = false := by
  decide +kernel

/-- Round robin (R647): after the router port an output admits the FIFO of the neighbour, and after that the port again. -/
def contended (last : Nat) : State :=
  let s := (carrying (corePort 0 5 1) sent).setFifo (fifoNum (.core 0 4) 1 1) [sent]
  { s with net := { s.net with served := [(fifoNum (.core 0 5) 1 1, last)] } }

theorem test_round_robin : nextInput (contended (corePort 0 5 1)) (fifoNum (.core 0 5) 1 1) = some (fifoNum (.core 0 4) 1 1) ∧
    nextInput (contended (fifoNum (.core 0 4) 1 1)) (fifoNum (.core 0 5) 1 1) = some (corePort 0 5 1) := by decide +kernel

theorem test_merge : (branches up (.core 0 5) reducing).map (·.1) = [fifoNum (.core 0 5) 3 1] ∧
    findIdx (fun w => mergeable w reducing) [reducing] 0 = some 0 ∧
    ends (exec (.routerPacket (corePort 0 5 1) 0 0 0) ((carrying (corePort 0 5 1) reducing).setFifo (fifoNum (.core 0 5) 3 1) [reducing]))
      (fun t => (t.fifo (fifoNum (.core 0 5) 3 1)).map (·.sources) == [2] && (t.cluster 0).netMerges.count == 1) = true := by decide +kernel

/-- A packet at the output of a router to a unit. -/
def reaching (node : RNode) (o v : Nat) (k : Pkt) (s : State := up) : State := s.setFifo (fifoNum node o v) [k]

/-- The read response to a transaction of eight bytes of core 6 of cluster 0, and a read and a write request. -/
def response : Pkt :=
  { typ := 2, vc := 2, flits := 2, last := true, destUnit := .core, destIndex := 6, srcUnit := .crossbar, srcCluster := 1, txn := 3
    launch := 1, addr := 64, length := 64, payload := .bytes (untagged (List.replicate 64 9)) }

def request (typ : Nat) (unit : UnitKind) (cluster index addr : Nat) : Pkt :=
  { typ := typ, vc := 1, flits := 2, last := true, destUnit := unit, destCluster := cluster, destIndex := index, srcUnit := .core
    srcIndex := 6, txn := 3, launch := 1, addr := addr, length := 8, payload := if typ = 0 then .none else .bytes (untagged [1, 2, 3, 4, 5, 6, 7, 8]) }

def reader : State := up.modCore 0 6 (fun k => { k with sent := [{ kind := .read, device := 0, addr := 72, bytes := 8, issuer := .stream 0 6
                                                                   launch := 1, dest := 64, num := 3 }] })

theorem test_delivery : takenBy (fifoNum (.core 0 6) 4 1) = none ∧ fifoOwner (fifoNum (.core 0 6) 4 1) = some (.core 0 6, 4, 1) ∧
    ends (exec (.routerPacket (fifoNum (.core 0 6) 4 1) 0 0 0) (reaching (.core 0 6) 4 1 sent))
      (fun t => physRead t (window 0 6 64) 8 == some (untagged [1, 2, 3, 4, 5, 6, 7, 8]) && (t.fifo (corePort 0 6 2)).map (·.typ) == [3]) = true ∧
    ends (exec (.routerPacket (fifoNum (.core 0 6) 4 2) 0 0 0) (reaching (.core 0 6) 4 2 response reader))
      (fun t => physRead t (window 0 6 64) 8 == some (untagged (List.replicate 8 9)) && (t.core 0 6).sent.isEmpty) = true ∧
    ends (exec (.routerPacket (fifoNum (.core 0 6) 4 2) 0 0 0)
      (reaching (.core 0 6) 4 2 { sent with typ := 3, vc := 2 } (up.modCore 0 6 (fun k => { k with acks := 2 }))))
      (fun t => (t.core 0 6).acks == 1) = true := by decide +kernel

/-- Requests reach a crossbar, a GDDR7 controller, a CXL port and a Silk port whose queue waits. -/
theorem test_requests_arrive : lineCount (request 1 .crossbar 5 0 0x7800000) = 1 ∧
    ends (exec (.routerPacket (fifoNum (.clu 1) 10 1) 0 0 0) (reaching (.clu 1) 10 1 (request 1 .crossbar 1 0 0x7800000)))
      (fun t => physRead t 0x7800000 8 == some (untagged [1, 2, 3, 4, 5, 6, 7, 8]) && (t.fifo (xbarPort 1 2)).map (·.typ) == [3]) = true ∧
    ends (exec (.routerPacket (fifoNum (.clu 1) 10 1) 0 0 0) (reaching (.clu 1) 10 1 (request 0 .crossbar 1 0 0x7800000)))
      (fun t => (t.fifo (xbarPort 1 2)).map (fun k => (k.typ, k.destIndex, k.txn)) == [(2, 6, 3)]) = true ∧ gddrAttach 0 = 16 ∧
    ends (exec (.routerPacket (fifoNum (.clu 16) 11 1) 0 0 0) (reaching (.clu 16) 11 1 (request 0 .attached 16 0 Config.gddrBase)))
      (fun t => (t.arbiter 0).pending == [0]) = true ∧
    ends (exec (.routerPacket (fifoNum .hub 2 1) 0 0 0) (reaching .hub 2 1 (request 0 .hub 0 2 Config.cxlBase) (up.setCxl 0
      { state := .active, ranges := [(0, 2 ^ 28, 2 ^ 28)] }))) (fun t => (t.arbiter 16).pending == [0]) = true ∧
    ends (exec (.routerPacket (fifoNum .hub 6 1) 0 0 0) (reaching .hub 6 1 (request 0 .hub 0 6 (2 ^ 52)) (up.setPort 0
      { queue := [{ typ := 0, vc := 1 }] }))) (fun t => (t.arbiter 20).pending == [0]) = true := by decide +kernel

/-- The arbiter of a memory port (R134, R135): source 16 lies beside controller 0 and is granted four transactions of a visit, then
the next source in ascending order has its turn. -/
theorem test_arbiter : let a : Arbiter := { sources := [(16, [{ pkt := request 0 .attached 16 0 0 }]), (200, [{ pkt := request 0 .attached 16 0 0 }])] }
    sourceWeight 16 0 = 4 ∧ a.next = some 16 ∧ { a with last := 16, left := 3 }.next = some 16 ∧
    { a with last := 16, left := 0 }.next = some 200 ∧ (a.granted 0 16 (some { pkt := request 0 .attached 16 0 0 })).left = 3 := by
  decide +kernel

/-- OrdersActWhereTheyArrive: orders at a cluster controller, the dispatcher, a GDDR7 controller, a CXL port and a Silk port. -/
theorem test_orders_at_controllers :
    ends (exec (.routerPacket (fifoNum (.clu 5) 8 0) 0 0 0) (reaching (.clu 5) 8 0 (orderPkt .controller 5 0 (.reset 5 none))))
      (fun t => (t.cluster 5).state == .out && t.fifo (ctlPort 5 0) == [reportPkt 5 (.result (.restarted 5 false none))]) = true ∧
    ends (exec (.routerPacket (fifoNum (.clu 5) 8 0) 0 0 0) (reaching (.clu 5) 8 0 (orderPkt .controller 5 0 (.test none))))
      (fun t => (t.cluster 5).testing) = true ∧
    ends (exec (.routerPacket (fifoNum (.clu 5) 8 0) 0 0 0) (reaching (.clu 5) 8 0 (orderPkt .controller 5 0 (.fence 3 none))))
      (fun t => (t.cluster 5).orders == [.fence 3 none]) = true ∧
    ends (exec (.routerPacket (fifoNum (.clu 16) 11 0) 0 0 0) (reaching (.clu 16) 11 0 (orderPkt .attached 16 0 (.drainChannel 2))))
      (fun t => (t.gdcOf 0).draining == 4#4) = true := by decide +kernel

theorem test_orders_at_the_hub :
    ends (exec (.routerPacket (fifoNum .hub 0 0) 0 0 0) (ordering (.reset 5 none) up))
      (fun t => (t.fifo (hubPort 0 0)).map (fun k => (k.destCluster, k.payload)) == [(5, .order (.reset 5 none))]) = true ∧
    ends (exec (.routerPacket (fifoNum .hub 0 0) 0 0 0) (ordering (.removeDevice 2 (Config.cxlBase + 2 * 2 ^ 42)) leaving))
      (fun t => t.fifo (hubPort 0 0) == [reportPkt 0x100 (.result (.draining 2 0))]) = true ∧
    ends (exec (.routerPacket (fifoNum .hub 0 0) 0 0 0) (ordering (.abort 1) up)) (fun t => t.net.fifos.length == 1) = true ∧
    ends (exec (.routerPacket (fifoNum .hub 4 0) 0 0 0) (reaching .hub 4 0 (orderPkt .hub 0 4 .addDevices)))
      (fun t => (t.cxlOf 2).adding) = true ∧
    ends (exec (.routerPacket (fifoNum .hub 4 0) 0 0 0) (reaching .hub 4 0 (orderPkt .hub 0 4 .drainDevice) leaving))
      (fun t => (t.cxlOf 2).state == .draining) = true := by decide +kernel

theorem test_orders_at_silk_ports :
    ends (exec (.routerPacket (fifoNum .hub 6 0) 0 0 0) (reaching .hub 6 0 (orderPkt .hub 0 6 (.retrainLane 5)) (up.setPort 0 { state := .up8 })))
      (fun t => (t.portOf 0).state == .upLow && (t.portOf 0).retrainLane == some 5) = true ∧
    ends (exec (.routerPacket (fifoNum .hub 6 0) 0 0 0) (reaching .hub 6 0 (orderPkt .hub 0 6 (.retrainLane 5))))
      (fun t => t.fifo (hubPort 6 0) == [reportPkt 0x106 (.result (.linkDone 0 false))]) = true ∧
    ends (exec (.routerPacket (fifoNum .hub 6 0) 0 0 0) (reaching .hub 6 0 (orderPkt .hub 0 6 (.moveLink 17)) (up.setPort 0 { state := .up8 })))
      (fun t => (t.portOf 0).substituting && (t.portOf 0).moveTo == 17) = true := by decide +kernel

/-- MulticastsBranchAndPartialsCombine: two branches with room; a partial of the launch that runs, of another launch, and poisoned. -/
def partialAt (k : Pkt) : State := (before (opWord 0 []) [] []).setFifo (nodeFifo 0) [k]

/-- A multicast packet at the router port of position 27. -/
def branching : State := carrying (corePort 0 27 1) { sent with typ := 5, targets := [26, 28] }

theorem test_multicast : (branches up (.core 0 27) { sent with typ := 5, targets := [26, 28] }).length = 2 ∧
    (branches up (.core 0 27) { sent with typ := 5, targets := [26, 28] }).all (mcastRoom up) = true ∧
    admitsInput branching (corePort 0 27 1) (branches up (.core 0 27) { sent with typ := 5, targets := [26, 28] }) = true ∧
    ends (exec (.mcastPacketAccept (corePort 0 27 1)) branching) (fun t => t.net.fifos.length == 2) = true ∧
    ends (exec (.routerPacket (corePort 0 27 1) 0 0 2) branching) (fun t => (t.fifo (corePort 0 27 1)).length == 1 &&
      t.net.fifos.all (fun e => e.2.all (fun k => k.payload.bytesOf.all (·.2)))) = true := by decide +kernel

theorem test_partials : itsTurn (partialAt reducing) (nodeFifo 0) = true ∧
    ends (exec (.reductionPartialArrival 0) (partialAt reducing))
      (fun t => (((mapFind (nodeTile (t.cluster 0) 3).tile.els 0).map (·.wide.v)).getD 0) == 7) = true ∧
    ends (exec (.reductionPartialArrival 0) (partialAt { reducing with launch := 2 })) (fun t => (t.cluster 0).node.isEmpty) = true ∧
    ends (exec (.reductionPartialArrival 0) (partialAt { reducing with bad := true }))
      (fun t => (t.launch 1).map (·.status) == some 0x301) = true ∧
    ends (exec (.routerPacket (nodeFifo 0) 0 0 2) (partialAt reducing))
      (fun t => (t.fifo (nodeFifo 0)).all (·.bad) && (t.cluster 0).netPoison.count == 1) = true := by decide +kernel

/-- MemoryPortsAnswerOrFail: a burst of channel 0 of controller 3; a lost link; a range shown; host memory read. -/
def linked : State := up.setCxl 1 { state := .active, ranges := [(0, 2 ^ 28, 2 ^ 28)] }

theorem test_memory_ports : (match placeOf up (Config.gddrBase + 2 ^ 32 * 3) with
      | .gddr q k => (q, k) == (3, 0)
      | _ => false) = true ∧
    ends (exec (.gddr7Burst (Config.gddrBase + 2 ^ 32 * 3) false 2 1) up) (fun t => (t.gdcOf 3).crc.count == 2 && (t.gdcOf 3).ecc.count == 1) = true ∧
    ends (exec (.gddr7Burst (Config.gddrBase + 2 ^ 32 * 3) false 5 0) up) (fun t => (t.gdcOf 3).crc.count == 4 && (t.gdcOf 3).events.getLsbD 0) = true ∧
    ends (exec (.gddr7Refresh 3 1 96) up) (fun t => (t.gdcOf 3).hot) = true ∧
    ends (exec (.channelFailed 3 1) up) (fun t => (t.gdcOf 3).failed == 2#4 && (t.gdcOf 3).events == 8#32) = true ∧
    (up.cxlOf 1).linked = false ∧ (linked.cxlOf 1).linked = true ∧
    ends (exec (.cxlLinkDown 1) linked) (fun t => (t.cxlOf 1).state == .lost) = true ∧
    ends (exec (.cxlReadResponse 1 64 [9] false) linked) (fun t => mapFind t.mem.cxl (Config.cxlBase + 2 ^ 42 + 64) == some 9) = true ∧
    ends (exec (.hostReadCompletion 8 [9] .timeout) up) (fun t => t.mem.hostPoison == [1] && t.hostp.events == 16#32) = true ∧
    ends (exec .hostLinkDown up) (fun t => !t.hostp.linkUp) = true := by decide +kernel

/-! ## Silk -/

/-- Device 0 with port 0 up towards device 1, to which it is routed, and the whole of channel 0 open to peers. -/
def joined : State :=
  { up with silk := { device := some 0, routes := [(1, 1#12)], ports := [(0, { state := .up8 })]
                      winBase := [(0, BitVec.ofNat 64 (Config.gddrBase + 3))], winLimit := [(0, BitVec.ofNat 64 (Config.gddrBase + 2 ^ 30 - 4096))] } }

/-- An empty frame as its sender seals it. -/
def arriving (seq : Nat) (idle : Bool) : Frame := ({ txSeq := BitVec.ofNat 16 seq } : Port).frame [] idle false false

/-- FramesAreAcceptedInOrderAndReplayed: frames in order and out of order, idle or not, and one whose CRC is wrong. -/
theorem witness_frames (f : Frame) : (sealFrame f).crc = frameCrc (sealFrame f) := rfl

theorem witness_bad_frame (f : Frame) : ({ f with crc := frameCrc f + 1 } : Frame).crc ≠ frameCrc { f with crc := frameCrc f + 1 } := by
  show frameCrc f + 1 ≠ frameCrc f
  bv_omega

theorem witness_port_up : (joined.portOf 0).up = true ∧ (joined.portOf 0).rxSeq = (arriving 0 false).seq ∧
    (joined.portOf 0).rxSeq ≠ (arriving 5 false).seq := by decide +kernel

/-- A frame that has waited since count 0, after a number of replays. -/
def unanswered (now n : Nat) : State :=
  { (joined.setPort 0 { joined.portOf 0 with replay := [(0, arriving 0 false)], replays := n, txSeq := 1 }) with pace := { cricket := now } }

theorem test_replay : ends (exec (.silkReplayTimeout 0) (unanswered 4000 0)) (fun t => (t.portOf 0).retries.count == 1 && t.out.length == 1) = true ∧
    ends (exec (.silkReplayTimeout 0) (unanswered 3999 0)) (fun t => t.out.isEmpty) = true ∧
    ends (exec (.silkReplayTimeout 0) (unanswered 4000 15)) (fun t => (t.portOf 0).state == .training) = true := by decide +kernel

/-- PortsTrainGoDownAndAreMaintained. -/
def trainingPort (now : Nat) : State :=
  { (joined.setPort 0 { state := .training, partnerEpoch := some 7#32, rxSeq := 3, downSince := some 0 }) with pace := { cricket := now } }

/-- A maintenance operation of port 0. -/
def maintaining (x : Port) : State := { joined.setPort 0 x with pace := { cricket := 10000000 } }

/-- The management processor waits for the end of a link operation. -/
def linking (op : LinkOp) : State := { up with mgmt := { state := 2, link := some op, oe17 := some 0 } }

theorem test_ports : ends (exec (.silkTrainingDone 0 .all 7 0 (some 1)) (trainingPort 5)) (fun t => (t.portOf 0).state == .up8 && (t.portOf 0).rxSeq == 3) = true ∧
    ends (exec (.silkTrainingDone 0 .all 8 0 (some 1)) (trainingPort 5)) (fun t => (t.portOf 0).rxSeq == 0 && (t.portOf 0).partnerEpoch == some 8#32) = true ∧
    ends (exec (.silkPortDownTimeout 0) (trainingPort 10000000)) (fun t => (t.portOf 0).state == .down && t.silk.lost == [1]) = true ∧
    ends (exec (.silkPortDownTimeout 0) (trainingPort 9999999)) (fun t => (t.portOf 0).state == .training) = true := by decide +kernel

theorem test_port_maintenance :
    ends (exec (.laneRetrainDone 0 true) (maintaining { state := .upHigh, retrainLane := some 3 }))
      (fun t => (t.portOf 0).state == .up8 && t.fifo (hubPort 6 0) == [reportPkt 0x106 (.result (.linkDone 0 true))]) = true ∧
    ends (exec (.oe17SubstitutionDone 0 true) (maintaining { substituting := true, moveTo := 17 }))
      (fun t => (t.portOf 0).engine == 17 && (t.fifo (hubPort 6 0)).length == 1) = true ∧
    ({ substituting := true, downSince := some 0 } : Port).overdue 10000000 = true ∧
    ends (exec (.oe17SubstitutionDone 0 false) (maintaining { substituting := true, downSince := some 0 }))
      (fun t => (t.portOf 0).state == .down) = true := by decide +kernel

/-- Port 0 on OE17 with one unacknowledged frame, waiting for the RESUME frame of a partner with LINK_EPOCH 7. -/
def resuming : State :=
  joined.setPort 0 { state := .up8, engine := 17, resuming := true, partnerEpoch := some 7#32, rxSeq := 3, replay := [(0, arriving 0 false)] }

/-- The RESUME frame of a partner with a LINK_EPOCH. -/
def resumeFrame (epoch : BitVec 32) : Frame := ({ epoch := epoch } : Port).frame [] true false true

theorem test_resume_frame :
    ((resuming.portOf 0).up && (resuming.portOf 0).resuming && (resumeFrame 7).resume && (resumeFrame 7).idle && !(resumeFrame 7).nak) = true ∧
    (endResume 0 (resumeFrame 7) resuming).out = [.frame 0 (arriving 0 false)] ∧
    ((endResume 0 (resumeFrame 7) resuming).portOf 0).rxSeq = 3 ∧ ((endResume 0 (resumeFrame 7) resuming).portOf 0).resuming = false ∧
    ((endResume 0 (resumeFrame 8) resuming).portOf 0).rxSeq = 0 ∧
    ((endResume 0 (resumeFrame 8) resuming).portOf 0).partnerEpoch = some 8#32 := by
  refine ⟨by decide +kernel, rfl, by decide +kernel, by decide +kernel, by decide +kernel, by decide +kernel⟩

theorem test_link_operation_ends :
    ends (exec .eventRecord (reporting 0x106 [.result (.linkDone 0 true)] (linking (.retrainLane 0 3))))
      (fun t => t.mgmt.link == none && (t.op 4).state == 2) = true ∧
    ends (exec .eventRecord (reporting 0x106 [.result (.linkDone 0 false)] (linking (.takeover 0))))
      (fun t => t.mgmt.link == none && (t.op 4).state == 3 && t.mgmt.oe17 == none) = true ∧
    ends (exec .eventRecord (reporting 0x106 [.result (.linkDone 0 true)] (linking .handback)))
      (fun t => t.mgmt.oe17 == none && (t.op 4).state == 2) = true ∧
    ends (exec (.hostLinkMoveDone true true) { up with hostp := { linkUp := true, moving := some 17 } }) (fun t => t.hostp.engine == 17) = true := by
  decide +kernel

/-- PeerRequestsPassTheIngress: requests within the window and outside it. -/
def served : State := physWrite joined Config.gddrBase (untagged (leBytes 8 5))

/-- Two transactions to device 1 have timed out in succession, and one is outstanding. -/
def struck : State :=
  { joined with silk := { joined.silk with
      strikes := [(1, 2)], txns := [{ kind := .read, device := 1, addr := 0, bytes := 64, issuer := .unit, launch := 0 }] } }

theorem test_timeouts_in_succession :
    ends (exec (.silkWrite 1 0 0 [] true) struck) (fun t => t.silk.strikes == [(1, 2)]) = true ∧
    ends (exec (.silkResponse 1 0 1 [] 0 true) struck) (fun t => t.silk.strikes == []) = true := by decide +kernel

theorem test_peer_requests : served.ingress = true ∧ (readShape Config.gddrBase 64 && ingressAllows (peerBack 1 served) Config.gddrBase 64 false) = true ∧
    (physRead (peerBack 1 served) Config.gddrBase 64).isSome = true ∧
    ends (exec (.silkReadRequest 1 9 Config.gddrBase 64) served) (fun t => t.silk.rejects.count == 0 && t.out.length == 2) = true ∧
    ends (exec (.silkReadRequest 1 9 0 64) served) (fun t => t.silk.rejects.count == 1) = true ∧
    ends (exec (.silkWrite 1 9 Config.gddrBase [7] true) served) (fun t => physRead t Config.gddrBase 1 == some (untagged [7])) = true ∧
    atomicRead (peerBack 1 served) Config.gddrBase = (5#64, false) ∧
    ends (exec (.silkAtomic 1 9 0 Config.gddrBase 4#64 0#64) served) (fun t => physRead t Config.gddrBase 8 == some (untagged (leBytes 8 9))) = true ∧
    ends (exec (.silkAtomic 1 9 8 Config.gddrBase 4#64 0#64) served) (fun t => t.silk.rejects.count == 1) = true := by decide +kernel

/-- TransactionsEndByResponseOrTimeout: a read of a Stream engine, a write, and no transaction. -/
def waitingTxn (kind : TxnKind) (now : Nat) : State :=
  let s := before (opWord 0 []) [] []
  { s with
    pace := { cricket := now }
    silk := { joined.silk with txns := [{ tag := 4, kind := kind, device := 1, addr := 2 ^ 52, bytes := 64, issuer := .stream 0 0, launch := 1 }] } }

theorem test_transactions :
    ends (exec (.silkResponse 1 5 0 [] 0 true) (waitingTxn .read 0)) (fun t => t.silk.late.count == 1) = true ∧
    ends (exec (.silkResponse 1 4 1 [] 0 true) (waitingTxn .write 0)) (fun t => (t.launch 1).map (·.status) == some 0x300) = true ∧
    ends (exec (.silkResponse 1 4 0 (List.replicate 64 3#8) 0 true) (waitingTxn .read 0))
      (fun t => (t.fifo (hubPort 6 2)).map (fun k => (k.typ, k.destIndex, k.payload)) == [(2, 0, .bytes (untagged (List.replicate 64 3)))] &&
        t.silk.txns.isEmpty) = true ∧
    ends (exec (.silkResponse 1 4 0 [] 0 true) (waitingTxn .write 0)) (fun t => (t.fifo (hubPort 6 2)).map (·.typ) == [3]) = true ∧
    ends (exec (.silkTransactionTimeout 4) (waitingTxn .read 1000000)) (fun t => (t.cluster 0).abandon.any (·.lost)) = true ∧
    ends (exec (.silkTransactionTimeout 4) (waitingTxn .write 1000000)) (fun t => (t.launch 1).map (·.status) == some 0x400) = true ∧
    ends (exec (.silkTransactionTimeout 4) (waitingTxn .write 999999)) (fun t => t.silk.txns.length == 1) = true := by decide +kernel

/-! ## Time, barriers, pairs -/

/-- A device in a sync role at a count, with a request of count 100 in progress or none. -/
def follower (role now : Nat) (asked : Option Word) (lastAt missed : Nat) (deferred : Option Int) : State :=
  { up with silk := { device := some 0, role := role, locked := true, sync := { asked := asked, lastAt := lastAt, missed := missed, deferred := deferred } }
            pace := { cricket := now } }

/-- FollowersCorrectTheirCricket. A timed launch is one with a start count. -/
def timed : State := { follower 2 200 (some 100#64) 0 0 none with disp := { launches := [{ waitingLaunch with lflags := 8, start := 5 }] } }

theorem test_followers : ends (exec .timeRequestSend (follower 2 1000000 none 0 0 none)) (fun t => t.silk.sync.asked == some 1000000#64) = true ∧
    ends (exec (.timeResponse 100 120 120 104) (follower 2 200 (some 100#64) 0 0 none))
      (fun t => t.silk.offset == BitVec.ofInt 16 (-18) && t.pace.cricket == 218 && !t.silk.locked) = true ∧
    ends (exec (.timeResponse 100 102 102 104) (follower 2 200 (some 100#64) 0 0 none)) (fun t => t.pace.cricket == 200 && t.silk.locked) = true ∧
    ends (exec (.timeResponse 100 96 96 104) (follower 2 200 (some 100#64) 0 0 none)) (fun t => t.pace.hold == 6) = true ∧
    timed.timedLaunch = true ∧ (follower 2 200 none 0 0 none).timedLaunch = false ∧
    ends (exec (.timeResponse 100 120 120 104) timed) (fun t => t.silk.sync.deferred == some (-18) && t.pace.cricket == 200) = true := by decide +kernel

theorem test_missed_measurements : ends (exec .timeMeasurementTimeout (follower 2 100100 (some 100#64) 0 2 none)) (fun t => !t.silk.locked && t.silk.sync.missed == 3) = true ∧
    ends (exec .timeMeasurementTimeout (follower 2 100100 (some 100#64) 0 0 none)) (fun t => t.silk.locked && t.silk.sync.missed == 1) = true ∧
    ends (exec .deferredCricketCorrection (follower 2 200 none 0 0 (some (-18)))) (fun t => t.pace.cricket == 218) = true ∧
    ends (exec .deferredCricketCorrection (follower 2 200 none 0 0 (some 9))) (fun t => t.pace.hold == 9) = true := by decide +kernel

/-- BarriersPollAndPairsCompare: a launch of a group whose barrier record lies on device 1, or on its own. -/
def grouped (gva now : Nat) (pair : Bool) : State :=
  { (before (opWord 0 []) [] []).modLaunch 1 (fun l => { l with
      group := some { tag := 8, members := 2, timeoutUs := 1, pair := pair, barrierGva := gva, sent := if pair then [(1, List.replicate 48 1#8)] else [] } }) with
    silk := { joined.silk with pairEnable := true, pairPartner := 1 }, pace := { cricket := now } }

theorem test_barrier : ((grouped (2 ^ 52) 5 false).launch 1).any (fun l => l.group.any (fun g => barrierDue (grouped (2 ^ 52) 5 false) l g &&
      (issueTxn (barrierTxn l g) (grouped (2 ^ 52) 5 false)).isSome && (issueTxn (barrierTxn l g) { grouped (2 ^ 52) 5 false with silk := {} }).isNone)) = true ∧
    ends (exec (.barrierPoll 1) (grouped (2 ^ 52) 5 false)) (fun t => t.silk.txns.length == 1) = true ∧
    ends (exec (.barrierPoll 1) (grouped Config.gddrBase 5 false)) (fun t => t.silk.txns.isEmpty) = true ∧
    ends (exec (.barrierTimeout 1) (grouped (2 ^ 52) 1000 false)) (fun t => (t.launch 1).map (·.status) == some 0x400) = true ∧
    ends (exec (.barrierTimeout 1) (grouped (2 ^ 52) 999 false)) (fun t => (t.launch 1).map (·.status) == some 0) = true := by decide +kernel

theorem test_pair : ((pairLaunch (grouped 0 5 true) 8).map (·.id)) = some 1 ∧
    ends (exec (.digestPacket 1 8 1 0 (List.replicate 48 1#8)) (grouped 0 5 true)) (fun t => t.silk.pairCompared == 1#32 && !t.silk.pairMismatch) = true ∧
    ends (exec (.digestPacket 1 8 1 0 (List.replicate 48 2#8)) (grouped 0 5 true))
      (fun t => (t.launch 1).map (·.status) == some 0x403 && t.silk.pairMismatch) = true ∧
    ends (exec (.digestTimeout 1) (grouped 0 1000 true)) (fun t => (t.launch 1).map (·.status) == some 0x400) = true := by decide +kernel

/-! ## The entropy source -/

/-- A source at a moment of its time base with some samples of its window taken. -/
def sampled (n tb : Nat) (acc : Window) : State := { up with pace := { timeBase := tb }, ent := { acc := { acc with samples := n } } }

/-- TheEntropySourceSamplesAndServes: samples due and not yet due; windows that pass and fail. -/
theorem test_entropy_samples : ends (exec (.entropySample (List.replicate 64 9)) (sampled 0 64 {})) (fun t => t.ent.acc.samples == 1) = true ∧
    ends (exec (.entropySample (List.replicate 64 9)) (sampled 0 63 {})) (fun t => t.ent.acc.samples == 0) = true := by decide +kernel

/-- A window in which every oscillator runs and every pair drifts. -/
def alive : Window := { samples := 1024, cycles := List.replicate 64 20000, sumD := List.replicate 32 0, sumD2 := List.replicate 32 256 }

theorem test_health_windows : ({ samples := 1024 } : Window).failure.isSome = true ∧ alive.failure = none ∧
    ends (exec .healthWindowEnd (sampled 1024 65536 {})) (fun t => t.ent.state == .fault && t.ent.acc == {}) = true ∧
    ends (exec .healthWindowEnd (sampled 1024 65536 alive)) (fun t => t.ent.windows.count == 1 && t.ent.window == 1 && t.ent.state == .notReady) = true := by
  decide +kernel

/-- A ready source with a request and a number of requests since its last reseed. -/
def serving (since : Nat) (pool : List (BitVec 256)) : State :=
  { up with ent := { state := .ready, drbg := some ⟨0, 0⟩, queue := [⟨.management, 8⟩], since := since, pool := pool } }

theorem test_generate : ends (exec (.generateRequest 1 64) { up with ent := { state := .ready } }) (fun t => t.ent.queue == [⟨.management, 64⟩]) = true ∧
    deliveryWaits (serving 0 []) .management = false ∧
    ends (exec .generateDeliver (serving (2 ^ 20) [])) (fun t => t.ent.reseedWait && t.ent.events.getLsbD 2) = true ∧
    (serving (2 ^ 20) [1, 2]).ent.pool.length = 2 := by decide +kernel

/-! ## The whole block -/

/-- StepRunsTheFrontCommand: a queue with a command, an empty one with power, and one without. -/
theorem test_step : (step { up with pending := [.hostLinkDown, .idcode] } = exec .hostLinkDown { up with pending := [.idcode] }) ∧
    ends (step up) (fun t => t.pace.cricket == 1 && t.pace.timeBase == 1) = true ∧ State.reset.board.power = .down := by
  refine ⟨rfl, ?_, ?_⟩ <;> decide +kernel

/-- NoCommandChangesTheQueue, EveryStepKeepsMemoryCanonical, BoostStaysOffWithoutItsPin, OnlyTheFuseInProgressIsBlown. -/
theorem witness_invariants : up.mem.wf = true ∧ up.on = true ∧ up.board.straps.boostEn = false ∧ up.mgmt.point ≠ 2 ∧ up.mgmt.target ≠ 2 ∧
    up.mgmt.nextTarget ≠ some 2 ∧ up.mgmt.record.point ≠ 2 ∧
    ends (exec .svnFuseBlown { up with mgmt := { state := 2, image := some { svn := 3, advance := true } } }) (fun t => t.fuses.svn == 1#64) = true := by
  decide +kernel

/-- MemoryReadsBackWhatWasWritten: words of core memory, of a slice in service, of GDDR7. -/
theorem witness_memory : physRead (physWrite up (window 0 0 0) (untagged [1, 2, 3, 4, 5, 6, 7, 8])) (window 0 0 0) 8 = some (untagged [1, 2, 3, 4, 5, 6, 7, 8]) ∧
    (match placeOf up (window 0 0 0) with
      | .core _ _ _ => true
      | _ => false) = true ∧
    (match placeOf up 64 with
      | .stacked c sl _ => redirectSlot up c sl == none
      | _ => false) = true ∧
    (match placeOf up Config.gddrBase with
      | .gddr q k => !(up.gdcOf q).failed.getLsbD k
      | _ => false) = true ∧ storedAt up 64 = 64 := by decide +kernel

/-! ## Further cases that the statements name -/

/-- MailboxPacketsPassInOrder: a full FIFO, and an answer that finds no room. -/
theorem witness_mailboxes : 513 ≤ ({ openPkt := some (List.replicate 512 0#64) } : Box).reqWords ∧
    513 < ({ responses := [List.replicate 512 0#64], waiting := some [0#8] } : Box).rspWords + 1 + (1 + 7) / 8 := by decide +kernel

/-- A request of a code, tag and body is the next one of pair 0. -/
def asks (code tag : Nat) (body : List Byte) : Bool :=
  decide (tag < 65536) &&
    (nextRequest (asked code tag body) 0).any (fun p => !p.poison && p.bytes == requestMessage code tag body)

theorem asks_requests (code tag : Nat) (body : List Byte) (h : asks code tag body = true) : Requests (asked code tag body) 0 code tag body := by
  simp only [asks, Bool.and_eq_true, decide_eq_true_eq, Option.any_eq_true] at h
  obtain ⟨ht, p, hp, hq⟩ := h
  simp only [Bool.and_eq_true, Bool.not_eq_true', beq_iff_eq] at hq
  exact ⟨rfl, rfl, rfl, ht, p, hp, hq.1, hq.2⟩

/-- Every request that the statements on mailbox commands suppose. -/
theorem witness_bodies :
    [(0x0010, []), (0x0012, []), (0x0020, [0, 0] ++ leBytes 2 255 ++ [0, 0, 0, 0]), (0x0031, leBytes 2 4095 ++ [0, 0, 0, 0, 0, 0]),
      (0x0032, leBytes 1 2 ++ [2, 0, 0, 0, 0, 0, 0] ++ leBytes 8 0 ++ leBytes 8 0), (0x0040, leBytes 4 65592 ++ [0, 0, 0, 0]),
      (0x0050, [0, 0] ++ leBytes 2 4 ++ [0, 0, 0, 0]), (0x0051, leBytes 1 7 ++ List.replicate 7 0#8), (0x00F0, leBytes 1 4 ++ List.replicate 7 0#8),
      (0x0002, leBytes 2 4095 ++ [0, 0, 0, 0, 0, 0]), (0x00A0, [1] ++ leBytes 1 1 ++ leBytes 2 5 ++ [0, 0, 0, 0]),
      (0x0060, [6, 0] ++ leBytes 2 7 ++ leBytes 2 2 ++ [0, 0] ++ leBytes 8 0), (0x0011, leBytes 1 2 ++ List.replicate 7 0#8),
      (0x0020, [1, 0] ++ leBytes 2 255 ++ leBytes 1 63 ++ [0, 0, 0]), (0x0020, [2, 0] ++ leBytes 2 5 ++ leBytes 1 15 ++ [0, 0, 0]),
      (0x0020, [3, 0] ++ leBytes 2 5 ++ leBytes 1 255 ++ [0, 0, 0]),
      (0x0032, leBytes 1 1 ++ [0, 0, 0, 0, 0, 0, 0] ++ leBytes 8 Config.gddrBase ++ leBytes 8 0x10000),
      (0x0032, leBytes 1 1 ++ [1, 0, 0, 0, 0, 0, 0] ++ leBytes 8 Config.gddrBase ++ leBytes 8 0x10000),
      (0x0070, [1, 0, 0, 0, 0, 0, 0, 0] ++ leBytes 8 (2 ^ 27)), (0x0072, []), (0x0073, []), (0x0080, leBytes 4 0x53414E49 ++ [0, 0, 0, 0])].all
      (fun e => asks e.1 65535 e.2) = true := by decide +kernel

theorem witness_link_bodies : ((List.range 6).all (fun op => asks 0x0060 9 ([BitVec.ofNat 8 op, 0] ++ leBytes 2 11 ++ leBytes 2 7 ++ [0, 0] ++ leBytes 8 Config.cxlBase))) = true ∧
    asks 0x0071 9 (leBytes 8 8 ++ leBytes 2 8 ++ [0, 0, 0, 0, 0, 0] ++ [1, 2, 3, 4, 5, 6, 7, 8]) = true ∧
    asks 0x0090 9 (List.replicate 48 1#8 ++ leBytes 2 1 ++ [0, 0, 0, 0, 0, 0]) = true ∧
    asks 0x0030 9 (leBytes 2 4095 ++ List.replicate 14 0#8 ++ ([1, 7] ++ List.replicate 62 0#8)) = true ∧
    ((up.setBox 0 { requests := [{ words := [0#64], seq := 0, poison := true }] }).box 0).requests.head?.any (·.poison) = true := by decide +kernel

/-- FabricAndOperatingPointRequests: a ramp that runs, and one that is pending. -/
def ramping (pending running : Bool) : State :=
  let s := asked 0x0011 9 [1, 0, 0, 0, 0, 0, 0, 0]
  { s with mgmt := { s.mgmt with rampPending := pending, ramping := running, target := 0 } }

theorem test_oppoint_ramps : ends (exec (.oppointSet 0) (ramping true true)) (fun t => answered t 0x11 9 1 && t.mgmt.nextTarget == some 1) = true ∧
    ends (exec (.oppointSet 0) (ramping true false)) (fun t => answered t 0x11 9 1 && !t.mgmt.rampPending && t.mgmt.target == 1) = true := by
  decide +kernel

/-- LinkCommandsStartTheirOperation: the host link to OE17 and back. -/
theorem test_host_link_handback : ends (exec (.linkOe17Handback 0) { asked 0x0060 9 (linkBody 5 0 0) with
      mgmt := { (asked 0x0060 9 (linkBody 5 0 0)).mgmt with oe17 := some 16 } })
    (fun t => answered t 0x60 9 1 && t.hostp.moving == some 16 && t.net.fifos.isEmpty) = true := by decide +kernel

/-- MigrationsFollowTheJournal: the order at the dispatcher, for an eligible page and one that is not; a page of fresh memory. -/
theorem test_migration_orders :
    (let s := ordering (.movePage 0 0x123 0) movable
     (pageAt s 0 0x123).any (fun x => eligible s 0 x.2 0 && withinPolicy s 0 x.2 x.1 0 && !(freeFrames s 0 x.2.bytes).isEmpty)) = true ∧
    ends (exec (.pageRetireOrder 0 0x123 0) (ordering (.movePage 0 0x123 0) { movable with memc := { movable.memc with policies := [] } }))
      (fun t => t.memc.moves.isEmpty && (t.fifo (fifoNum .hub 0 0)).isEmpty) = true ∧
    (physRead { movable with memc := moving.memc } (Config.gddrBase + 0x100000) 64).map anyPoison = some true ∧
    ends (exec (.migrationComplete 0 0) { movable with memc := moving.memc })
      (fun t => t.memc.moves.isEmpty && t.memc.migrations.count == 0 && t.memc.events.getLsbD 7) = true := by decide +kernel

/-- ControllerOperationsSequenceAndStamp: a source that is not ready, one that has failed, and a cluster with an order pending. -/
theorem test_entropy_states :
    let s := before (opWord 4 []) [core 5 1 8 0 8, core 5 1 8 64 8] []
    ends (exec (.entropy 0) { s with ent := {} }) (fun t => (t.launch 1).map (·.status) == some 0x500) = true ∧
    ends (exec (.entropy 0) { s with ent := { state := .fault } }) (fun t => (t.launch 1).map (·.status) == some 0x501) = true ∧
    ends (exec (.stepEnd 0) ((before (opWord 1 []) [] []).modCluster 0 (fun k => { k with orders := [.handover] })))
      (fun t => !(t.cluster 0).ended) = true ∧
    ends (exec (.rclear 0) (before (opWord 0x08 [127] 3) [] [])) (fun t => (t.launch 1).map (·.status) == some 0x201) = true := by decide +kernel

/-- BlockMovesGoThroughTranslation: one piece, not yet translated, whose page the cluster's crossbar reaches or does not reach. -/
theorem witness_pieces : let s := loadState 0x80010000
    (planeVas mover (s.desc 0 0)).toOption = some (0x80010000, 0) ∧
    movePieces ((s.desc 0 0).ranges 0x80010000 0) (s.desc 0 1).coreRanges = [((0x80010000, 8), 64)] ∧
    cachedLeaf s 0 0 0x80010000 = none ∧ accessUnit s 0 0x10000 = none ∧ (physRead s 0x10000 8).map anyPoison = some false ∧
    (s.cluster 0).phys 0 = some 0 ∧ accessUnit s 0 (Config.gddrBase + 0x10000) = some (.attached, 0) ∧
    rangePoison (storeState 0x80010000) 0 0 ((storeState 0x80010000).desc 0 0).coreRanges = [] := by decide +kernel

/-- LoadsCheckTheImageAndReadyTheContext: a coefficient on the diagonal, and a step of a load of an image of two MiB. -/
def diagonal : State := physWrite (loadingAt 2) (Config.gddrBase + 0x14000 + 512) (untagged [1, 0, 0, 0, 0, 0, 0, 0])

theorem test_load_fails : (match (fetchAt diagonal 0 0x14000).problem with
      | .ok m => ((packedFailures (fetchAt diagonal 0 0x14000) m 7).toOption.map (fun fs => firstFailure (fs.filter (fun f => inMiB 0 f.1)))).any
          (fun r => !r.isOk)
      | .error _ => false) = true ∧
    ends (exec (.loadimg 0) diagonal) (fun t => (t.ctx 2).state == .failed && (t.launch 1).map (·.status) == some 0x204) = true ∧
    ({ launch := 1, reload := false, sections := 0, stepsDone := 6, stepsTotal := 8 } : LoadJob).mibs = 2 := by decide +kernel

/-- SweepsEndWithRecordsAndPositions: a checkpoint falls due. -/
theorem test_checkpoint_due : ends (exec (.sweepEnd 2) (sweepDone.modRun 2 (fun r => { r with area := { r.area with every := 1 } })))
    (fun t => (t.run 2).map (·.next) == some .checkpoint) = true := by decide +kernel

/-- TraceRecordsReachTheRingInOrder: a run that is gone, a slot that cannot be written, a read index that is poison. -/
theorem test_trace_writer_stops :
    ends (exec (.traceRingWrite 0) { tracing 0 0x19040 with runs := [] }) (fun t => (t.cluster 0).trace.isEmpty && t.trace.records.count == 0) = true ∧
    ends (exec (.traceRingWrite 0) ((tracing 0 0x19040).modRun 2 (fun r => { r with traceVa := 0x40000000 })))
      (fun t => (t.run 2).map (·.traceStop) == some (some 0x300)) = true ∧
    ends (exec (.traceRingWrite 0) (tracing 0 0x30000)) (fun t => (t.run 2).map (·.traceStop) == some (some 0x301)) = true := by decide +kernel

/-- ReportsAreConsumedInOrder: member 0 has a packet open towards member 1, and one that waits for room. -/
def reporter (f : Exch → Exch) : State :=
  (exchanging 0).modRun 2 (fun r => { r with next := .finished, exch := r.exch.map f })

theorem test_reports_leave :
    ends (exec (.reportPacket 2 1) (reporter (fun x => { x with opened := [(1, ⟨2 ^ 52, 64, [4]⟩)] }))) (fun t => t.silk.txns.length == 1 &&
      ((t.run 2).bind (·.exch)).map (·.opened) == some []) = true ∧
    ends (exec (.reportPacket 2 1) { reporter (fun x => { x with opened := [(1, ⟨2 ^ 52, 64, [4]⟩)] }) with
        silk := { (exchanging 0).silk with txns := [{ tag := 4, kind := .write, device := 1, addr := 2 ^ 52, bytes := 64, issuer := .unit }] } })
      (fun t => ((t.run 2).bind (·.exch)).map (·.opened.length) == some 1) = true ∧
    ends (exec (.reportPacket 2 1) (reporter (fun x => { x with outbox := [⟨1, 0, 1, 1, 0, []⟩], wpos := [(1, 0x1000)] })))
      (fun t => ((t.run 2).bind (·.exch)).map (·.outbox.length) == some 1) = true := by decide +kernel

/-- MulticastsBranchAndPartialsCombine: a branch that holds four multicast packets. -/
theorem witness_branch_full :
    mcastRoom (up.setFifo 5 (List.replicate 4 { sent with typ := 5 })) (5, { sent with typ := 5 }) = false ∧
    admitsInput { branching with net := { branching.net with fifos := [] } } (corePort 0 27 1) [(fifoNum (.core 0 27) 1 1, sent)] = false := by
  decide +kernel

/-- MemoryPortsAnswerOrFail: a write whose line's burst comes, a burst of the context table, and a read that a CXL response answers. -/
def granting (q : Nat) (k : Pkt) (s : State) : State := s.setArbiter q (({} : Arbiter).take k)

theorem test_grants :
    ends (exec (.gddr7Burst Config.gddrBase true 0 0) (granting 0 (request 1 .attached 16 0 Config.gddrBase) up))
      (fun t => physRead t Config.gddrBase 8 == some (untagged [1, 2, 3, 4, 5, 6, 7, 8]) && (t.fifo (attPort 0 2)).map (·.typ) == [3] &&
        (t.arbiter 0).pending.isEmpty) = true ∧ inCtxTable (Config.ctxTable + 64 * 9) = true ∧
    ends (exec (.gddr7Burst (Config.ctxTable + 64 * 9) false 0 2) up) (fun t => ctxPoisoned t 2 && !ctxPoisoned t 1) = true ∧
    ends (exec (.cxlReadResponse 1 64 (List.replicate 64 9) false) (granting 17 (request 0 .hub 0 3 (Config.cxlBase + 2 ^ 42 + 64)) linked))
      (fun t => (t.fifo (hubPort 3 2)).map (·.payload) == [.bytes (untagged (List.replicate 8 9))] && (t.arbiter 17).pending.isEmpty) = true := by
  decide +kernel

/-- TheEntropySourceSamplesAndServes: an operation and a run that wait for bits. -/
theorem witness_entropy_requesters :
    let s := (before (opWord 4 []) [core 5 1 8 0 8, core 5 1 8 64 8] []).modCluster 0 (fun k => { k with entropyWait := true })
    deliveryWaits { s with ent := (serving 0 []).ent } (.entropyOp 0) = false ∧ (s.runningOn 0).isSome = true ∧
    ((s.cluster 0).op).any (fun o => o.opcode == 4) = true ∧ deliveryWaits (annealing .phase) (.runSeed 2) = false ∧
    (match writeVa 0 ((annealing .phase).modRun 2 (fun r => { r with seedWait := true })) 0 0x18000 (drbgGenerate ⟨0, 0⟩ 8).1 with
      | .ok v => (match v.run 2 with
          | some x => (beginRun 2 { x with seed := 5 } v).isOk
          | none => false)
      | .error _ => false) = true := by decide +kernel

/-- RegistersKeepTheirAccessTypes: a logical core that is backed. -/
theorem witness_backed_core : (0 : Nat) < up.lcores ∧ ((up.cluster 0).phys 0).isSome = true := by decide +kernel

/-- A cell list that lists one byte at every key of a range reads as that byte there. -/
theorem cellGet_range (d b : Byte) (a : Nat) : ∀ n k, k ≤ a → a < k + n → cellGet d ((List.range' k n).map (fun i => (i, b))) a = b := by
  intro n
  induction n with
  | zero => intro k h1 h2; omega
  | succ n ih =>
    intro k h1 h2
    simp only [List.range'_succ, List.map_cons, cellGet]
    by_cases hk : k = a
    · simp [hk]
    · rw [if_neg hk, if_neg (by omega)]
      exact ih (k + 1) (by omega) (by omega)

/-- The first cluster with an order to retire a slice; its stacked memory holds good words of zeros. -/
def cleanSlices (n : Nat) : State :=
  { up.modCluster 0 (fun k => { k with orders := [.retireSlice 15 none] }) with
    mem := { check := (List.range' 0 n).map (fun i => (i, crc8 (List.replicate 8 0#8))) } }

/-- SlicesAndClustersLeaveService: no word of the slice is poison, so the poison list has room. -/
theorem clean_slice_has_no_poison (n : Nat) (h : Config.clusterStacked / 8 ≤ n) : slicePoison (cleanSlices n) 0 15 = [] := by
  simp only [slicePoison, sliceOffsets, List.map_map, List.filter_eq_nil_iff, List.mem_map, List.mem_range]
  rintro a ⟨y, hy, rfl⟩
  have hb : storedBytes (cleanSlices n).mem (sliceAddr 0 15 (8 * y)) 8 = List.replicate 8 0#8 := rfl
  have hk : sliceAddr 0 15 (8 * y) / 8 < 0 + n := by
    simp only [sliceAddr, Config.sliceBytes, Config.clusterStacked] at *
    omega
  have hc : cellGet poisonCheck (cleanSlices n).mem.check (sliceAddr 0 15 (8 * y) / 8) = crc8 (List.replicate 8 0#8) :=
    cellGet_range _ _ _ n 0 (Nat.zero_le _) hk
  simp only [wordCheck, Function.comp, hb, hc]
  simp

theorem witness_slice_retires : let s := cleanSlices (Config.clusterStacked / 8)
    (s.cluster 0).orders = [.retireSlice 15 none] ∧ (s.cluster 0).state = .idle ∧ (s.cluster 0).live.getLsbD 15 = true ∧ freeSlot s = some 0 ∧
    (s.cluster 0).poisonList.length + (slicePoison s 0 15).length ≤ 256 :=
  ⟨rfl, rfl, rfl, rfl, by rw [clean_slice_has_no_poison _ (Nat.le_refl _)]; decide⟩

end Sys2Proof.Tests
end

section
/-! PROOFS. The end of an engine operation, for every engine: what its work on the cores may touch (EngineWork), what its counters
touch (CoresCounted), and EngineEnded from the two. -/

namespace Sys2Proof.Machine

/-! ## Updates of cores -/

/-- Of two writes of one entry the later stands. -/
theorem mapSet_mapSet {α : Type} (m : Map α) (n : Nat) (x y : α) : mapSet (mapSet m n x) n y = mapSet m n y := by
  induction m with
  | nil => simp [mapSet]
  | cons e m ih =>
    obtain ⟨k, v⟩ := e
    by_cases hlt : n < k
    · simp [mapSet, hlt]
    · by_cases heq : n = k
      · simp [mapSet, heq]
      · simp [mapSet, hlt, heq, ih]

theorem State.setCluster_setCluster (s : State) (c : Nat) (k k' : Cluster) :
    (s.setCluster c k).setCluster c k' = s.setCluster c k' := by
  simp [State.setCluster, mapSet_mapSet]

theorem State.modCore_modCore (s : State) (c l : Nat) (f g : Core → Core) :
    (s.modCore c l f).modCore c l g = s.modCore c l (fun k => g (f k)) := by
  simp only [State.modCore, State.modCluster, State.cluster_setCluster_self, State.setCluster_setCluster, mapModify,
    mapGet_mapSet_self, mapSet_mapSet]

/-- A core update changes nothing of any cluster but its cores. -/
theorem State.cluster_modCore (s : State) (c l d : Nat) (f : Core → Core) :
    (s.modCore c l f).cluster d = { s.cluster d with cores := ((s.modCore c l f).cluster d).cores } := by
  by_cases h : d = c
  · subst h
    simp [State.modCore]
  · simp [State.modCore, State.cluster_modCluster_ne _ _ h]

@[simp] theorem State.phys_modCore (s : State) (c l d i : Nat) (f : Core → Core) :
    ((s.modCore c l f).cluster d).phys i = (s.cluster d).phys i := by
  rw [State.cluster_modCore, Cluster.phys, Cluster.phys]

@[simp] theorem State.poisonList_modCore (s : State) (c l d : Nat) (f : Core → Core) :
    ((s.modCore c l f).cluster d).poisonList = (s.cluster d).poisonList := by
  rw [State.cluster_modCore]

@[simp] theorem State.desc_modCore (s : State) (c l d i : Nat) (f : Core → Core) : (s.modCore c l f).desc d i = s.desc d i := by
  rw [State.desc, State.desc, State.cluster_modCore]

/-! ## Operands read after an update of a core: memory is another place than the cores' registers and tiles -/

@[simp] theorem placeOf_modCore (s : State) (c l a : Nat) (f : Core → Core) : placeOf (s.modCore c l f) a = placeOf s a := by
  simp only [placeOf, State.lcores, State.gdcOf, State.cxlOf, State.modCore_fuses, State.modCore_gdc, State.modCore_cxlp,
    State.phys_modCore] <;> rfl

@[simp] theorem wordAt_modCore (s : State) (c l a : Nat) (f : Core → Core) : wordAt (s.modCore c l f) a = wordAt s a := by
  simp only [wordAt, placeOf_modCore, redirectSlot, gddrPoisoned, State.gdcOf, State.cxlOf, State.modCore_mem,
    State.modCore_memc, State.modCore_gdc, State.modCore_cxlp, State.poisonList_modCore]

@[simp] theorem coreRead_modCore (s : State) (c l d k off n : Nat) (f : Core → Core) :
    coreRead (s.modCore c l f) d k off n = coreRead s d k off n := by
  simp only [coreRead, physRead, wordAt_modCore]

@[simp] theorem readTensor_modCore (s : State) (c l d k : Nat) (x : Desc) (f : Core → Core) :
    readTensor (s.modCore c l f) d k x = readTensor s d k x := by
  have h : readRow (s.modCore c l f) d k x = readRow s d k x := by
    funext r
    simp only [readRow, coreRead_modCore]
  simp only [readTensor, h]

/-! ## One update for each of some cores -/

/-- Each of some cores of a cluster is updated, each by a function of its own. -/
def modCores (c : Nat) (g : Nat → Core → Core) (ls : List Nat) (s : State) : State := ls.foldl (fun u l => u.modCore c l (g l)) s

@[simp] theorem modCores_nil (c : Nat) (g : Nat → Core → Core) (s : State) : modCores c g [] s = s := rfl

@[simp] theorem modCores_cons (c : Nat) (g : Nat → Core → Core) (l : Nat) (ls : List Nat) (s : State) :
    modCores c g (l :: ls) s = modCores c g ls (s.modCore c l (g l)) := rfl

theorem modCores_concat (c : Nat) (g : Nat → Core → Core) (l : Nat) (ls : List Nat) (s : State) :
    modCores c g (ls ++ [l]) s = (modCores c g ls s).modCore c l (g l) := by simp [modCores]

@[simp] theorem modCores_mem (c : Nat) (g : Nat → Core → Core) (ls : List Nat) (s : State) : (modCores c g ls s).mem = s.mem := by
  induction ls generalizing s with
  | nil => rfl
  | cons l ls ih => simp [ih]

@[simp] theorem desc_modCores (c d i : Nat) (g : Nat → Core → Core) (ls : List Nat) (s : State) :
    (modCores c g ls s).desc d i = s.desc d i := by
  induction ls generalizing s with
  | nil => rfl
  | cons l ls ih => simp [ih]

@[simp] theorem readTensor_modCores (c d k : Nat) (x : Desc) (g : Nat → Core → Core) (ls : List Nat) (s : State) :
    readTensor (modCores c g ls s) d k x = readTensor s d k x := by
  induction ls generalizing s with
  | nil => rfl
  | cons l ls ih => simp [ih]

theorem core_modCores_of_not_mem (c l : Nat) (g : Nat → Core → Core) (ls : List Nat) (s : State) (h : l ∉ ls) :
    (modCores c g ls s).core c l = s.core c l := by
  induction ls generalizing s with
  | nil => rfl
  | cons k ls ih =>
    obtain ⟨hk, hls⟩ := not_or.mp (mt List.mem_cons.mpr h)
    rw [modCores_cons, ih _ hls, State.core_modCore, if_neg (fun e => hk e.2)]

theorem core_modCores_of_mem (c l : Nat) (g : Nat → Core → Core) (ls : List Nat) (s : State) (hn : ls.Nodup) (h : l ∈ ls) :
    (modCores c g ls s).core c l = g l (s.core c l) := by
  induction ls generalizing s with
  | nil => simp at h
  | cons k ls ih =>
    obtain ⟨hk, hls⟩ := List.nodup_cons.mp hn
    rw [modCores_cons]
    rcases List.mem_cons.mp h with rfl | hl
    · rw [core_modCores_of_not_mem _ _ _ _ _ hk, State.core_modCore_self]
    · have hne : l ≠ k := fun e => hk (e ▸ hl)
      rw [ih _ hls hl, State.core_modCore, if_neg (fun e => hne e.2)]

/-- Work that on every core comes to an update of that core, whatever the cores before it have done, ends well. -/
theorem runCores_modCores (f : CoreWork) (c : Nat) (g : Nat → Core → Core) (s : State) (ls : List Nat)
    (hf : ∀ done, ∀ l ∈ ls, f (modCores c g done s) l = .ok ((modCores c g done s).modCore c l (g l))) :
    runCores f ls s = .ok (modCores c g ls s) := by
  suffices h : ∀ done, runCores f ls (modCores c g done s) = .ok (modCores c g (done ++ ls) s) from h []
  induction ls with
  | nil => intro done; simp [runCores]
  | cons l ls ih =>
    intro done
    have hl := hf done l (by simp)
    have hls := ih (fun d k hk => hf d k (by simp [hk])) (done ++ [l])
    rw [runCores, hl, ← modCores_concat]
    simpa using hls

/-! ## What the work of an engine may touch -/

/-- The counters of a core stand (R516). -/
def SameCounts (k k' : Core) : Prop := k'.ops = k.ops ∧ k'.recompute = k.recompute ∧ ∀ e, engineHs e k' = engineHs e k

theorem SameCounts.refl (k : Core) : SameCounts k k := ⟨rfl, rfl, fun _ => rfl⟩

theorem SameCounts.trans {k k' k'' : Core} (h : SameCounts k k') (h' : SameCounts k' k'') : SameCounts k k'' :=
  ⟨h'.1.trans h.1, h'.2.1.trans h.2.1, fun e => (h'.2.2 e).trans (h.2.2 e)⟩

/-- The parts of the state that an engine operation may touch beside the fields of its cluster: those of EngineEnded. -/
def EngineFrame (s t : State) : Prop :=
  ∃ ks m n fs ls ps rs, t = { s with
    clusters := ks, mem := m, free := n, net := { s.net with fifos := fs }
    disp := { s.disp with launches := ls, preloads := ps, kept := rs } }

theorem EngineFrame.refl (s : State) : EngineFrame s s := ⟨_, _, _, _, _, _, _, rfl⟩

theorem EngineFrame.trans {s t u : State} (h : EngineFrame s t) (k : EngineFrame t u) : EngineFrame s u := by
  obtain ⟨_, _, _, _, _, _, _, rfl⟩ := h
  obtain ⟨_, _, _, _, _, _, _, rfl⟩ := k
  exact ⟨_, _, _, _, _, _, _, rfl⟩

/-- The parts of its own cluster that an engine operation may touch before the program position moves on. -/
def EngineCluster (k k' : Cluster) : Prop :=
  ∃ cs ps lg wr, k' = { k with cores := cs, poisonList := ps, snap := { k.snap with logged := lg, written := wr } }

theorem EngineCluster.refl (k : Cluster) : EngineCluster k k := ⟨_, _, _, _, rfl⟩

theorem EngineCluster.trans {k k' k'' : Cluster} (h : EngineCluster k k') (h' : EngineCluster k' k'') : EngineCluster k k'' := by
  obtain ⟨_, _, _, _, rfl⟩ := h
  obtain ⟨_, _, _, _, rfl⟩ := h'
  exact ⟨_, _, _, _, rfl⟩

/-- What the work of an engine on some cores of a cluster leaves alone: other clusters, the program position, other cores, every
counter, the launches, and what EngineEnded keeps. -/
structure EngineWork (c : Nat) (cores : List Nat) (s u : State) : Prop where
  frame : EngineFrame s u
  fifos : ∀ n, n ≠ recordPort c → n ≠ hubPort 1 0 → u.fifo n = s.fifo n
  own : EngineCluster (s.cluster c) (u.cluster c)
  clusters : ∀ d, d ≠ c → u.cluster d = s.cluster d
  others : ∀ l, l ∉ cores → u.core c l = s.core c l
  counts : ∀ l, SameCounts (s.core c l) (u.core c l)
  launches : ∀ x, u.launch x = s.launch x

theorem EngineWork.refl (c : Nat) (cores : List Nat) (s : State) : EngineWork c cores s s :=
  ⟨.refl s, fun _ _ _ => rfl, .refl _, fun _ _ => rfl, fun _ _ => rfl, fun _ => .refl _, fun _ => rfl⟩

theorem EngineWork.trans {c : Nat} {cores : List Nat} {s t u : State} (h : EngineWork c cores s t) (k : EngineWork c cores t u) :
    EngineWork c cores s u where
  frame := h.frame.trans k.frame
  fifos n hn hm := (k.fifos n hn hm).trans (h.fifos n hn hm)
  own := h.own.trans k.own
  clusters d hd := (k.clusters d hd).trans (h.clusters d hd)
  others l hl := (k.others l hl).trans (h.others l hl)
  counts l := (h.counts l).trans (k.counts l)
  launches x := (k.launches x).trans (h.launches x)

theorem EngineWork.modCore {c l : Nat} {cores : List Nat} (s : State) (g : Core → Core) (hl : l ∈ cores)
    (hg : SameCounts (s.core c l) (g (s.core c l))) : EngineWork c cores s (s.modCore c l g) where
  frame := ⟨_, _, _, _, _, _, _, rfl⟩
  fifos _ _ _ := rfl
  own := ⟨_, _, _, _, State.cluster_modCore s c l c g⟩
  clusters d hd := State.cluster_modCluster_ne s _ hd
  others k hk := by rw [State.core_modCore, if_neg (fun e : c = c ∧ k = l => hk (e.2 ▸ hl))]
  counts k := by
    by_cases h : k = l
    · subst h
      simpa using hg
    · rw [State.core_modCore, if_neg (fun e => h e.2)]
      exact .refl _
  launches _ := rfl

theorem EngineWork.modCores {c : Nat} {cores ls : List Nat} (s : State) (g : Nat → Core → Core) (hls : ls ⊆ cores)
    (hg : ∀ l k, SameCounts k (g l k)) : EngineWork c cores s (modCores c g ls s) := by
  induction ls generalizing s with
  | nil => exact .refl c cores s
  | cons l ls ih =>
    obtain ⟨hl, hrest⟩ := List.cons_subset.mp hls
    exact (EngineWork.modCore s (g l) hl (hg l _)).trans (ih _ hrest)

/-! ## What the end of an operation counts (R516, R859) -/

/-- The handshake counter of an engine is written. -/
def setHs (e : Engine) (k : Core) (x : Counter) : Core :=
  match e with
  | .field => { k with fieldHs := x }
  | .flip => { k with flipHs := x }
  | .vector => { k with vectorHs := x }
  | .stream => { k with streamHs := x }

/-- The offset of the HS register of an engine (R516). -/
def hsOffset (e : Engine) : Nat :=
  match e with
  | .field => 0x18
  | .flip => 0x20
  | .vector => 0x28
  | .stream => 0x30

theorem countEngine_eq (e : Engine) (c l n : Nat) (s : State) :
    countEngine e c l n s = coreCount c l (engineHs e) (setHs e) (hsOffset e) n s := by
  cases e <;> rfl

/-- A record sets out from the port of its source: every other FIFO stands. -/
theorem fifo_logEventIf (b : Bool) (kind source wher detail m : Nat) (s : State) (h : m ≠ recordPort source) :
    (logEventIf b kind source wher detail s).fifo m = s.fifo m := by
  cases b
  · rfl
  · exact mapGet_mapSet_ne _ _ _ h

/-- A counter of a core that moves changes the cores of its cluster as one update of that core does. -/
theorem cluster_coreCount (c l d : Nat) (get : Core → Counter) (put : Core → Counter → Core) (off n : Nat) (s : State) :
    (coreCount c l get put off n s).cluster d = (s.modCore c l (fun k =>
      { put k ((get k).add n) with events := raiseIf ((get (s.core c l)).hits n) k.events 3 })).cluster d := rfl

theorem core_coreCount (c l k : Nat) (get : Core → Counter) (put : Core → Counter → Core) (off n : Nat) (s : State) :
    (coreCount c l get put off n s).core c k =
      if k = l then
        { put (s.core c l) ((get (s.core c l)).add n) with
          events := raiseIf ((get (s.core c l)).hits n) (s.core c l).events 3 }
      else s.core c k := by
  rw [State.core, cluster_coreCount, ← State.core, State.core_modCore]
  simp

/-- What counting at the end of an operation leaves alone, whatever it counts: memory, every FIFO but the port of the records of
full counts, and every cluster but its own. -/
structure CountFrame (c : Nat) (s t : State) : Prop where
  frame : EngineFrame s t
  mem : t.mem = s.mem
  fifos : ∀ n, n ≠ recordPort c → t.fifo n = s.fifo n
  own : EngineCluster (s.cluster c) (t.cluster c)
  clusters : ∀ d, d ≠ c → t.cluster d = s.cluster d

theorem CountFrame.refl (c : Nat) (s : State) : CountFrame c s s :=
  ⟨.refl s, rfl, fun _ _ => rfl, .refl _, fun _ _ => rfl⟩

theorem CountFrame.trans {c : Nat} {s t u : State} (h : CountFrame c s t) (k : CountFrame c t u) : CountFrame c s u where
  frame := h.frame.trans k.frame
  mem := k.mem.trans h.mem
  fifos n hn := (k.fifos n hn).trans (h.fifos n hn)
  own := h.own.trans k.own
  clusters d hd := (k.clusters d hd).trans (h.clusters d hd)

theorem drawn_frame (c n : Nat) (s : State) : CountFrame c s (drawn n s) :=
  ⟨⟨_, _, _, _, _, _, _, rfl⟩, rfl, fun _ _ => rfl, .refl _, fun _ _ => rfl⟩

theorem modLaunch_frame (c id : Nat) (f : Launch → Launch) (s : State) : CountFrame c s (s.modLaunch id f) :=
  ⟨⟨_, _, _, _, _, _, _, rfl⟩, rfl, fun _ _ => rfl, .refl _, fun _ _ => rfl⟩

theorem coreCount_frame (c l : Nat) (get : Core → Counter) (put : Core → Counter → Core) (off n : Nat) (s : State) :
    CountFrame c s (coreCount c l get put off n s) where
  frame := ⟨_, _, _, _, _, _, _, rfl⟩
  mem := coreCount_mem s c l get put off n
  fifos m hm := fifo_logEventIf _ _ _ _ _ m _ hm
  own := ⟨_, _, _, _, by rw [cluster_coreCount]; exact State.cluster_modCore s c l c _⟩
  clusters d hd := by rw [cluster_coreCount, State.modCore, State.cluster_modCluster_ne s _ hd]

/-- What the end of an operation counts on a core: one operation, and up to the worst case of handshakes of its engine. -/
structure OpEnds (e : Engine) (worst : Nat) (k k' : Core) : Prop where
  ops : k'.ops = k.ops.add 1
  shakes : ∃ n, n ≤ worst ∧ engineHs e k' = (engineHs e k).add n
  others : ∀ x, x ≠ e → engineHs x k' = engineHs x k
  rest : k' = { k with
    events := k'.events, ops := k'.ops, fieldHs := k'.fieldHs, flipHs := k'.flipHs, vectorHs := k'.vectorHs
    streamHs := k'.streamHs }

theorem OpEnds.recompute {e : Engine} {worst : Nat} {k k' : Core} (h : OpEnds e worst k k') : k'.recompute = k.recompute := by
  rw [h.rest]

theorem OpEnds.tiles {e : Engine} {worst : Nat} {k k' : Core} (h : OpEnds e worst k k') : k'.tiles = k.tiles := by
  rw [h.rest]

theorem OpEnds.tileSat {e : Engine} {worst : Nat} {k k' : Core} (h : OpEnds e worst k k') : k'.tileSat = k.tileSat := by
  rw [h.rest]

theorem OpEnds.stepSat {e : Engine} {worst : Nat} {k k' : Core} (h : OpEnds e worst k k') : k'.stepSat = k.stepSat := by
  rw [h.rest]

theorem OpEnds.drainSat {e : Engine} {worst : Nat} {k k' : Core} (h : OpEnds e worst k k') : k'.drainSat = k.drainSat := by
  rw [h.rest]

/-- What the end of an operation on some cores touches: its counts on each of them, the handshakes of the launch, free values
and the records of full counts at the controller's port. -/
structure CoresCounted (e : Engine) (c id worst : Nat) (cores : List Nat) (s t : State) : Prop extends CountFrame c s t where
  others : ∀ l, l ∉ cores → t.core c l = s.core c l
  ends : ∀ l ∈ cores, OpEnds e worst (s.core c l) (t.core c l)
  launches : ∀ x, x ≠ id → t.launch x = s.launch x
  launch : ∃ n, n ≤ worst * cores.length ∧ ∀ ln, s.launch id = some ln →
    ∃ h, h % 2 ^ 64 = (ln.handshakes + n) % 2 ^ 64 ∧ t.launch id = some { ln with handshakes := h }

theorem CoresCounted.nil (e : Engine) (c id worst : Nat) (s : State) : CoresCounted e c id worst [] s s where
  toCountFrame := .refl c s
  others _ _ := rfl
  ends l hl := by simp at hl
  launches _ _ := rfl
  launch := ⟨0, Nat.zero_le _, fun ln hln => ⟨ln.handshakes, rfl, hln⟩⟩

theorem CoresCounted.cons {e : Engine} {c id worst l : Nat} {ls : List Nat} {s t u : State} (hl : l ∉ ls)
    (h : CoresCounted e c id worst [l] s t) (k : CoresCounted e c id worst ls t u) :
    CoresCounted e c id worst (l :: ls) s u where
  toCountFrame := h.toCountFrame.trans k.toCountFrame
  others x hx := (k.others x (fun m => hx (.tail _ m))).trans (h.others x (fun m => hx (List.mem_singleton.mp m ▸ .head _)))
  ends x hx := by
    rcases List.mem_cons.mp hx with rfl | hm
    · rw [k.others x hl]
      exact h.ends x (.head _)
    · have hne : x ∉ [l] := fun m => hl (List.mem_singleton.mp m ▸ hm)
      rw [← h.others x hne]
      exact k.ends x hm
  launches x hx := (k.launches x hx).trans (h.launches x hx)
  launch := by
    obtain ⟨n, hn, h⟩ := h.launch
    obtain ⟨m, hm, k⟩ := k.launch
    refine ⟨n + m, ?_, fun ln hln => ?_⟩
    · rw [List.length_cons, Nat.mul_succ]
      simp only [List.length_singleton, Nat.mul_one] at hn
      omega
    · obtain ⟨v, hv, ht⟩ := h ln hln
      obtain ⟨w, hw, hu⟩ := k _ ht
      exact ⟨w, by simp only at hw; omega, hu⟩

theorem engineHs_setHs (e x : Engine) (k : Core) (v : Counter) :
    engineHs x (setHs e k v) = if x = e then v else engineHs x k := by
  cases e <;> cases x <;> rfl

theorem freePick_le (s : State) (n : Nat) : freePick s (n + 1) ≤ n := Nat.le_of_lt_succ (Nat.mod_lt _ n.succ_pos)

/-- The handshakes of an engine are counted on one core. -/
theorem core_countShakes (e : Engine) (c id worst l k : Nat) (s : State) :
    (countShakes e c id worst s l).core c k =
      if k = l then
        { setHs e (s.core c l) ((engineHs e (s.core c l)).add (freePick s (worst + 1))) with
          events := raiseIf ((engineHs e (s.core c l)).hits (freePick s (worst + 1))) (s.core c l).events 3 }
      else s.core c k := by
  have h : (countShakes e c id worst s l).core c k =
      (countEngine e c l (freePick s (worst + 1)) (drawn 1 s)).core c k := rfl
  rw [h, countEngine_eq, core_coreCount]
  rfl

/-- The launch counts as many. -/
theorem launch_countShakes (e : Engine) (c id worst l x : Nat) (s : State) :
    (countShakes e c id worst s l).launch x = (s.launch x).map (fun ln =>
      if x = id then { ln with handshakes := (ln.handshakes + freePick s (worst + 1)) % 2 ^ 64 } else ln) := by
  have h : (countEngine e c l (freePick s (worst + 1)) (drawn 1 s)).launch x = s.launch x := by rw [countEngine_eq]; rfl
  rw [← h]
  exact State.launch_modLaunch _ id x _ (fun _ => rfl)

theorem countShakes_frame (e : Engine) (c id worst l : Nat) (s : State) : CountFrame c s (countShakes e c id worst s l) := by
  rw [countShakes, countEngine_eq]
  exact ((drawn_frame c 1 s).trans (coreCount_frame c l _ _ _ _ _)).trans (modLaunch_frame c id _ _)

theorem core_countOp_self (e : Engine) (c id worst l : Nat) (s : State) :
    OpEnds e worst (s.core c l) ((countOp e c id worst s l).core c l) := by
  rw [countOp, countDone, core_coreCount, if_pos rfl, core_countShakes, if_pos rfl]
  have hhs := fun x => engineHs_setHs e x (s.core c l) ((engineHs e (s.core c l)).add (freePick s (worst + 1)))
  refine ⟨?_, ⟨_, freePick_le s worst, ?_⟩, fun x hx => ?_, ?_⟩
  · cases e <;> rfl
  · exact Eq.trans (by cases e <;> rfl) ((hhs e).trans (if_pos rfl))
  · exact Eq.trans (by cases x <;> rfl) ((hhs x).trans (if_neg hx))
  · cases e <;> rfl

theorem core_countOp_ne (e : Engine) (c id worst l k : Nat) (s : State) (h : k ≠ l) :
    (countOp e c id worst s l).core c k = s.core c k := by
  rw [countOp, countDone, core_coreCount, if_neg h, core_countShakes, if_neg h]

theorem launch_countOp (e : Engine) (c id worst l x : Nat) (s : State) :
    (countOp e c id worst s l).launch x = (countShakes e c id worst s l).launch x := rfl

theorem countOp_frame (e : Engine) (c id worst l : Nat) (s : State) : CountFrame c s (countOp e c id worst s l) := by
  rw [countOp, countDone]
  exact (countShakes_frame e c id worst l s).trans (coreCount_frame c l _ _ _ _ _)

/-- What the end of an operation on one core touches. -/
theorem countOp_counted (e : Engine) (c id worst l : Nat) (s : State) :
    CoresCounted e c id worst [l] s (countOp e c id worst s l) where
  toCountFrame := countOp_frame e c id worst l s
  others k hk := core_countOp_ne e c id worst l k s (fun h => hk (List.mem_singleton.mpr h))
  ends k hk := by
    obtain rfl := List.mem_singleton.mp hk
    exact core_countOp_self e c id worst k s
  launches x hx := by
    rw [launch_countOp, launch_countShakes]
    simp [hx]
  launch := by
    refine ⟨freePick s (worst + 1), by simpa using freePick_le s worst, fun ln hln => ⟨_, Nat.mod_mod _ _, ?_⟩⟩
    rw [launch_countOp, launch_countShakes, hln]
    simp

/-- What the end of an operation on some cores touches. -/
theorem countOps_counted (e : Engine) (c id worst : Nat) (cores : List Nat) (hn : cores.Nodup) (s : State) :
    CoresCounted e c id worst cores s (cores.foldl (countOp e c id worst) s) := by
  induction cores generalizing s with
  | nil => exact .nil e c id worst s
  | cons l ls ih =>
    obtain ⟨hl, hls⟩ := List.nodup_cons.mp hn
    exact (countOp_counted e c id worst l s).cons hl (ih hls _)

/-! ## The end of an engine operation -/

@[simp] theorem core_advance (c d l : Nat) (s : State) : (advance c s).core d l = s.core d l := by
  by_cases h : d = c <;> simp [advance, State.core, State.cluster_modCluster, h]

theorem nodup_active (k : Cluster) (o : OpWord) : (k.active o).Nodup := (List.nodup_range.filter _).filter _

/-- The work of an operation, the counts of its end and the move of the program position: what OpCounted states. -/
theorem EngineWork.opCounted {c : Nat} {cores : List Nat} {e : Engine} {id worst : Nat} {s u v : State}
    (hw : EngineWork c cores s u) (hc : CoresCounted e c id worst cores u v) :
    OpCounted s (advance c v) c cores e id worst := by
  obtain ⟨_, _, _, _, hown⟩ := hw.own.trans hc.own
  refine ⟨?_, fun d hd => ?_, fun l hl => ?_, fun l hl => ?_, fun x hx => (hc.launches x hx).trans (hw.launches x), ?_⟩
  · simp [advance, hown]
  · rw [advance, State.cluster_modCluster_ne _ _ hd, hc.clusters d hd, hw.clusters d hd]
  · rw [core_advance, hc.others l hl, hw.others l hl]
  · obtain ⟨hops, hrec, hhs⟩ := hw.counts l
    have hend := hc.ends l hl
    rw [core_advance, ← hops, ← hrec, ← hhs e]
    exact ⟨hend.ops, hend.recompute, hend.shakes, fun x hx => (hend.others x hx).trans (hhs x)⟩
  · rw [← hw.launches id]
    exact hc.launch

/-- And the whole frame of EngineEnded. -/
theorem EngineWork.ended {c : Nat} {cores : List Nat} {e : Engine} {id worst : Nat} {s u v : State}
    (hw : EngineWork c cores s u) (hc : CoresCounted e c id worst cores u v) :
    EngineEnded s (advance c v) c cores e id worst := by
  refine ⟨hw.opCounted hc, ?_, fun n hn hm => (hc.fifos n hn).trans (hw.fifos n hn hm), ?_⟩
  · obtain ⟨_, _, _, _, _, _, _, rfl⟩ := hw.frame.trans hc.frame
    rfl
  · obtain ⟨_, _, _, _, hown⟩ := hw.own.trans hc.own
    simp [advance, hown]

/-- An engine operation whose work ends well: it has ended on its cores, its memory is that of the work, and beside its counts a core
is as the work left it. -/
theorem engineOp_ends {s u : State} {c code : Nat} {e : Engine} {worst : OpWord → Nat} {f : Launch → OpWord → CoreWork}
    {ln : Launch} {o : OpWord} (hi : issuing s c code = some (ln, o))
    (hr : runCores (f ln o) ((s.cluster c).active o) s = .ok u) (hw : EngineWork c ((s.cluster c).active o) s u) :
    ∃ t, engineOp s c code e worst f = .next t ∧ EngineEnded s t c ((s.cluster c).active o) e ln.id (worst o) ∧
      t.mem = u.mem ∧ ∀ l ∈ (s.cluster c).active o, OpEnds e (worst o) (u.core c l) (t.core c l) := by
  have hc := countOps_counted e c ln.id (worst o) _ (nodup_active (s.cluster c) o) u
  refine ⟨_, ?_, hw.ended hc, hc.mem, fun l hl => ?_⟩
  · simp only [engineOp, hi, hr]
  · rw [core_advance]
    exact hc.ends l hl

/-- The same for work that comes to an update of each core which leaves its counters alone. -/
theorem engineOp_modCores {s : State} {c code : Nat} {e : Engine} {worst : OpWord → Nat} {f : Launch → OpWord → CoreWork}
    {ln : Launch} {o : OpWord} (g : Nat → Core → Core) (hi : issuing s c code = some (ln, o))
    (hf : ∀ done, ∀ l ∈ (s.cluster c).active o,
      f ln o (modCores c g done s) l = .ok ((modCores c g done s).modCore c l (g l)))
    (hg : ∀ l k, SameCounts k (g l k)) :
    ∃ t, engineOp s c code e worst f = .next t ∧ EngineEnded s t c ((s.cluster c).active o) e ln.id (worst o) ∧
      t.mem = s.mem ∧ ∀ l ∈ (s.cluster c).active o, OpEnds e (worst o) (g l (s.core c l)) (t.core c l) := by
  obtain ⟨t, ht, hended, hmem, hends⟩ := engineOp_ends (e := e) (worst := worst) hi
    (runCores_modCores (f ln o) c g s _ hf) (.modCores s g (List.Subset.refl _) hg)
  refine ⟨t, ht, hended, hmem.trans (modCores_mem c g _ s), fun l hl => ?_⟩
  rw [← core_modCores_of_mem c l g _ s (nodup_active _ o) hl]
  exact hends l hl

/-! ## Operands that pass their checks (R457, R583) -/

@[simp] theorem ok_bind {ε α β : Type} (a : α) (f : α → Except ε β) : ((Except.ok a : Except ε α) >>= f) = f a := rfl

theorem needDesc_of_inCore {s : State} {c i : Nat} (h : (s.desc c i).inCore = true) : needDesc s c i = .ok (s.desc c i) := by
  simp [needDesc, h]

theorem require_of_true {b : Bool} (h : b = true) : require b = .ok () := by simp [require, h]

theorem needTensor_of_clean {s : State} {c l : Nat} {d : Desc} (h : (readTensor s c l d).poison = []) :
    needTensor s c l d = .ok (readTensor s c l d) := by
  simp [needTensor, h]

end Sys2Proof.Machine
end

section
/-! PROOFS. CLEAR and MMA: what a product of two operands does to each element of a tile, and the two operations as updates of
their cores' tiles. -/

namespace Sys2Proof.Machine

/-! ## Elements of a tile -/

/-- A fold over the numbered entries of a list, seen at a place that only the entry number j changes: numbers beyond j leave it. -/
theorem foldl_zipIdx_past {σ α β : Type} (get : σ → β) (step : σ → α × Nat → σ) (j : Nat)
    (hne : ∀ s x n, n ≠ j → get (step s (x, n)) = get s) (xs : List α) (k : Nat) (hk : j < k) (s : σ) :
    get ((xs.zipIdx k).foldl step s) = get s := by
  induction xs generalizing k s with
  | nil => rfl
  | cons x xs ih =>
    have hx : k ≠ j := by omega
    rw [List.zipIdx_cons, List.foldl_cons, ih (k + 1) (by omega), hne s x k hx]

/-- The same for numbers from k on, of which the entry number j, where there is one, changes it once. -/
theorem foldl_zipIdx_at {σ α β : Type} (get : σ → β) (step : σ → α × Nat → σ) (upd : α → β → β) (j : Nat)
    (hself : ∀ s x, get (step s (x, j)) = upd x (get s)) (hne : ∀ s x n, n ≠ j → get (step s (x, n)) = get s) (xs : List α)
    (k m : Nat) (hj : k + m = j) (s : σ) :
    get ((xs.zipIdx k).foldl step s) = (xs[m]?).elim (get s) (fun x => upd x (get s)) := by
  induction xs generalizing k m s with
  | nil => rfl
  | cons x xs ih =>
    rw [List.zipIdx_cons, List.foldl_cons]
    cases m with
    | zero =>
      obtain rfl : k = j := hj
      rw [foldl_zipIdx_past get step k hne xs (k + 1) (Nat.lt_succ_self k), hself, List.getElem?_cons_zero, Option.elim_some]
    | succ m =>
      have hx : k ≠ j := by omega
      rw [ih (k + 1) m (by omega), hne s x k hx, List.getElem?_cons_succ]

/-- The binary point of a tile and one of its elements: all that a product of two rows reads and writes. -/
def Tile.cell (n : Nat) (t : Tile) : Int × Elem := (t.f, t.el n)

/-- The products of two rows enter an element. -/
def pushCell (a b : Tensor) (kbase : Nat) (xs ys : List (Nat × Nat)) (e : Int × Elem) : Int × Elem :=
  (e.1, pushRow e.1 a.format b.format kbase xs ys e.2)

/-- The products of row i of A and every row of B enter row i of a tile: the inner loop of mmaTile. -/
def mmaRow (a b : Tensor) (kbase : Nat) (t : Tile) (ra : List (Nat × Nat) × Nat) : Tile :=
  b.rows.zipIdx.foldl (fun t rb =>
    let n := 16 * ra.2 + rb.2
    { t with els := mapSet t.els n (pushRow t.f a.format b.format kbase ra.1 rb.1 (t.el n)) }) t

theorem mmaTile_eq (t : Tile) (a b : Tensor) (kbase : Nat) : mmaTile t a b kbase = a.rows.zipIdx.foldl (mmaRow a b kbase) t := rfl

theorem Tile.el_mapSet (t : Tile) (n m : Nat) (e : Elem) :
    ({ t with els := mapSet t.els n e } : Tile).el m = if m = n then e else t.el m := mapGet_mapSet _ _ _ _ _

/-- One element of row i after the row. -/
theorem mmaRow_cell (a b : Tensor) (kbase i j : Nat) (t : Tile) (xs : List (Nat × Nat)) :
    (mmaRow a b kbase t (xs, i)).cell (16 * i + j) =
      (b.rows[j]?).elim (t.cell (16 * i + j)) (fun ys => pushCell a b kbase xs ys (t.cell (16 * i + j))) := by
  refine foldl_zipIdx_at (Tile.cell (16 * i + j)) _ (pushCell a b kbase xs) j (fun s ys => ?_) (fun s ys n hn => ?_) b.rows 0 j
    (Nat.zero_add j) t
  · simp [Tile.cell, pushCell, Tile.el_mapSet]
  · have hne : j ≠ n := fun h => hn h.symm
    simp [Tile.cell, Tile.el_mapSet, hne]

/-- Another row of the tile is left alone. -/
theorem mmaRow_cell_ne (a b : Tensor) (kbase i i' j : Nat) (t : Tile) (xs : List (Nat × Nat)) (hb : b.rows.length ≤ 16) (hj : j < 16)
    (hi : i' ≠ i) : (mmaRow a b kbase t (xs, i')).cell (16 * i + j) = t.cell (16 * i + j) := by
  refine List.foldlRecOn (motive := fun u : Tile => u.cell (16 * i + j) = t.cell (16 * i + j)) _ _ rfl (fun u hu p hp => ?_)
  have hlt : p.2 < b.rows.length := List.snd_lt_of_mem_zipIdx hp
  have hne : 16 * i + j ≠ 16 * i' + p.2 := by omega
  rw [← hu]
  simp [Tile.cell, Tile.el_mapSet, hne]

/-- Element (i, j) after the products of two operands: those of row i of A and row j of B have entered it, where both exist. -/
theorem mmaTile_cell (t : Tile) (a b : Tensor) (kbase i j : Nat) (hb : b.rows.length ≤ 16) (hj : j < 16) :
    (mmaTile t a b kbase).cell (16 * i + j) = (a.rows[i]?).elim (t.cell (16 * i + j)) (fun xs =>
      (b.rows[j]?).elim (t.cell (16 * i + j)) (fun ys => pushCell a b kbase xs ys (t.cell (16 * i + j)))) := by
  rw [mmaTile_eq]
  exact foldl_zipIdx_at (Tile.cell (16 * i + j)) _
    (fun xs e => (b.rows[j]?).elim e (fun ys => pushCell a b kbase xs ys e)) i
    (fun u xs => mmaRow_cell a b kbase i j u xs) (fun u xs n hn => mmaRow_cell_ne a b kbase i n j u xs hb hj hn) a.rows
    0 i (Nat.zero_add i) t

theorem mmaTile_f (t : Tile) (a b : Tensor) (kbase : Nat) : (mmaTile t a b kbase).f = t.f :=
  List.foldlRecOn (motive := fun u : Tile => u.f = t.f) _ _ rfl (fun _ hu _ _ =>
    List.foldlRecOn (motive := fun v : Tile => v.f = t.f) _ _ hu (fun _ hv _ _ => hv))

theorem mmaTile_el (t : Tile) (a b : Tensor) (kbase i j : Nat) (hb : b.rows.length ≤ 16) (hj : j < 16) :
    (mmaTile t a b kbase).el (16 * i + j) =
      if i < a.rows.length ∧ j < b.rows.length then
        pushRow t.f a.format b.format kbase ((a.rows[i]?).getD []) ((b.rows[j]?).getD []) (t.el (16 * i + j))
      else t.el (16 * i + j) := by
  have h : (mmaTile t a b kbase).el (16 * i + j) = ((mmaTile t a b kbase).cell (16 * i + j)).2 := rfl
  rw [h, mmaTile_cell t a b kbase i j hb hj]
  by_cases hi : i < a.rows.length
  · by_cases hr : j < b.rows.length
    · simp [hi, hr, Tile.cell, pushCell]
    · simp [hi, hr, Tile.cell]
  · simp [hi, Tile.cell]

/-- An element of a closed tile; one that nothing has entered has no open chunk. -/
theorem Tile.close_el (t : Tile) (n : Nat) : t.close.el n = (t.el n).close t.f := by
  have h : mapFind t.close.els n = (mapFind t.els n).map (Elem.close t.f) := mapFind_map (Elem.close t.f) t.els n
  rw [Tile.el, mapGet, h, Tile.el, mapGet]
  cases mapFind t.els n <;> rfl

/-! ## Tiles of cores -/

/-- One tile of a core is written. -/
def setCoreTile (i : Nat) (x : Tile) (k : Core) : Core := { k with tiles := mapSet k.tiles i x }

theorem setTile_eq (c l i : Nat) (x : Tile) (s : State) : setTile c l i x s = s.modCore c l (setCoreTile i x) := rfl

theorem coreTile_eq (s : State) (c l i : Nat) : coreTile s c l i = mapGet {} (s.core c l).tiles i := rfl

theorem setCoreTile_counts (i : Nat) (x : Tile) (k : Core) : SameCounts k (setCoreTile i x k) :=
  ⟨rfl, rfl, fun e => by cases e <;> rfl⟩

/-! ## CLEAR (R200, R467) -/

/-- CLEAR on one core: tile i is empty at a binary point, and its TILE_SAT is dropped. -/
def clearCore (F : Int) (i : Nat) (k : Core) : Core :=
  { setCoreTile i (clearedTile F) k with tileSat := k.tileSat &&& ~~~BitVec.ofNat 4 (2 ^ i) }

theorem clearCore_counts (F : Int) (i : Nat) (k : Core) : SameCounts k (clearCore F i k) :=
  ⟨rfl, rfl, fun e => by cases e <;> rfl⟩

/-- CLEAR of a tile and its TILE_SAT is one update of its core. -/
theorem setTileSat_setTile_cleared (c l i : Nat) (F : Int) (s : State) :
    setTileSat c l i false (setTile c l i (clearedTile F) s) = s.modCore c l (clearCore F i) := by
  rw [setTileSat, setTile_eq, State.modCore_modCore]
  rfl

/-- CLEAR with a valid binary point ends as an update of its cores. -/
theorem execClear_ends {s : State} {c : Nat} {ln : Launch} {o : OpWord} (hi : issuing s c 0x10 = some (ln, o))
    (hF : goodPoint (immI8 (immOf ln o 0) 0) = true) :
    ∃ t, execClear c s = .next t ∧ EngineEnded s t c ((s.cluster c).active o) .field ln.id 2 ∧ t.mem = s.mem ∧
      ∀ l ∈ (s.cluster c).active o,
        OpEnds .field 2 (clearCore (immI8 (immOf ln o 0) 0) (o.aux % 4) (s.core c l)) (t.core c l) := by
  refine engineOp_modCores (fun _ => clearCore (immI8 (immOf ln o 0) 0) (o.aux % 4)) hi (fun done l _ => ?_)
    (fun _ => clearCore_counts _ _)
  dsimp only
  rw [require_of_true hF, ok_bind, setTileSat_setTile_cleared]
  rfl

/-! ## MMA (R465, R466) -/

/-- A tile after MMA: the products have entered it, and its open chunks are closed where CLOSE is set. -/
def mmaResult (close : Bool) (a b : Tensor) (kbase : Nat) (t : Tile) : Tile :=
  if close then (mmaTile t a b kbase).close else mmaTile t a b kbase

theorem mmaResult_f (close : Bool) (a b : Tensor) (kbase : Nat) (t : Tile) : (mmaResult close a b kbase t).f = t.f := by
  cases close
  · exact mmaTile_f t a b kbase
  · exact mmaTile_f t a b kbase

theorem mmaResult_el (close : Bool) (a b : Tensor) (kbase : Nat) (t : Tile) (n : Nat) :
    (mmaResult close a b kbase t).el n =
      if close then ((mmaTile t a b kbase).el n).close t.f else (mmaTile t a b kbase).el n := by
  cases close
  · rfl
  · simp only [mmaResult, if_true, Tile.close_el, mmaTile_f]

/-- MMA on one core: the result of the products replaces tile i. -/
def mmaCore (close : Bool) (a b : Tensor) (kbase i : Nat) (k : Core) : Core :=
  setCoreTile i (mmaResult close a b kbase (mapGet {} k.tiles i)) k

/-- MMA with valid operands that hold no poison ends as an update of its cores. The operands that a core reads are those before the
operation, since no core's work reaches memory. -/
theorem execMma_ends {s : State} {c worst : Nat} {ln : Launch} {o : OpWord} {da db : Desc}
    (hi : issuing s c 0x11 = some (ln, o)) (hda : da = s.desc c o.a) (hdb : db = s.desc c o.b) (ha : da.inCore = true)
    (hb : db.inCore = true)
    (hok : (da.cols = db.cols && da.rows ≤ 16 && db.rows ≤ 16 && mmaFormats da.format db.format) = true)
    (hp : ∀ l ∈ (s.cluster c).active o, (readTensor s c l da).poison = [] ∧ (readTensor s c l db).poison = [])
    (hworst : worst = ceilDiv (da.cols * mmaFactor da db) 2 + 16) :
    ∃ t, execMma c s = .next t ∧ EngineEnded s t c ((s.cluster c).active o) .field ln.id worst ∧ t.mem = s.mem ∧
      ∀ l ∈ (s.cluster c).active o,
        OpEnds .field worst
          (mmaCore (bit o.oflags 0) (readTensor s c l da) (readTensor s c l db) (immOf ln o 0) (o.aux % 4) (s.core c l))
          (t.core c l) := by
  subst hda hdb hworst
  refine engineOp_modCores (fun l => mmaCore (bit o.oflags 0) (readTensor s c l (s.desc c o.a)) (readTensor s c l (s.desc c o.b))
    (immOf ln o 0) (o.aux % 4)) hi (fun done l hl => ?_) (fun _ k => setCoreTile_counts _ _ k)
  obtain ⟨hpa, hpb⟩ := hp l hl
  generalize hu : modCores c _ done s = u
  have hdesc : ∀ i, u.desc c i = s.desc c i := fun i => by rw [← hu, desc_modCores]
  have hread : ∀ d, readTensor u c l d = readTensor s c l d := fun d => by rw [← hu, readTensor_modCores]
  rw [needDesc_of_inCore (by rwa [hdesc]), ok_bind, needDesc_of_inCore (by rwa [hdesc]), ok_bind, hdesc, hdesc,
    require_of_true hok, ok_bind, needTensor_of_clean (by rwa [hread]), ok_bind, needTensor_of_clean (by rwa [hread]), ok_bind,
    hread, hread]
  rfl

/-! ## The statement -/

theorem readTensor_length (s : State) (c l : Nat) (d : Desc) : (readTensor s c l d).rows.length = d.rows := by
  simp [readTensor]

theorem readTensor_format (s : State) (c l : Nat) (d : Desc) : (readTensor s c l d).format = d.format := rfl

/-- The tiles of a core after one of them has been written. -/
theorem written_tile {k k' : Core} {i : Nat} {x : Tile} (h : k'.tiles = mapSet k.tiles i x) :
    mapGet {} k'.tiles i = x ∧ ∀ n, n ≠ i → mapGet {} k'.tiles n = mapGet {} k.tiles n := by
  rw [h]
  exact ⟨mapGet_mapSet_self _ _ _ _, fun n hn => mapGet_mapSet_ne _ _ _ hn⟩

/-- Settles O29: each core's work is an update of its tile, so engineOp_modCores gives the end of the operation, and mmaTile_el the
elements of the product. -/
theorem tilesAreClearedAndAccumulate : Obligations.TilesAreClearedAndAccumulate := by
  rintro s c ln o _ rfl
  refine ⟨fun hi hF => ?_, ?_⟩
  · obtain ⟨t, ht, hended, hmem, hends⟩ := execClear_ends hi hF
    refine ⟨t, ht, hended, hmem, fun l hl => ?_⟩
    have h := hends l hl
    obtain ⟨htile, hothers⟩ := written_tile h.tiles
    exact ⟨htile, hothers, h.tileSat, h.stepSat, h.drainSat⟩
  · rintro hi _ _ rfl rfl ha hb hcols har hbr hfmt hp
    obtain ⟨t, ht, hended, hmem, hends⟩ := execMma_ends hi rfl rfl ha hb (by simp [hcols, har, hbr, hfmt]) hp rfl
    refine ⟨t, ht, hended, hmem, fun l hl => ?_⟩
    have h := hends l hl
    obtain ⟨htile, hothers⟩ := written_tile h.tiles
    rw [coreTile_eq t, coreTile_eq s, htile]
    refine ⟨mmaResult_f _ _ _ _ _, hothers, h.tileSat, ?_⟩
    rintro i j hi16 hj16 _ rfl
    rw [mmaResult_el, mmaTile_el _ _ _ _ i j (by rwa [readTensor_length]) hj16]
    simp only [readTensor_length, readTensor_format]

end Sys2Proof.Machine
end

section
/-! PROOFS. REPORT_PACKET and REPORT_TIMEOUT: what the consumption of a packet answers, what the exchange logic sends to one
receiver, and what a run with nothing it can send is left as. -/

namespace Sys2Proof.Machine

theorem demand_of_true {b : Bool} (st : Nat) (h : b = true) : demand b st = .ok () := by simp [demand, h]

theorem demand_of_false {b : Bool} (st : Nat) (h : b = false) : demand b st = .error (.status st) := by simp [demand, h]

/-- A run written back as it stands changes no run. -/
theorem State.run_setRun_of_run {s : State} {n : Nat} {r : Run} (h : s.run n = some r) (j : Nat) :
    (s.setRun n r).run j = s.run j := by
  rw [State.run_setRun]
  split
  case isTrue hj => rw [hj, h]
  case isFalse => rfl

/-- A launch is found by its own number. -/
theorem State.id_of_launch {s : State} {k : Nat} {l : Launch} (h : s.launch k = some l) : l.id = k := by
  simpa using List.find?_some h

/-! ## The commands -/

theorem exec_reportPacket (n d : Nat) (s : State) : exec (.reportPacket n d) s = execReportPacket n d s := rfl

theorem exec_reportTimeout (n : Nat) (s : State) : exec (.reportTimeout n) s = execReportTimeout n s := rfl

/-- What a run whose exchange logic works has: the run, its launch, its exchange, and a launch that runs. -/
theorem exchanging_eq_some {s : State} {n : Nat} {ln : Launch} {r : Run} {x : Exch} (h : exchanging s n = some (ln, r, x)) :
    s.run n = some r ∧ s.launch r.launch = some ln ∧ r.exch = some x ∧
      s.on = true ∧ ln.phase = .running ∧ r.seedWait = false := by
  unfold exchanging at h
  split at h
  case h_2 => cases h
  case h_1 r' hr =>
    split at h
    case h_2 => cases h
    case h_1 ln' x' hl hx =>
      split at h
      case isFalse => cases h
      case isTrue hc =>
        cases h
        exact ⟨hr, hl, hx, by simpa [and_assoc] using hc⟩

section
variable {s t : State} {n d : Nat} {ln : Launch} {r : Run} {x : Exch}
variable (hE : exchanging s n = some (ln, r, x)) (hd : d < x.members.length) (hs : d ≠ x.self)
include hE hd hs

/-- A run that has not finished consumes before it sends. -/
theorem exec_reportPacket_consumed {u : State} (hf : r.next ≠ .finished)
    (hc : consumePacket n d r x s (mapGet 0 x.rpos d) = .ok u) (hm : moveReports n u = .ok t) :
    exec (.reportPacket n d) s = .next t := by
  simp [exec_reportPacket, execReportPacket, hE, Nat.not_le.mpr hd, hs, hf, hc, hm]

/-- A finished run only sends. -/
theorem exec_reportPacket_finished (hf : r.next = .finished) (hm : moveReports n s = .ok t) :
    exec (.reportPacket n d) s = .next t := by
  simp [exec_reportPacket, execReportPacket, hE, Nat.not_le.mpr hd, hs, hf, hm]

/-- A packet that must not be there ends the launch. -/
theorem exec_reportPacket_status {st : Nat} (hf : r.next ≠ .finished)
    (hc : consumePacket n d r x s (mapGet 0 x.rpos d) = .error (.status st)) :
    exec (.reportPacket n d) s = .next (stopLaunch ln.id st s) := by
  simp [exec_reportPacket, execReportPacket, hE, Nat.not_le.mpr hd, hs, hf, hc, haltLaunch]

end

/-! ## Consuming a packet (R395, R407) -/

/-- The packet at a read position of a sender's sub-ring lies here (R392). -/
abbrev Run.packetVa (r : Run) (x : Exch) (d pos : Nat) : Nat := r.area.va + x.inboxOff + d * x.sub + pos % x.sub

/-- A packet with header h is there, its COMMIT fits, and the image it is judged by can be read. -/
structure PacketHere (s : State) (n d pos : Nat) (r : Run) (x : Exch) (h : PacketHead) (m : Problem) (ss : List Stage) : Prop where
  read : ∃ b, readVa s r.asid (r.packetVa x d pos) 64 = .ok b ∧ h = packetHeadOf b
  accepted : h.accepted x pos = true
  problem : (fetchAt s r.asid (s.ctx n).imageVa).problem = .ok m
  schedule : (fetchAt s r.asid (s.ctx n).imageVa).schedule m = .ok ss

/-- What a packet makes of the reports held: a wrap packet brings nothing (R393), a report of the run, image and phase expected is
taken in with its body. -/
def TakesIn (s : State) (n d pos : Nat) (r : Run) (x y : Exch) (h : PacketHead) (m : Problem) (ss : List Stage) (body : List Byte) :
    Prop :=
  h.typ = 3 ∧ y = x ∨ h.typ ≠ 3 ∧ h.seed = r.seed ∧ h.root = root64 (s.ctx n) ∧ 65536 * h.sweep + h.phase = x.expects h d ∧
    y = x.take m ss d h body ∧ readVa s r.asid (r.packetVa x d pos + 64) (64 * h.units - 64) = .ok body

/-- Taking a report in changes the reports held and the phases expected, nothing else of the exchange. -/
theorem Exch.take_frame (x : Exch) (m : Problem) (ss : List Stage) (d : Nat) (h : PacketHead) (body : List Byte) :
    ∃ ps bs es, x.take m ss d h body = { x with reports := ps, bnext := bs, enext := es } := by
  unfold Exch.take
  dsimp only
  split
  · split
    · exact ⟨_, _, _, rfl⟩
    · exact ⟨_, _, _, rfl⟩
  · exact ⟨_, _, _, rfl⟩

theorem TakesIn.frame {s : State} {n d pos : Nat} {r : Run} {x y : Exch} {h : PacketHead} {m : Problem} {ss : List Stage}
    {body : List Byte} (ht : TakesIn s n d pos r x y h m ss body) :
    ∃ ps bs es, y = { x with reports := ps, bnext := bs, enext := es } := by
  obtain ⟨-, rfl⟩ | ⟨-, -, -, -, rfl, -⟩ := ht
  · exact ⟨_, _, _, rfl⟩
  · exact x.take_frame m ss d h body

/-- The end of consumePacket: the read position of exchange y moves past the packet and is acknowledged to its sender. -/
def acknowledge (n d pos : Nat) (r : Run) (y : Exch) (h : PacketHead) (s : State) : Except Halt State :=
  remoteStore (touch r.cluster r.asid (r.packetVa y d pos) (64 * h.units) false s) ((y.member d).ackGva + 8 * y.self)
    (leBytes 8 h.commit) >>= fun t => .ok (t.setRun n { r with exch := some { y with rpos := mapSet y.rpos d h.commit } })

theorem remoteStore_of_peerWrite {s u : State} {g : Nat} {bs : List Byte} (hu : peerWrite s g (untagged bs) = .ok u) :
    remoteStore s g bs = .ok u := by
  simp only [remoteStore, hu]

theorem acknowledge_ok {s u : State} {n d pos : Nat} {r : Run} {y : Exch} {h : PacketHead}
    (hu : peerWrite (touch r.cluster r.asid (r.packetVa y d pos) (64 * h.units) false s) ((y.member d).ackGva + 8 * y.self)
      (untagged (leBytes 8 h.commit)) = .ok u) :
    acknowledge n d pos r y h s = .ok (u.setRun n { r with exch := some { y with rpos := mapSet y.rpos d h.commit } }) := by
  rw [acknowledge, remoteStore_of_peerWrite hu, ok_bind]

section
variable {s u : State} {n d pos : Nat} {r : Run} {x y : Exch} {b body : List Byte} {h : PacketHead} {m : Problem} {ss : List Stage}

/-- A packet whose COMMIT does not fit is not yet there. -/
theorem consumePacket_not_accepted (hb : readVa s r.asid (r.packetVa x d pos) 64 = .ok b)
    (ha : (packetHeadOf b).accepted x pos = false) : consumePacket n d r x s pos = .ok s := by
  simp only [consumePacket, hb, ok_bind, ha]
  rfl

/-- A packet of another run, image or phase is a mismatch (R407). -/
theorem PacketHere.consume_mismatch (hp : PacketHere s n d pos r x h m ss) (htyp : h.typ ≠ 3)
    (hwrong : h.seed ≠ r.seed ∨ h.root ≠ root64 (s.ctx n) ∨ 65536 * h.sweep + h.phase ≠ x.expects h d) :
    consumePacket n d r x s pos = .error (.status 0x401) := by
  obtain ⟨⟨b, hb, rfl⟩, ha, hm, hss⟩ := hp
  simp only [consumePacket, hb, ok_bind, ha, hm, hss, Bool.not_true, Bool.false_eq_true, if_false]
  rw [demand_of_false]
  · rfl
  · rcases hwrong with hseed | hroot | hkey
    · simp [htyp, hseed]
    · simp [htyp, hroot]
    · simp [htyp, hkey]

/-- A packet taken in is acknowledged. -/
theorem PacketHere.consume_eq (hp : PacketHere s n d pos r x h m ss) (ht : TakesIn s n d pos r x y h m ss body) :
    consumePacket n d r x s pos = acknowledge n d pos r y h s := by
  obtain ⟨⟨b, hb, rfl⟩, ha, hm, hss⟩ := hp
  obtain ⟨htyp, rfl⟩ | ⟨htyp, hseed, hroot, hkey, rfl, hbody⟩ := ht
  · simp only [consumePacket, hb, ok_bind, ha, hm, hss, htyp, decide_true, Bool.true_or, demand_of_true, Bool.not_true,
      Bool.false_eq_true, if_true, if_false]
    rfl
  · simp only [consumePacket, hb, ok_bind, ha, hm, hss, htyp, hseed, hroot, hkey, hbody, decide_true, Bool.or_true, Bool.and_true,
      demand_of_true, Bool.not_true, Bool.false_eq_true, if_false]
    rfl

/-- A packet taken in is consumed: the read position moves to COMMIT, which the sender's memory gets (R395, R396). -/
theorem PacketHere.consume_ok (hp : PacketHere s n d pos r x h m ss) (ht : TakesIn s n d pos r x y h m ss body)
    (hu : peerWrite (touch r.cluster r.asid (r.packetVa x d pos) (64 * h.units) false s) ((x.member d).ackGva + 8 * x.self)
      (untagged (leBytes 8 h.commit)) = .ok u) :
    consumePacket n d r x s pos = .ok (u.setRun n { r with exch := some { y with rpos := mapSet x.rpos d h.commit } }) := by
  rw [hp.consume_eq ht]
  obtain ⟨ps, bs, es, rfl⟩ := ht.frame
  exact acknowledge_ok hu

end

/-! ## Sending (R393, R396, R737) -/

section
variable {s u : State} {n d : Nat} {r : Run} {x y : Exch} {k : OpenPacket}

theorem sendNext_idle (hout : x.outbox = []) (hopen : mapFind x.opened d = none) :
    sendNext n d r s x = .error (.access true .held) := by
  simp [sendNext, hout, hopen]

/-- The COMMIT of a packet waits for its other writes. -/
theorem sendNext_commit_waits (hopen : mapFind x.opened d = some k) (hw : s.silk.txns.any (fun t => k.tags.contains t.tag) = true) :
    sendNext n d r s x = .error (.access true .held) := by
  simp only [sendNext, hopen, commitPacket, hw, if_true]

/-- The COMMIT of a packet is written once they have completed. -/
theorem sendNext_commit (hopen : mapFind x.opened d = some k) (hw : s.silk.txns.any (fun t => k.tags.contains t.tag) = false)
    (hu : peerWrite s k.gva (untagged (leBytes 8 k.commit)) = .ok u) :
    sendNext n d r s x = .ok (u, { x with opened := mapErase x.opened d }) := by
  simp only [sendNext, hopen, commitPacket, hw, remoteStore_of_peerWrite hu, ok_bind]
  rfl

/-- A packet that fits before the end of the sub-ring, and for which flow control has no room, waits. -/
theorem sendNext_no_room {p : Outgoing} {ack : List Byte} (hopen : mapFind x.opened d = none)
    (hp : x.outbox.find? (fun p => p.dest = d) = some p) (hfits : mapGet 0 x.wpos d % x.sub + 64 * p.units ≤ x.sub)
    (hack : readVa s r.asid (r.ackVa x d) 8 = .ok ack) (hroom : x.sub + leNat ack < mapGet 0 x.wpos d + 64 * p.units) :
    sendNext n d r s x = .error (.access true .held) := by
  have hfull : x.sub < mapGet 0 x.wpos d + 64 * p.units - leNat ack := by omega
  simp [sendNext, hopen, hp, hfits, hack, hfull]

/-- A receiver to which nothing can be sent is passed over, whatever the fuel. -/
theorem sendReady_waits (h : sendNext n d r s x = .error (.access true .held)) (fuel : Nat) :
    sendReady n d r fuel s x = .ok (s, x) := by
  cases fuel with
  | zero => rfl
  | succ fuel => simp [sendReady, h, Halt.waits]

/-- Where one thing can be sent and nothing after it, it is sent. -/
theorem sendReady_once (h : sendNext n d r s x = .ok (u, y)) (hw : sendNext n d r u y = .error (.access true .held)) (fuel : Nat) :
    sendReady n d r (fuel + 1) s x = .ok (u, y) := by
  simp only [sendReady, h, sendReady_waits hw]

theorem sendToAll_waits {ds : List Nat} (h : ∀ d ∈ ds, sendNext n d r s x = .error (.access true .held)) :
    sendToAll n r ds s x = .ok (s, x) := by
  induction ds with
  | nil => rfl
  | cons d ds ih =>
    have hd := sendReady_waits (h d List.mem_cons_self)
    have hds := ih (fun e he => h e (List.mem_cons_of_mem d he))
    simp only [sendToAll, hd, hds]

/-- No energy report is due before a phase has ended, nor again once this member's own is made. -/
theorem sendEnergy_settled (hr : s.run n = some r) (hx : r.exch = some x) (hl : x.last = none ∨ x.own.isSome = true) :
    sendEnergy n s = .ok s := by
  simp only [sendEnergy, hr, hx]
  split
  case h_1 hlast hown => simp [hlast, hown] at hl
  case h_2 => rfl

theorem moveReports_sent (hr : s.run n = some r) (hx : r.exch = some x) (hl : x.last = none ∨ x.own.isSome = true)
    (hs : sendToAll n r x.others s x = .ok (u, y)) : moveReports n s = .ok (u.setRun n { r with exch := some y }) := by
  simp only [moveReports, sendEnergy_settled hr hx hl, ok_bind, pumpReports, hr, hx, hs]
  rfl

/-- A run that can send nothing to anyone is left as it is. -/
theorem moveReports_waits (hr : s.run n = some r) (hx : r.exch = some x) (hl : x.last = none ∨ x.own.isSome = true)
    (h : ∀ d ∈ x.others, sendNext n d r s x = .error (.access true .held)) : moveReports n s = .ok (s.setRun n r) := by
  rw [moveReports_sent hr hx hl (sendToAll_waits h), ← hx]

end

/-! ## Waiting for reports (R408) -/

section
variable {s : State} {n wait : Nat} {ln : Launch} {r : Run} {x : Exch} {l : Nat × Nat}

theorem liveRun_of_exchanging (hE : exchanging s n = some (ln, r, x)) (hf : r.next ≠ .finished) : liveRun s n = some (ln, r) := by
  obtain ⟨hr, hl, -, hon, hrunning, hseed⟩ := exchanging_eq_some hE
  simp [liveRun, hr, hl, hf, hon, hrunning, hseed]

/-- A wait, for boundary reports or for energy reports, is overdue once it has lasted longer than TIMEOUT_US. -/
theorem Exch.overdue_iff (now : Nat) (hl : x.last = some l) (hw : x.own = none ∧ wait = x.waitSince ∨
    x.own.isSome = true ∧ x.energyHeld (65536 * l.1 + l.2) = false ∧ wait = x.energySince) :
    x.overdue now = true ↔ wait + 1000 * x.timeoutUs < now := by
  obtain ⟨hown, rfl⟩ | ⟨hown, hheld, rfl⟩ := hw
  · simp [Exch.overdue, hl, hown]
  · obtain ⟨es, hes⟩ := Option.isSome_iff_exists.mp hown
    simp [Exch.overdue, hl, hes, hheld]

theorem exec_reportTimeout_exchanging (hE : exchanging s n = some (ln, r, x)) (hf : r.next ≠ .finished) :
    exec (.reportTimeout n) s = needs (x.overdue s.pace.cricket) (stopLaunch ln.id 0x400 s) s := by
  obtain ⟨-, -, hx, -⟩ := exchanging_eq_some hE
  simp [exec_reportTimeout, execReportTimeout, liveRun_of_exchanging hE hf, hx, State.now]

end

/-- A running launch without an error takes the status that ends it. -/
theorem Launch.stop_running {ln : Launch} (st : Nat) (hp : ln.phase = .running) (hs : ln.status = 0) :
    ln.stop st = { ln with phase := .ended, status := st } := by
  simp [Launch.stop, hp, hs]

/-! ## The statement -/

/-- A run written to a state: no other run changes. -/
theorem setRun_only {u : State} {n : Nat} (r : Run) :
    u.setRun n r = { u with runs := (u.setRun n r).runs } ∧ (∀ j, j ≠ n → (u.setRun n r).run j = u.run j) ∧
      (u.setRun n r).run n = some r :=
  ⟨rfl, fun j hj => by rw [State.run_setRun, if_neg hj], State.run_setRun_self u n r⟩

/-- A run that has consumed a packet and has nothing to send is left as it is. -/
theorem moveReports_consumed {u : State} {n : Nat} {r : Run} {x y : Exch} {rs : Map Nat}
    (hy : ∃ ps bs es, y = { x with reports := ps, bnext := bs, enext := es }) (hout : x.outbox = []) (hopen : x.opened = [])
    (hl : x.last = none ∨ x.own.isSome = true) (hr : r.exch = some { y with rpos := rs }) :
    moveReports n (u.setRun n r) = .ok (u.setRun n r) := by
  obtain ⟨ps, bs, es, rfl⟩ := hy
  rw [moveReports_waits (State.run_setRun_self u n r) hr hl (fun _ _ => sendNext_idle hout (by rw [hopen]; rfl))]
  simp only [State.setRun, mapSet_mapSet]

section
variable {s : State} {n d e : Nat} {ln : Launch} {r : Run} {x : Exch}
variable (hE : exchanging s n = some (ln, r, x)) (hd : d < x.members.length) (hs : d ≠ x.self) (hf : r.next = .finished)
  (ho : x.others = [e]) (hl : x.last = none ∨ x.own.isSome = true)
include hE hd hs hf ho hl

/-- A finished run that can send nothing to its only receiver keeps every run as it is. -/
theorem exec_finished_waits (h : sendNext n e r s x = .error (.access true .held)) :
    ∃ t, exec (.reportPacket n d) s = .next t ∧ t = { s with runs := t.runs } ∧ ∀ j, t.run j = s.run j := by
  obtain ⟨hr, -, hx, -⟩ := exchanging_eq_some hE
  have hm := moveReports_waits hr hx hl (by simpa [ho] using h)
  exact ⟨_, exec_reportPacket_finished hE hd hs hf hm, rfl, State.run_setRun_of_run hr⟩

/-- A finished run writes the COMMIT of its only packet being sent once the other writes of the packet have completed. -/
theorem exec_finished_commits {u : State} {k : OpenPacket} (hout : x.outbox = []) (hopen : x.opened = [(e, k)])
    (hw : s.silk.txns.any (fun t => k.tags.contains t.tag) = false)
    (hu : peerWrite s k.gva (untagged (leBytes 8 k.commit)) = .ok u) :
    exec (.reportPacket n d) s = .next (u.setRun n { r with exch := some { x with opened := [] } }) := by
  obtain ⟨hr, -, hx, -⟩ := exchanging_eq_some hE
  have hnone : mapErase x.opened e = [] := by simp [hopen, mapErase]
  have hcommit : sendNext n e r s x = .ok (u, { x with opened := [] }) := by
    rw [sendNext_commit (by simp [hopen, mapFind]) hw hu, hnone]
  have hidle : sendNext n e r u { x with opened := [] } = .error (.access true .held) := sendNext_idle hout rfl
  have hsend : sendToAll n r x.others s x = .ok (u, { x with opened := [] }) := by
    simp only [ho, sendToAll, sendReady_once hcommit hidle]
  exact exec_reportPacket_finished hE hd hs hf (moveReports_sent hr hx hl hsend)

end

/-- Settles O42: a packet is not yet there, ends the launch or is consumed, and a run that can send nothing to any
receiver is left as it is. -/
theorem reportsAreConsumedInOrder : Obligations.ReportsAreConsumedInOrder := by
  rintro s n ln r x d pos hE hd hs rfl
  obtain ⟨-, hlaunch, -, -, hrunning, -⟩ := exchanging_eq_some hE
  refine ⟨?consume, ?commit, ?room, ?timeout⟩
  case consume =>
    rintro b h hf hb rfl
    refine ⟨fun t ha hm => exec_reportPacket_consumed hE hd hs hf (consumePacket_not_accepted hb ha) hm, ?_⟩
    rintro image m ss ha rfl hm hss
    have hp : PacketHere s n d _ r x _ m ss := ⟨⟨b, hb, rfl⟩, ha, hm, hss⟩
    refine ⟨fun htyp hwrong => exec_reportPacket_status hE hd hs hf (hp.consume_mismatch htyp hwrong), ?_⟩
    rintro body y v u ht rfl hu
    have htakes : TakesIn s n d _ r x y _ m ss body := ht
    have hc := hp.consume_ok htakes hu
    refine ⟨fun t hmove => exec_reportPacket_consumed hE hd hs hf hc hmove, fun hout hopen hl => ?_⟩
    refine ⟨_, exec_reportPacket_consumed hE hd hs hf hc ?_, setRun_only _⟩
    exact moveReports_consumed htakes.frame hout hopen hl rfl
  case commit =>
    intro e k hf ho hout hopen hl
    refine ⟨fun hw => ?_, fun u hw hu => ?_⟩
    · exact exec_finished_waits hE hd hs hf ho hl (sendNext_commit_waits (by simp [hopen, mapFind]) hw)
    · exact ⟨_, exec_finished_commits hE hd hs hf ho hl hout hopen hw hu, setRun_only _⟩
  case room =>
    intro e p ack hf ho hout hdest hopen hl hfits hack hroom
    exact exec_finished_waits hE hd hs hf ho hl (sendNext_no_room (by rw [hopen]; rfl) (by simp [hout, hdest]) hfits hack hroom)
  case timeout =>
    intro l wait hf hlast hstatus hw
    have hexec := exec_reportTimeout_exchanging hE hf
    have hdue := Exch.overdue_iff s.pace.cricket hlast hw
    refine ⟨fun hlate => ?_, fun hearly => ?_⟩
    · have hid : s.launch ln.id = some ln := by rwa [State.id_of_launch hlaunch]
      rw [hexec, hdue.mpr hlate]
      refine ⟨_, rfl, ?_, rfl⟩
      rw [launch_stopLaunch, hid, Option.map_some, if_pos rfl, Launch.stop_running _ hrunning hstatus]
    · rw [hexec, Bool.eq_false_iff.mpr (mt hdue.mp (Nat.not_lt.mpr hearly))]
      rfl

end Sys2Proof.Machine
end

section
/-! PROOFS. MCAST_PACKET_ACCEPT and REDUCTION_PARTIAL_ARRIVAL: what leaves a FIFO and enters others, the branches of a packet
as distinct FIFOs, and what a reduction node does with a partial. -/

namespace Sys2Proof.Machine

/-! ## Queues of the network -/

/-- The network is all that may differ. -/
def NetFrame (s t : State) : Prop := ∃ x, t = { s with net := x }

theorem NetFrame.trans {s t u : State} (h : NetFrame s t) (k : NetFrame t u) : NetFrame s u := by
  obtain ⟨x, rfl⟩ := h
  obtain ⟨y, rfl⟩ := k
  exact ⟨y, rfl⟩

theorem NetFrame.cluster {s t : State} (h : NetFrame s t) (c : Nat) : t.cluster c = s.cluster c := by
  obtain ⟨x, rfl⟩ := h
  rfl

theorem NetFrame.launch {s t : State} (h : NetFrame s t) (id : Nat) : t.launch id = s.launch id := by
  obtain ⟨x, rfl⟩ := h
  rfl

theorem popFifo_frame (s : State) (n : Nat) : NetFrame s (popFifo s n) := by
  unfold popFifo
  dsimp only
  split
  · exact ⟨_, rfl⟩
  · exact ⟨_, rfl⟩

/-- The first packet of the FIFO has left it; every other FIFO stands. -/
theorem fifo_popFifo (s : State) (n m : Nat) : (popFifo s n).fifo m = if m = n then (s.fifo n).drop 1 else s.fifo m := by
  unfold popFifo
  dsimp only
  split
  · exact s.fifo_setFifo n m _
  · exact s.fifo_setFifo n m _

theorem pushPort_frame (n : Nat) (ps : List Pkt) (s : State) : NetFrame s (pushPort n ps s) := ⟨_, rfl⟩

theorem fifo_pushPort (n m : Nat) (ps : List Pkt) (s : State) :
    (pushPort n ps s).fifo m = if m = n then s.fifo n ++ ps else s.fifo m :=
  s.fifo_setFifo n m _

/-- A record sets out from a router port of a controller or of a hub unit. -/
theorem recordPort_ge (source : Nat) : 305790 ≤ recordPort source := by
  unfold recordPort
  split
  · simp only [ctlPort]; omega
  · simp only [hubPort]; omega

/-! ## Packets that do not merge -/

theorem findIdx_eq_none {α : Type} {p : α → Bool} {l : List α} (h : ∀ x ∈ l, p x = false) (i : Nat) : findIdx p l i = none := by
  induction l generalizing i with
  | nil => rfl
  | cons x l ih =>
    rw [findIdx, h x List.mem_cons_self]
    exact ih (fun y hy => h y (List.mem_cons_of_mem x hy)) (i + 1)

/-- Only partials merge (R656): any other packet takes its place at the end. -/
theorem pushFifo_of_typ_ne {k : Pkt} (h : k.typ ≠ 6) (s : State) (n : Nat) : pushFifo s n k = s.setFifo n (s.fifo n ++ [k]) := by
  have hnone : findIdx (fun w => mergeable w k) (s.fifo n) 0 = none :=
    findIdx_eq_none (fun w _ => by simp [mergeable, partners, h]) 0
  rw [pushFifo, hnone]

theorem pushAll_cons (s : State) (b : Nat × Pkt) (bs : List (Nat × Pkt)) :
    pushAll s (b :: bs) = pushAll (pushFifo s b.1 b.2) bs := rfl

/-- Packets that do not merge change the contents of FIFOs only. -/
theorem pushAll_frame {bs : List (Nat × Pkt)} (h : ∀ b ∈ bs, b.2.typ ≠ 6) (s : State) :
    ∃ fs, pushAll s bs = { s with net := { s.net with fifos := fs } } := by
  induction bs generalizing s with
  | nil => exact ⟨_, rfl⟩
  | cons b bs ih =>
    obtain ⟨hb, hbs⟩ := List.forall_mem_cons.mp h
    rw [pushAll_cons, pushFifo_of_typ_ne hb]
    obtain ⟨fs, hfs⟩ := ih hbs (s.setFifo b.1 (s.fifo b.1 ++ [b.2]))
    exact ⟨fs, hfs⟩

/-- Packets that do not merge are appended to their FIFOs in their order. -/
theorem fifo_pushAll {bs : List (Nat × Pkt)} (h : ∀ b ∈ bs, b.2.typ ≠ 6) (s : State) (m : Nat) :
    (pushAll s bs).fifo m = s.fifo m ++ (bs.filter (fun b => b.1 = m)).map (·.2) := by
  induction bs generalizing s with
  | nil => simp [pushAll]
  | cons b bs ih =>
    obtain ⟨hb, hbs⟩ := List.forall_mem_cons.mp h
    rw [pushAll_cons, pushFifo_of_typ_ne hb, ih hbs, State.fifo_setFifo]
    by_cases hm : b.1 = m
    · simp [hm]
    · simp [hm, Ne.symm hm]

/-- The only pair of a key in a list of pairs of distinct keys. -/
theorem filter_key_eq_singleton {α : Type} {bs : List (Nat × α)} (hn : (bs.map (·.1)).Nodup) {b : Nat × α} (hb : b ∈ bs) :
    bs.filter (fun x => x.1 = b.1) = [b] := by
  induction bs with
  | nil => cases hb
  | cons x bs ih =>
    obtain ⟨hx, hn⟩ := List.nodup_cons.mp hn
    have hne : ∀ y ∈ bs, x.1 ≠ y.1 := fun y hy e => hx (List.mem_map.mpr ⟨y, hy, e.symm⟩)
    rcases List.mem_cons.mp hb with rfl | hb
    · simpa using fun a v hy => (hne (a, v) hy).symm
    · simp [hne b hb, ih hn hb]

/-! ## The branches of a packet (R662) -/

theorem setInsert_pairwise_lt {l : List Nat} (h : l.Pairwise (· < ·)) (n : Nat) : (setInsert l n).Pairwise (· < ·) := by
  induction l with
  | nil => simp [setInsert]
  | cons k l ih =>
    obtain ⟨hk, hl⟩ := List.pairwise_cons.mp h
    simp only [setInsert]
    split
    case isTrue hlt => exact List.pairwise_cons.mpr ⟨List.forall_mem_cons.mpr ⟨hlt, fun m hm => Nat.lt_trans hlt (hk m hm)⟩, h⟩
    case isFalse hge =>
      split
      case isTrue => exact h
      case isFalse hne =>
        refine List.pairwise_cons.mpr ⟨fun m hm => ?_, ih hl⟩
        rcases (mem_setInsert l n m).mp hm with rfl | hm
        · omega
        · exact hk m hm

theorem foldl_setInsert_nodup (ns : List Nat) : (ns.foldl setInsert []).Nodup := by
  have h : (ns.foldl setInsert []).Pairwise (· < ·) :=
    List.foldlRecOn ns setInsert List.Pairwise.nil (fun _ hl n _ => setInsert_pairwise_lt hl n)
  exact h.imp Nat.ne_of_lt

theorem branches_nodup (s : State) (node : RNode) (k : Pkt) : ((branches s node k).map (·.1)).Nodup := by
  unfold branches
  split
  · simpa [Function.comp_def] using foldl_setInsert_nodup _
  · simp only [List.map_cons, List.map_nil, List.nodup_cons, List.not_mem_nil, not_false_eq_true, List.nodup_nil, and_self]

theorem branches_typ {s : State} {node : RNode} {k : Pkt} {b : Nat × Pkt} (h : b ∈ branches s node k) : b.2.typ = k.typ := by
  unfold branches at h
  split at h
  · obtain ⟨n, -, rfl⟩ := List.mem_map.mp h
    rfl
  · rw [List.mem_singleton.mp h]

/-! ## A router accepts a multicast packet (R664) -/

theorem fifo_noteServed (n m : Nat) (bs : List (Nat × Pkt)) (s : State) : (noteServed n bs s).fifo m = s.fifo m := rfl

/-- A table in which every listed key gets the same entry. -/
theorem mapFind_foldl_mapSet {α β : Type} (bs : List (Nat × α)) (x : β) (m : Map β) (j : Nat) :
    mapFind (bs.foldl (fun m b => mapSet m b.1 x) m) j = if ∃ b ∈ bs, b.1 = j then some x else mapFind m j := by
  induction bs generalizing m with
  | nil => simp
  | cons b bs ih =>
    rw [List.foldl_cons, ih, mapFind_mapSet]
    by_cases hb : b.1 = j
    · simp [hb]
    · simp only [Ne.symm hb, if_false, List.mem_cons, exists_eq_or_imp, hb, false_or]

/-- Each output that the packet enters has admitted its input last. -/
theorem served_noteServed {n : Nat} {bs : List (Nat × Pkt)} {b : Nat × Pkt} (hb : b ∈ bs) (s : State) :
    mapFind (noteServed n bs s).net.served b.1 = some n :=
  (mapFind_foldl_mapSet bs n _ b.1).trans (if_pos ⟨b, hb, rfl⟩)

/-- The state after a router has accepted the packet at the head of FIFO n into branches bs. -/
def branched (n : Nat) (bs : List (Nat × Pkt)) (s : State) : State := pushAll (noteServed n bs (popFifo s n)) bs

theorem countBad_none (k : Pkt) (s : State) (n : Nat) : countBad s n (badCount k 0) = s := by
  simp [countBad, badCount]

theorem poisonFlits_none (k : Pkt) : poisonFlits k 0 = k := rfl

/-- A multicast packet enters its branches where each has room and its input is next, or waits. -/
theorem exec_mcastPacketAccept {s : State} {n : Nat} {k : Pkt} {ks : List Pkt} {node : RNode} (hon : s.on = true)
    (hf : s.fifo n = k :: ks) (ht : takenBy n = some node) (hturn : itsTurn s n = true) (htyp : k.typ = 5) :
    exec (.mcastPacketAccept n) s =
      .next (if (branches s node k).all (mcastRoom s) && admitsInput s n (branches s node k) then branched n (branches s node k) s
        else s) := by
  have hmove : movePacket s n k 0 = if (branches s node k).all (mcastRoom s) && admitsInput s n (branches s node k) then
      some (branched n (branches s node k) s) else none := by
    simp only [movePacket, ht, poisonFlits_none, countBad_none, mayPlace, htyp, if_true, branched]
  have hexec : exec (.mcastPacketAccept n) s = .next ((movePacket s n k 0).getD s) := by
    show execMcastPacketAccept n s = _
    simp [execMcastPacketAccept, hf, ht, hon, hturn, htyp]
  rw [hexec, hmove]
  split
  · rfl
  · rfl

section
variable {s : State} {n : Nat} {bs : List (Nat × Pkt)} (hbs : ∀ b ∈ bs, b.2.typ ≠ 6)
include hbs

theorem branched_frame : NetFrame s (branched n bs s) := by
  obtain ⟨fs, hfs⟩ := pushAll_frame hbs (noteServed n bs (popFifo s n))
  exact ((popFifo_frame s n).trans ⟨_, rfl⟩).trans ⟨_, hfs⟩

theorem served_branched {b : Nat × Pkt} (hb : b ∈ bs) : mapFind (branched n bs s).net.served b.1 = some n := by
  obtain ⟨fs, hfs⟩ := pushAll_frame hbs (noteServed n bs (popFifo s n))
  rw [branched, hfs]
  exact served_noteServed hb _

theorem fifo_branched (m : Nat) :
    (branched n bs s).fifo m = (popFifo s n).fifo m ++ (bs.filter (fun b => b.1 = m)).map (·.2) := by
  rw [branched, fifo_pushAll hbs, fifo_noteServed]

/-- A FIFO that is no branch gains nothing. -/
theorem fifo_branched_of_not_branch {m : Nat} (hm : ∀ b ∈ bs, b.1 ≠ m) : (branched n bs s).fifo m = (popFifo s n).fifo m := by
  have hnone : bs.filter (fun b => b.1 = m) = [] := List.filter_eq_nil_iff.mpr (by simpa using hm)
  rw [fifo_branched hbs, hnone, List.map_nil, List.append_nil]

/-- Each branch gains its copy. -/
theorem fifo_branched_of_mem (hn : (bs.map (·.1)).Nodup) {b : Nat × Pkt} (hb : b ∈ bs) (hne : b.1 ≠ n) :
    (branched n bs s).fifo b.1 = s.fifo b.1 ++ [b.2] := by
  rw [fifo_branched hbs, filter_key_eq_singleton hn hb, fifo_popFifo, if_neg hne]
  rfl

end

/-! ## A partial at its reduction node (R660, R1094, R1096) -/

/-- The state once a partial has left its FIFO and its acknowledgements have set out. -/
def received (c : Nat) (k : Pkt) (s : State) : State := ackSources (popFifo s (nodeFifo c)) c k

theorem exec_reductionPartialArrival {s : State} {c : Nat} {k : Pkt} {ks : List Pkt} (hon : s.on = true)
    (hf : s.fifo (nodeFifo c) = k :: ks) (hturn : itsTurn s (nodeFifo c) = true) :
    exec (.reductionPartialArrival c) s = .next (takePartial c k (received c k s)) := by
  show execReductionPartialArrival c s = _
  simp [execReductionPartialArrival, hf, hon, hturn, received]

theorem received_frame (c : Nat) (k : Pkt) (s : State) : NetFrame s (received c k s) := by
  unfold received ackSources
  split
  · exact (popFifo_frame s _).trans (pushPort_frame _ _ _)
  · exact popFifo_frame s _

/-- The FIFO of a node lies in its cluster's router, below every router port. -/
theorem nodeFifo_lt_nodePort {c : Nat} (hc : c < 256) : nodeFifo c < nodePort c 2 := by
  simp only [nodeFifo, fifoNum, nodePort]
  omega

theorem nodePort_lt_recordPort {c : Nat} (hc : c < 256) (source : Nat) : nodePort c 2 < recordPort source := by
  have h := recordPort_ge source
  simp only [nodePort]
  omega

theorem fifo_received {c : Nat} (hc : c < 256) (k : Pkt) (s : State) :
    (received c k s).fifo (nodeFifo c) = (s.fifo (nodeFifo c)).drop 1 ∧
      (received c k s).fifo (nodePort c 2) =
        s.fifo (nodePort c 2) ++ (if k.last then k.targets.map (ackPkt k .node c k.destIndex) else []) := by
  have hne : nodeFifo c ≠ nodePort c 2 := Nat.ne_of_lt (nodeFifo_lt_nodePort hc)
  unfold received ackSources
  split
  · simp only [fifo_pushPort, fifo_popFifo, if_neg hne, if_neg hne.symm, if_true, and_self]
  · simp only [fifo_popFifo, if_neg hne.symm, if_true, List.append_nil, and_self]

theorem memc_poison_memcPoison (s : State) : (memcPoison s).memc.poison = s.memc.poison.add 1 := by
  simp [memcPoison, memcEvent, memcCount]

theorem fifo_memcPoison {m : Nat} (s : State) (h : m ≠ recordPort (hubSource 0)) : (memcPoison s).fifo m = s.fifo m :=
  fifo_logEventIf _ _ _ _ _ _ _ h

/-- The end of a launch whose partial is poisoned (log entry 83). -/
def partialPoisons (c id : Nat) (s : State) : State := stopLaunch id 0x301 (logEvent 1 c 0 0 (memcPoison s))

/-- A partial of the running launch is combined by its node. -/
def partialCombined (c : Nat) (k : Pkt) (s : State) : State :=
  s.modCluster c (fun x => { x with node := mapModify {} x.node k.destIndex (fun t => absorbPartial t (k.srcCluster != c) k) })

/-- What a node does with a partial while a launch runs on its cluster. -/
theorem takePartial_eq {s : State} {c id : Nat} (k : Pkt) (hl : (s.cluster c).launch = some id) :
    takePartial c k s =
      if id % 65536 ≠ k.launch then s else if k.bad then partialPoisons c id s else partialCombined c k s := by
  simp only [takePartial, hl, bne_iff_ne]
  rfl

section
variable (c id : Nat) (k : Pkt) (s : State)

theorem partialPoisons_mem : (partialPoisons c id s).mem = s.mem := by simp [partialPoisons]

theorem partialPoisons_memc : (partialPoisons c id s).memc.poison = s.memc.poison.add 1 := by
  simp [partialPoisons, memc_poison_memcPoison]

theorem cluster_partialPoisons (d : Nat) : (partialPoisons c id s).cluster d = s.cluster d := by
  simp [State.cluster, partialPoisons]

theorem fifo_partialPoisons {m : Nat} (h : ∀ source, m ≠ recordPort source) : (partialPoisons c id s).fifo m = s.fifo m :=
  (fifo_logEventIf _ _ _ _ _ _ _ (h c)).trans (fifo_memcPoison s (h _))

theorem launch_partialPoisons {ln : Launch} (h : s.launch id = some ln) (hp : ln.phase = .running) (hs : ln.status = 0) :
    (partialPoisons c id s).launch id = some { ln with phase := .ended, status := 0x301 } := by
  have hsame : (logEvent 1 c 0 0 (memcPoison s)).launch id = some ln := by simpa [State.launch] using h
  rw [partialPoisons, launch_stopLaunch, hsame, Option.map_some, if_pos rfl, Launch.stop_running _ hp hs]

theorem cluster_partialCombined :
    (partialCombined c k s).cluster c =
      { s.cluster c with node := mapModify {} (s.cluster c).node k.destIndex (fun t => absorbPartial t (k.srcCluster != c) k) } :=
  s.cluster_modCluster_self c _

theorem nodeTile_partialCombined (j : Nat) :
    nodeTile ((partialCombined c k s).cluster c) j =
      if j = k.destIndex then absorbPartial (nodeTile (s.cluster c) k.destIndex) (k.srcCluster != c) k
      else nodeTile (s.cluster c) j := by
  rw [cluster_partialCombined]
  simp only [nodeTile, mapGet_mapModify]

end

/-- Whatever a node does with a partial, memory, the other clusters and every FIFO but those of records stand. -/
theorem takePartial_frame {s : State} {c id : Nat} (k : Pkt) (hl : (s.cluster c).launch = some id) :
    (takePartial c k s).mem = s.mem ∧ (∀ d, d ≠ c → (takePartial c k s).cluster d = s.cluster d) ∧
      ∀ m, (∀ source, m ≠ recordPort source) → (takePartial c k s).fifo m = s.fifo m := by
  rw [takePartial_eq k hl]
  split
  · exact ⟨rfl, fun _ _ => rfl, fun _ _ => rfl⟩
  split
  · exact ⟨partialPoisons_mem c id s, fun d _ => cluster_partialPoisons c id s d, fun _ h => fifo_partialPoisons c id s h⟩
  · exact ⟨rfl, fun d hd => s.cluster_modCluster_ne _ hd, fun _ _ => rfl⟩

/-! ## The statement -/

/-- Settles O45: the branches of a packet are distinct FIFOs, each of which gains its copy; a partial that has left its FIFO
is dropped, ends its launch or changes one tile of its node. -/
theorem multicastsBranchAndPartialsCombine : Obligations.MulticastsBranchAndPartialsCombine := by
  intro s hon
  refine ⟨?multicast, ?arrival⟩
  case multicast =>
    rintro n k ks node bs hf ht hturn htyp rfl
    have hexec := exec_mcastPacketAccept hon hf ht hturn htyp
    have htyps : ∀ b ∈ branches s node k, b.2.typ ≠ 6 := fun b hb => by rw [branches_typ hb, htyp]; decide
    refine ⟨fun hroom => by simpa [hroom] using hexec, fun hadmit => by simpa [hadmit] using hexec,
      fun hroom hadmit hne => ?_⟩
    have hframe : NetFrame s (branched n (branches s node k) s) := branched_frame htyps
    refine ⟨branched n (branches s node k) s, by simpa [hroom, hadmit] using hexec,
      ?frame, ?head, ?branch, ?other, hframe.cluster⟩
    case frame =>
      obtain ⟨x, hx⟩ := hframe
      rw [hx]
    case head =>
      rw [fifo_branched_of_not_branch htyps (fun b hb => (hne b hb).1), fifo_popFifo, if_pos rfl, hf, List.drop_one, List.tail_cons]
    case branch =>
      exact fun b hb => ⟨fifo_branched_of_mem htyps (branches_nodup s node k) hb (hne b hb).1, served_branched htyps hb⟩
    case other =>
      intro m hm hbranch _
      rw [fifo_branched_of_not_branch htyps hbranch, fifo_popFifo, if_neg hm]
  case arrival =>
    intro c k ks id hf hturn hrun hc
    have hr := received_frame c k s
    have hl : ((received c k s).cluster c).launch = some id := by rw [hr.cluster, hrun]
    obtain ⟨hmem, hclusters, hfifo⟩ := takePartial_frame k hl
    obtain ⟨hleft, hacks⟩ := fifo_received hc k s
    have hport (source : Nat) := nodePort_lt_recordPort hc source
    have hnode := nodeFifo_lt_nodePort hc
    have heq := takePartial_eq k hl
    refine ⟨_, exec_reductionPartialArrival hon hf hturn, ?_, ?_, ?_, ?_, ?other, ?combined, ?poisoned⟩
    · rw [hfifo _ (fun source => Nat.ne_of_lt (Nat.lt_trans hnode (hport source))), hleft, hf, List.drop_one, List.tail_cons]
    · obtain ⟨x, hx⟩ := hr
      rw [hmem, hx]
    · exact fun d hd => (hclusters d hd).trans (hr.cluster d)
    · rw [hfifo _ (fun source => Nat.ne_of_lt (hport source)), hacks]
    case other =>
      intro hid
      rw [heq, if_pos hid]
      obtain ⟨x, hx⟩ := hr
      rw [hx]
      exact ⟨rfl, rfl⟩
    case combined =>
      intro hid hgood
      have htile := nodeTile_partialCombined c k (received c k s)
      rw [heq, if_neg (not_not_intro hid), hgood, if_neg Bool.false_ne_true]
      rw [hr.cluster] at htile
      refine ⟨?_, ?_, (htile _).trans (if_pos rfl), fun j hj => (htile j).trans (if_neg hj)⟩
      · obtain ⟨x, hx⟩ := hr
        rw [hx]
        rfl
      · rw [cluster_partialCombined, hr.cluster]
    case poisoned =>
      intro hid hbad
      rw [heq, if_neg (not_not_intro hid), if_pos hbad]
      refine ⟨?_, ?_, fun ln h hp hs => ?_⟩
      · rw [cluster_partialPoisons, hr.cluster]
      · obtain ⟨x, hx⟩ := hr
        rw [partialPoisons_memc, hx]
      · exact launch_partialPoisons c id _ (by rw [hr.launch, h]) hp hs

end Sys2Proof.Machine
end

section
/-! PROOFS. BARRIER_POLL, BARRIER_TIMEOUT, DIGEST_PACKET and DIGEST_TIMEOUT: what setting out through the Silk egress, ending a
launch and changing its group leave alone, and the comparison of the only digest sent with the only one received. -/

namespace Sys2Proof.Machine

/-! ## Rules of the shared operations -/

theorem needs_of_true {b : Bool} (t s : State) (h : b = true) : needs b t s = .next t := if_pos h

theorem needs_of_false {b : Bool} (t s : State) (h : b = false) : needs b t s = .next s := by simp [needs, h]

theorem PortFrame.launch {s t : State} (h : PortFrame s t) (id : Nat) : t.launch id = s.launch id := by
  obtain ⟨_, _, rfl⟩ := h
  rfl

theorem openTxn_frame {x : Txn} {s : State} {y : Txn × State} (h : openTxn x s = some y) : PortFrame s y.2 := by
  unfold openTxn at h
  split at h
  case isTrue => exact absurd h (by simp)
  case isFalse =>
    split at h
    case h_1 =>
      cases h
      exact ⟨_, _, rfl⟩
    case h_2 => exact absurd h (by simp)

/-- A transaction of a hub unit sets out: only the SILK block and the outputs can differ. -/
theorem issueTxn_frame {x : Txn} {s u : State} (h : issueTxn x s = some u) : PortFrame s u := by
  unfold issueTxn at h
  split at h
  case h_1 y v hy =>
    cases h
    exact (openTxn_frame hy).trans (.foldl _ (fun s k => emitSilk_frame _ k s) _ _)
  case h_2 => exact absurd h (by simp)

theorem launch_setGroup {s : State} {id : Nat} {ln : Launch} (g : Group) (h : s.launch id = some ln) :
    (setGroup id g s).launch id = some { ln with group := some g } := by
  rw [setGroup, State.launch_modLaunch]
  · rw [h, Option.map_some, if_pos rfl]
  · exact fun _ => rfl

theorem launch_stopLaunch_running {s : State} {id : Nat} {ln : Launch} (st : Nat) (h : s.launch id = some ln)
    (hp : ln.phase = .running) (hs : ln.status = 0) :
    (stopLaunch id st s).launch id = some { ln with phase := .ended, status := st } := by
  rw [launch_stopLaunch, h, Option.map_some, if_pos rfl, Launch.stop_running st hp hs]

/-- A record that sets out joins the packets at the port of its source, and no other queue changes. -/
theorem logEvent_reported (kind source wher detail : Nat) (s : State) :
    Reported s (logEvent kind source wher detail s) source [eventOf kind source wher detail] :=
  ⟨mapGet_mapSet_self _ _ _ _, fun m hm => fifo_logEventIf _ _ _ _ _ m s hm⟩

/-! ## The commands on a launch of a group -/

/-- The group after a digest of the partner has arrived. -/
def Group.arrived (g : Group) (seq : Nat) (digest : List Byte) : Group := { g with received := g.received ++ [(seq, digest)] }

/-- The group with no digest left to compare. -/
def Group.settled (g : Group) : Group := { g with sent := [], received := [] }

theorem Group.arrived_received {g : Group} (h : g.received = []) (seq : Nat) (digest : List Byte) :
    (g.arrived seq digest).received = [(seq, digest)] := by rw [Group.arrived, h, List.nil_append]

section
variable {s : State} {id : Nat} {ln : Launch} {g : Group}

theorem exec_barrierPoll (hon : s.on = true) (hl : s.launch id = some ln) (hg : ln.group = some g) :
    exec (.barrierPoll id) s = needs (barrierDue s ln g) (barrierAsk ln g s) s := by
  change execBarrierPoll id s = _
  simp only [execBarrierPoll, hl, hg, hon, Bool.true_and]

theorem exec_barrierTimeout (hon : s.on = true) (hl : s.launch id = some ln) (hg : ln.group = some g)
    (hp : ln.phase = .running) (hd : g.barrierDone = false) :
    exec (.barrierTimeout id) s =
      needs (decide (ln.startAt + 1000 * g.timeoutUs ≤ s.now)) (stopLaunch id 0x400 s) s := by
  change execBarrierTimeout id s = _
  simp only [execBarrierTimeout, hl, hg, hon, hp, hd, beq_self_eq_true, Bool.not_false, Bool.and_self, Bool.true_and]

theorem exec_digestTimeout (hon : s.on = true) (hl : s.launch id = some ln) (hg : ln.group = some g) (hs : g.sent ≠ [])
    (hlate : g.sentAt + 1000 * g.timeoutUs ≤ s.pace.cricket) :
    exec (.digestTimeout id) s = .next (stopLaunch id 0x400 (setGroup id g.settled s)) := by
  change execDigestTimeout id s = _
  simp only [execDigestTimeout, hl, hg]
  exact needs_of_true _ s (by simp [hon, hs, State.now, hlate])

theorem exec_digestPacket {tag seq sweep : Word} {digest : List Byte} (hon : s.on = true) (hdev : s.silk.device.isSome = true)
    (hen : s.silk.pairEnable = true) (hpair : pairLaunch s tag = some ln) (hg : ln.group = some g) :
    exec (.digestPacket s.silk.pairPartner tag seq sweep digest) s = .next (comparePair ln.id
      (setGroup ln.id (g.arrived seq.toNat digest) (peerBack s.silk.pairPartner s))) := by
  have hback : pairLaunch (peerBack s.silk.pairPartner s) tag = some ln := hpair
  change execDigestPacket s.silk.pairPartner tag seq sweep digest s = _
  simp only [execDigestPacket, hon, hdev, hen, hback, hg, decide_true, Bool.and_self, Bool.not_true, Bool.false_eq_true, if_false]
  rfl

/-- A barrier is due only while its launch runs. -/
theorem running_of_barrierDue (h : barrierDue s ln g = true) : ln.phase = .running := by
  simp only [barrierDue, Bool.and_eq_true, beq_iff_eq] at h
  obtain ⟨⟨⟨⟨hp, _⟩, _⟩, _⟩, _⟩ := h
  exact hp

theorem barrierAsk_local (h : s.silk.device = some (barrierTxn ln g).device) :
    barrierAsk ln g s = barrierLocal ln.id (barrierTxn ln g) s := if_pos h

theorem barrierAsk_issued {u : State} (h : s.silk.device ≠ some (barrierTxn ln g).device) (hu : issueTxn (barrierTxn ln g) s = some u) :
    barrierAsk ln g s = setGroup ln.id { g with asked := true } u := by
  simp only [barrierAsk, if_neg h, hu]

theorem barrierAsk_lost (h : s.silk.device ≠ some (barrierTxn ln g).device) (hu : issueTxn (barrierTxn ln g) s = none) :
    barrierAsk ln g s = stopLaunch ln.id 0x400 s := by
  simp only [barrierAsk, if_neg h, hu]

end

/-! ## The comparison of a pair -/

/-- The only digests of a group have been compared and are gone. -/
def pairSettled (id : Nat) (g : Group) (s : State) : State :=
  let t := setGroup id g.settled s
  { t with silk := { t.silk with pairCompared := t.silk.pairCompared + 1 } }

/-- The digests of a pair differ (R769). -/
def pairDiffers (id : Nat) (s : State) : State :=
  stopLaunch id 0x403 (logEvent 12 (hubSource 0) 0 s.silk.pairPartner
    (silkEvent 6 { s with silk := { s.silk with pairMismatch := true } }))

/-- The only digest sent is compared with the only one received, of the same SEQ. -/
theorem comparePair_single {s : State} {id seq : Nat} {ln : Launch} {g : Group} {own digest : List Byte}
    (hl : s.launch id = some ln) (hg : ln.group = some g) (hs : g.sent = [(seq, own)]) (hr : g.received = [(seq, digest)]) :
    comparePair id s = if digest = own then pairSettled id g s else pairDiffers id (pairSettled id g s) := by
  simp only [comparePair, hl, Option.bind_some, hg, hs, hr]
  simp only [List.any_cons, List.any_nil, Bool.or_false, decide_true, List.find?_cons_of_pos, Option.map_some, Option.getD_some,
    List.filter_cons, List.filter_nil, bne_self_eq_false, Bool.false_eq_true, if_false]
  rfl

theorem launch_pairSettled {s : State} {id : Nat} {ln : Launch} (g : Group) (h : s.launch id = some ln) :
    (pairSettled id g s).launch id = some { ln with group := some g.settled } :=
  launch_setGroup _ h

/-- A pair whose digests differ: the launch has ended, MISMATCH and its event are set, and one record sets out. -/
theorem pairDiffers_effect {s : State} {id : Nat} {ln : Launch} (h : s.launch id = some ln) (hp : ln.phase = .running)
    (hs : ln.status = 0) :
    (pairDiffers id s).launch id = some { ln with phase := .ended, status := 0x403 } ∧
      (pairDiffers id s).silk = { s.silk with pairMismatch := true, events := raise s.silk.events 6 } ∧
      Reported s (pairDiffers id s) (hubSource 0) [eventOf 12 (hubSource 0) 0 s.silk.pairPartner] := by
  refine ⟨launch_stopLaunch_running _ ?_ hp hs, rfl, ?_⟩
  · exact h
  · exact logEvent_reported 12 (hubSource 0) 0 s.silk.pairPartner _

/-! ## The statement -/

/-- Settles O52: a request of the barrier that sets out changes only the SILK block and its group, the timeouts end the launch, and
one digest sent and one received of its SEQ settle the pair by comparePair_single. -/
theorem barriersPollAndPairsCompare : Obligations.BarriersPollAndPairsCompare := by
  intro s id ln g hpower hl hg hstatus
  have hon : s.on = true := by simp [State.on, hpower]
  have hid : ln.id = id := State.id_of_launch hl
  have hpoll := exec_barrierPoll hon hl hg
  refine ⟨?remote, ?device, ?notDue, ?timeout, ?digest, ?digestTimeout⟩
  case remote =>
    rintro dev hdue rfl hdev
    have hask := hpoll.trans (needs_of_true _ s hdue)
    refine ⟨fun u hu => ?_, fun hlost => ?_⟩
    · have hframe := issueTxn_frame hu
      rw [barrierAsk_issued hdev hu, hid] at hask
      exact ⟨_, hask, launch_setGroup _ ((hframe.launch id).trans hl), rfl, hframe.mem⟩
    · rw [barrierAsk_lost hdev hlost, hid] at hask
      exact ⟨_, hask, launch_stopLaunch_running _ hl (running_of_barrierDue hdue) hstatus, stopLaunch_silk s id _⟩
  case device =>
    intro hdue hdev
    rw [hpoll, needs_of_true _ s hdue, barrierAsk_local hdev]
  case notDue =>
    intro hdue
    rw [hpoll, needs_of_false _ s hdue]
  case timeout =>
    intro hp hdone
    rw [exec_barrierTimeout hon hl hg hp hdone]
    refine ⟨fun hlate => ?_, fun hearly => needs_of_false _ s (decide_eq_false (Nat.not_le.mpr hearly))⟩
    exact ⟨_, needs_of_true _ s (decide_eq_true hlate), launch_stopLaunch_running _ hl hp hstatus, rfl⟩
  case digest =>
    intro tag seq sweep digest own hdev hen hpair hp hreceived hsent
    have hexec := exec_digestPacket (seq := seq) (sweep := sweep) (digest := digest) hon hdev hen hpair hg
    have hback : (peerBack s.silk.pairPartner s).launch id = some ln := hl
    have harrived := launch_setGroup (g.arrived seq.toNat digest) hback
    have hsettled := launch_pairSettled (g.arrived seq.toNat digest) harrived
    rw [hid, comparePair_single harrived rfl hsent (Group.arrived_received hreceived _ _)] at hexec
    by_cases heq : digest = own
    · rw [if_pos heq] at hexec
      exact ⟨_, _, hexec, hsettled, rfl, rfl, fun _ => ⟨hp, hstatus, rfl⟩, fun hne => absurd heq hne⟩
    · rw [if_neg heq] at hexec
      obtain ⟨hlaunch, hsilk, hrecord⟩ := pairDiffers_effect hsettled hp hstatus
      refine ⟨_, _, hexec, hlaunch, ?_, rfl, fun h => absurd h heq, fun _ => ⟨rfl, rfl, ?_, ?_, hrecord⟩⟩
      · rw [hsilk]; rfl
      · rw [hsilk]
      · rw [hsilk, raise_getLsbD _ _ _ (by decide)]
        simp
  case digestTimeout =>
    intro hsent hp hlate
    have hgone := launch_setGroup g.settled hl
    exact ⟨_, _, exec_digestTimeout hon hl hg hsent hlate, launch_stopLaunch_running _ hgone hp hstatus, rfl, rfl, rfl⟩

end Sys2Proof.Machine
end

section
/-! PROOFS. Host accesses through BAR0 and BAR2: a bad access and an access that is not performed touch only the host port and the
outputs; a read notes its bad words, which moves only the bad words and the orders under way. -/

namespace Sys2Proof.Machine

/-! ## What noting the bad words of a delivery may touch (R591) -/

/-- The bad words and the orders that have set out from the management processor are all that may differ. -/
def BadWordsNoted (s t : State) : Prop :=
  (∃ ws fs, t = { s with mem := { s.mem with badWords := ws }, net := { s.net with fifos := fs } }) ∧
    ∀ n, n ≠ hubPort 1 0 → t.fifo n = s.fifo n

theorem BadWordsNoted.refl (s : State) : BadWordsNoted s s := ⟨⟨_, _, rfl⟩, fun _ _ => rfl⟩

theorem BadWordsNoted.trans {s t u : State} (h : BadWordsNoted s t) (k : BadWordsNoted t u) : BadWordsNoted s u := by
  obtain ⟨⟨_, _, rfl⟩, hfifos⟩ := h
  obtain ⟨⟨_, _, rfl⟩, kfifos⟩ := k
  exact ⟨⟨_, _, rfl⟩, fun n hn => (kfifos n hn).trans (hfifos n hn)⟩

theorem BadWordsNoted.foldl {β : Type} {f : State → β → State} (hf : ∀ s b, BadWordsNoted s (f s b)) (bs : List β) (s : State) :
    BadWordsNoted s (bs.foldl f s) := by
  induction bs generalizing s with
  | nil => exact .refl s
  | cons b bs ih => exact (hf s b).trans (ih _)

theorem BadWordsNoted.badWords (s : State) (ws : List BadWord) :
    BadWordsNoted s { s with mem := { s.mem with badWords := ws } } := ⟨⟨_, _, rfl⟩, fun _ _ => rfl⟩

theorem sendOrder_badWordsNoted (c : Nat) (o : Order) (s : State) : BadWordsNoted s (sendOrder c o s) :=
  ⟨⟨_, _, rfl⟩, fun n hn => (State.fifo_setFifo s (hubPort 1 0) n _).trans (if_neg hn)⟩

theorem twiceOrder_badWordsNoted (s : State) (place : Nat) : BadWordsNoted s (twiceOrder s place) := by
  unfold twiceOrder
  split
  · exact sendOrder_badWordsNoted _ _ s
  · exact sendOrder_badWordsNoted _ _ s
  · exact .refl s

theorem noteBad_badWordsNoted (id : Nat) (s : State) (place : Nat) : BadWordsNoted s (noteBad id s place) := by
  unfold noteBad
  split
  · exact .refl s
  · split
    · exact .badWords s _
    · split
      · exact (BadWordsNoted.badWords s _).trans (twiceOrder_badWordsNoted _ place)
      · exact .refl s

theorem noteDelivered_badWordsNoted (a n : Nat) (s : State) : BadWordsNoted s (noteDelivered a n s) :=
  BadWordsNoted.foldl (fun u (l : Launch) => BadWordsNoted.foldl (noteBad_badWordsNoted l.id) _ u) _ s

/-! ## The commands of the host (R792, R795 to R797) -/

theorem host_of_link {s : State} (hpower : s.board.power = .good) (hlink : s.hostp.linkUp = true) : s.host = true := by
  simp only [State.host, State.on, hpower, hlink, beq_self_eq_true, Bool.and_self]

theorem goodAccess_iff (a size : Nat) : goodAccess a size = true ↔ (size = 4 ∨ size = 8) ∧ a % size = 0 := by
  simp only [goodAccess, Bool.and_eq_true, Bool.or_eq_true, decide_eq_true_eq]

section
variable {s : State} {off : Nat} (hh : s.host = true)
include hh

theorem exec_bar0BadAccess {size : Nat} (write : Bool) (hbad : goodAccess off size = false) :
    exec (.bar0BadAccess write off size) s = .next (badAccess write off size s) :=
  needs_of_true _ s (by simp only [hh, hbad, Bool.not_false, Bool.and_self])

theorem exec_apertureRead {size : Nat} (hsize : 0 < size) (hfits : off + size ≤ s.hostp.bar2Size) :
    exec (.apertureRead off size) s = .next (apertureRead (s.hostp.aperture.toNat + off) size s) :=
  needs_of_true _ s (by simp only [hh, decide_eq_true hsize, decide_eq_true hfits, Bool.and_self])

theorem exec_apertureWrite {data : List Byte} (poisoned : Bool) (hdata : data ≠ []) (hfits : off + data.length ≤ s.hostp.bar2Size) :
    exec (.apertureWrite off data poisoned) s = .next (apertureWrite (s.hostp.aperture.toNat + off) data poisoned s) :=
  needs_of_true _ s (by simp only [hh, List.isEmpty_eq_false_iff.mpr hdata, decide_eq_true hfits, Bool.not_false, Bool.and_self])

end

/-- POISON_OUT of HOSTP_EVENTS is set if a poisoned TLP is sent (R796). -/
def poisonOut (p : Bool) (s : State) : State :=
  { s with hostp := { s.hostp with events := if p then s.hostp.events ||| 8#32 else s.hostp.events } }

theorem poisonOut_false (s : State) : poisonOut false s = s := rfl

theorem poisonOut_true (s : State) : poisonOut true s = hostEvent 3 s := rfl

/-- Whether a place is open does not depend on the host port. -/
theorem apertureOpen_hostEvent (b : Nat) (s : State) (a n : Nat) : apertureOpen (hostEvent b s) a n = apertureOpen s a n := rfl

section
variable {s : State} {a n : Nat}

/-- A read of an open range delivers its words: POISON_OUT with a poisoned one, and its bad words are noted. -/
theorem apertureRead_open {ts : List Tagged} (hopen : apertureOpen s a n = true) (hread : physRead s a n = some ts) :
    apertureRead a n s = (noteDelivered a n (poisonOut (anyPoison ts) s)).emit (.readData (plain ts) (anyPoison ts)) := by
  rw [apertureRead, hopen, if_neg (by decide), hread]
  cases hp : anyPoison ts
  case false => simp only [hp, poisonOut_false, Bool.false_eq_true, if_false]
  case true => simp only [hp, poisonOut_true, if_true]

theorem apertureRead_closed (hopen : apertureOpen s a n = false) : apertureRead a n s = apertureAbort false a s := by
  rw [apertureRead, hopen, if_pos (by decide)]

theorem apertureWrite_open {data : List Byte} (hopen : apertureOpen s a data.length = true) :
    apertureWrite a data false s = physWrite s a (tagged data false) := by
  simp only [apertureWrite, Bool.false_eq_true, if_false, hopen, if_true]

/-- A write that is not performed: POISON_IN if its TLP was poisoned, then the abort. -/
theorem apertureWrite_closed {data : List Byte} (poisoned : Bool) (hopen : apertureOpen s a data.length = false) :
    apertureWrite a data poisoned s = apertureAbort true a (if poisoned then hostEvent 4 s else s) := by
  cases poisoned
  case false => simp only [apertureWrite, Bool.false_eq_true, if_false, hopen]
  case true => simp only [apertureWrite, if_true, apertureOpen_hostEvent, hopen, Bool.false_eq_true, if_false]

end

/-- A write that is not performed is logged through AER and sets APERTURE_ABORT, and nothing outside the host port changes. -/
theorem apertureAbort_write (a : Nat) (s : State) :
    apertureAbort true a s = { s with hostp := (apertureAbort true a s).hostp } ∧
      (apertureAbort true a s).hostp.aer = s.hostp.aer ++ [.apertureAbort true a] ∧
      (apertureAbort true a s).hostp.events.getLsbD 2 = true :=
  ⟨rfl, rfl, (raise_getLsbD s.hostp.events 2 2 (by decide)).trans (by rw [decide_eq_true rfl, Bool.or_true])⟩

/-- A read of an open range changes the events of the host port, the outputs and what noting its bad words may touch. -/
theorem apertureRead_open_frame {s t : State} {a n : Nat} {ts : List Tagged} (hopen : apertureOpen s a n = true)
    (hread : physRead s a n = some ts) (ht : t = apertureRead a n s) :
    t = { poisonOut (anyPoison ts) s with
            out := s.out ++ [.readData (plain ts) (anyPoison ts)]
            mem := { s.mem with badWords := t.mem.badWords }, net := { s.net with fifos := t.net.fifos } } ∧
      ∀ m, m ≠ hubPort 1 0 → t.fifo m = s.fifo m := by
  obtain ⟨⟨ws, fs, hframe⟩, hfifos⟩ := noteDelivered_badWordsNoted a n (poisonOut (anyPoison ts) s)
  rw [hframe] at hfifos
  rw [apertureRead_open hopen hread, hframe] at ht
  subst ht
  exact ⟨rfl, hfifos⟩

/-- Settles O4: each access comes to one of the rules above, by whether its size, or its range, is good. -/
theorem hostAccessesReachWhatTheyName : Obligations.HostAccessesReachWhatTheyName := by
  refine ⟨fun s off size hpower hlink hbad => ?bar0, fun s off hpower hlink => ?bar2⟩
  case bar0 =>
    have hexec := fun write => exec_bar0BadAccess (host_of_link hpower hlink) write
      (Bool.eq_false_iff.mpr (mt (goodAccess_iff off size).mp hbad))
    exact ⟨hexec false, hexec true⟩
  case bar2 =>
    have hh := host_of_link hpower hlink
    refine ⟨fun size ts hsize hfits hopen hread => ?readOpen, fun size hsize hfits hopen => ?readClosed,
      fun data hdata hfits hopen => ?writeOpen, fun data poisoned hdata hfits hopen => ?writeClosed⟩
    case readOpen => exact ⟨_, exec_apertureRead hh hsize hfits, apertureRead_open_frame hopen hread rfl⟩
    case readClosed =>
      rw [exec_apertureRead hh hsize hfits, apertureRead_closed hopen]
      rfl
    case writeOpen =>
      rw [exec_apertureWrite hh false hdata hfits, apertureWrite_open hopen]
      rfl
    case writeClosed =>
      refine ⟨_, exec_apertureWrite hh poisoned hdata hfits, ?_⟩
      rw [apertureWrite_closed poisoned hopen]
      cases poisoned
      · exact apertureAbort_write _ s
      · exact apertureAbort_write _ (hostEvent 4 s)

end Sys2Proof.Machine
end

section
/-! PROOFS. QUEUE_ENABLE of an entry whose reserved bits [15:12] beside the ASID are not zero. -/

namespace Sys2Proof.Machine

/-! ## An enable that goes through (R803, R873) -/

/-- DISP_QCTL as an operation leaves it. -/
def qctlWritten (v : Word32) (s : State) : State := { s with disp := { s.disp with qctl := v &&& 0x3FFF#32 } }

/-- The word of QUEUE_ENABLE: GO, OP 1 and the number of the queue. -/
theorem enableWord_fields {q : Nat} (hq : q < 4096) : ∃ v : Word32, v = BitVec.ofNat 32 (2 ^ 31 + 2 ^ 12 + q) ∧
    v.getLsbD 31 = true ∧ bits v.toNat 12 2 = 1 ∧ bits v.toNat 0 12 = q := by
  have hnat : (BitVec.ofNat 32 (2 ^ 31 + 2 ^ 12 + q)).toNat = 2 ^ 31 + 2 ^ 12 + q := by
    rw [BitVec.toNat_ofNat]
    omega
  refine ⟨_, rfl, ?_, ?_, ?_⟩
  · rw [BitVec.getLsbD, hnat, Nat.testBit_eq_decide_div_mod_eq, decide_eq_true_eq]
    omega
  · rw [bits, hnat]
    omega
  · rw [bits, hnat]
    omega

/-- A write of GO with OP 1 enables the queue that it names. -/
theorem queueControl_enable {s : State} {v : Word32} (hgo : v.getLsbD 31 = true) (hop : bits v.toNat 12 2 = 1)
    (hready : s.mgmt.state = 2) : queueControl v s = enableQueue (bits v.toNat 0 12) (qctlWritten v s) := by
  simp only [queueControl, qctlWritten, hgo, hop, hready, Bool.not_true, bne_self_eq_false, Bool.false_eq_true, if_false, if_true]

/-- QUEUE_ENABLE at a device whose firmware runs is an enable of the queue that it names. -/
theorem exec_queueEnable {s : State} {q : Nat} (hh : s.host = true) (hq : q < 4096) (hready : s.mgmt.state = 2) :
    ∃ v, exec (.queueEnable q) s = .next (enableQueue q (qctlWritten v s)) := by
  obtain ⟨v, hv, hgo, hop, hnumber⟩ := enableWord_fields hq
  have hneeds : (s.host && decide (q < 4096)) = true := by rw [hh, decide_eq_true hq, Bool.and_self]
  refine ⟨v, (needs_of_true _ s hneeds).trans (congrArg _ ?_)⟩
  rw [← hv, queueControl_enable hgo hop hready, hnumber]

section
variable {s : State} {q : Nat} {ts : List Tagged} (hstate : (s.queue q).state = .disabled)
  (henable : s.disp.qtabBase.getLsbD 0 = true) (hsanitising : s.mgmt.sanitising = false)
  (hplace : tablePlace s (entryAddr s q) = true) (hread : physRead s (entryAddr s q) 64 = some ts)
  (hpoison : anyPoison ts = false) (hgood : entryGood (plain ts) = true)
include hstate henable hsanitising hplace hread hpoison hgood

/-- The entry of a disabled queue that reads without poison and keeps R802 is copied into the dispatcher. -/
theorem enableQueue_good : enableQueue q s = s.setQueue q (entryQueue (plain ts)) := by
  have hopen : ((s.queue q).state != .disabled || !s.disp.qtabBase.getLsbD 0 || s.mgmt.sanitising ||
      !tablePlace s (entryAddr s q)) = false := by
    simp only [hstate, henable, hsanitising, hplace, bne_self_eq_false, Bool.not_true, Bool.or_self]
  rw [enableQueue, hopen, if_neg Bool.false_ne_true, hread]
  dsimp only
  rw [hpoison, hgood, if_neg Bool.false_ne_true, if_pos rfl]

/-- The queue is the one that its entry describes: nothing that the enable looks at lies in DISP_QCTL. -/
theorem exec_queueEnable_good (hh : s.host = true) (hq : q < 4096) (hready : s.mgmt.state = 2) :
    ∃ t, exec (.queueEnable q) s = .next t ∧ t.queue q = entryQueue (plain ts) := by
  obtain ⟨v, hexec⟩ := exec_queueEnable hh hq hready
  have hcopied := enableQueue_good (s := qctlWritten v s) hstate henable hsanitising hplace hread hpoison hgood
  exact ⟨_, hexec.trans (congrArg _ hcopied), State.queue_setQueue_self _ _ _⟩

end

/-! ## The counterexample -/

/-- Entry 0 with bit 12 of its first two bytes set, above the ASID in [11:0], and two slots in each ring; it keeps R802 as
entryGood reads it. -/
def wideAsidEntry : List Tagged := untagged (pack 64 [(0, 2, 0x1000), (0x18, 4, 2), (0x1C, 4, 2)])

/-- A device at work whose queue table, at the bottom of GDDR7, starts with that entry. -/
def wideAsidTable : State :=
  { board := { power := .good }, hostp := { linkUp := true }, mgmt := { state := 2 }
    disp := { qtabBase := BitVec.ofNat 64 (Config.gddrBase + 1) }
    mem := { inited := [0]
             bytes := [(Config.gddrBase + 0x1, 0x10), (Config.gddrBase + 0x18, 2), (Config.gddrBase + 0x1C, 2)] } }

/-- The state meets what the statement asks of an enable that goes through. -/
theorem wideAsidTable_good : tablePlace wideAsidTable (entryAddr wideAsidTable 0) = true ∧
    physRead wideAsidTable (entryAddr wideAsidTable 0) 64 = some wideAsidEntry ∧ anyPoison wideAsidEntry = false ∧
    entryGood (plain wideAsidEntry) = true := by decide +kernel

/-- The dispatcher copies the twelve bits of the ASID alone. -/
theorem wideAsidEntry_asid : (entryQueue (plain wideAsidEntry)).asid = 0 ∧ fieldAt (plain wideAsidEntry) 0 2 = 0x1000 := by decide

/-- Refutes O6: an enable keeps bits [11:0] of the first two bytes of the entry as the ASID (R802), where the statement keeps all
sixteen bits, and entryGood asks nothing of the four above. Entry 0 of wideAsidTable holds 0x1000 there, and the queue gets ASID 0. -/
theorem not_doorbellsMoveTheQueues : ¬ Obligations.DoorbellsMoveTheQueues := by
  rintro ⟨-, -, hcontrol⟩
  obtain ⟨hplace, hread, hpoison, hgood⟩ := wideAsidTable_good
  obtain ⟨hcopied, hheld⟩ := wideAsidEntry_asid
  obtain ⟨hgoodEnable, -⟩ := hcontrol wideAsidTable 0 rfl rfl rfl rfl (by decide)
  obtain ⟨t, ht, -, -, hqueue⟩ := hgoodEnable wideAsidEntry rfl (by decide) hplace hread hpoison hgood
  obtain ⟨u, hu, hentry⟩ := exec_queueEnable_good rfl (by decide) rfl hplace hread hpoison hgood rfl (by decide) rfl
  obtain rfl : t = u := Host.Outcome.next.inj (ht.symm.trans hu)
  have hasid : fieldAt (plain wideAsidEntry) 0 2 = (entryQueue (plain wideAsidEntry)).asid :=
    congrArg Queue.asid (hqueue.symm.trans hentry)
  rw [hcopied, hheld] at hasid
  exact absurd hasid (by decide)

end Sys2Proof.Machine
end

section
/-! PROOFS. What the parts of a command keep, where they end well: a work of an Except, a whole outcome, an operation of an engine, of
a cluster controller, and a mailbox command. -/

namespace Sys2Proof.Machine

/-- What an operation keeps, it keeps after what came before it: Keeps.trans with its last step first. -/
theorem Keeps.after {s t u : State} (h : Keeps t u) (k : Keeps s t) : Keeps s u := k.trans h

/-! ## Works that may fail -/

/-- Where a work ends well, the state p in its answer keeps what Keeps names. -/
def OkKeeps {ε α : Type} (s : State) (p : α → State) (x : Except ε α) : Prop := ∀ a, x = .ok a → Keeps s (p a)

namespace OkKeeps
variable {ε α β : Type} {s : State} {p : α → State}

theorem ok {a : α} (h : Keeps s (p a)) : OkKeeps s p (.ok a : Except ε α) := by
  rintro _ ⟨⟩
  exact h

theorem error {e : ε} : OkKeeps s p (.error e) := by rintro _ ⟨⟩

theorem bind {x : Except ε β} {f : β → Except ε α} (h : ∀ b, x = .ok b → OkKeeps s p (f b)) : OkKeeps s p (x >>= f) := by
  intro a ha
  obtain ⟨b, hb, ha⟩ := bind_ok ha
  exact h b hb a ha

theorem ite {c : Prop} [Decidable c] {x y : Except ε α} (hx : OkKeeps s p x) (hy : OkKeeps s p y) :
    OkKeeps s p (if c then x else y) := by
  split
  · exact hx
  · exact hy

end OkKeeps

/-! ## Outcomes -/

/-- Where an outcome is a next state, that state keeps what Keeps names. -/
def NextKeeps (s : State) (o : Host.Outcome State Fault Refusal) : Prop := ∀ t, o = .next t → Keeps s t

namespace NextKeeps
variable {s : State}

theorem next {t : State} (h : Keeps s t) : NextKeeps s (.next t) := by
  rintro _ ⟨⟩
  exact h

theorem same : NextKeeps s (.next s) := next (.refl s)

theorem ite {c : Prop} [Decidable c] {o o' : Host.Outcome State Fault Refusal} (h : NextKeeps s o) (h' : NextKeeps s o') :
    NextKeeps s (if c then o else o') := by
  split
  · exact h
  · exact h'

theorem needs {c : Bool} {u : State} (hu : Keeps s u) : NextKeeps s (needs c u s) := fun _ h => needs_keeps h hu

/-- An operation of an engine: its work on one core keeps, so the work on all of them does. -/
theorem engine {c code : Nat} {e : Engine} {worst : OpWord → Nat} {f : Launch → OpWord → CoreWork}
    (hf : ∀ ln o s l, OkKeeps s id (f ln o s l)) : NextKeeps s (engineOp s c code e worst f) := fun _ h => engineOp_keeps hf h

/-- An operation of a cluster controller or a reduction node. -/
theorem control {c code : Nat} {f : Launch → OpWord → State → Except CoreStop State} (hf : ∀ ln o s, OkKeeps s id (f ln o s)) :
    NextKeeps s (controlOp s c code f) := fun _ h => controlOp_keeps hf h

/-- A mailbox command. -/
theorem mailbox {m : Nat} {want : List Byte → Bool} {c : Cmd} (hc : ∀ m b s, OkKeeps s Prod.fst (c.act m b s)) :
    NextKeeps s (serve m want c s) := fun _ h => serve_keeps hc h

end NextKeeps

/-! ## Actions of mailbox commands -/

/-- An action on a cluster of CORE_MAP. -/
theorem coreMapCmd_keeps {items : Nat} {act : Nat → Nat → Reply → State → Except Nat (State × Option (Nat × List Byte))}
    (h : ∀ c i r s, OkKeeps s Prod.fst (act c i r s)) (m : Nat) (b : List Byte) (s : State) :
    OkKeeps s Prod.fst ((coreMapCmd items act).act m b s) :=
  .bind fun _ _ => h _ _ _ _

/-- An action on a pool of frames. -/
theorem framePoolCmd_keeps {act : Nat → Nat → Nat → State → Except Nat (State × Nat)}
    (h : ∀ t a n s, OkKeeps s Prod.fst (act t a n s)) (m : Nat) (b : List Byte) (s : State) : OkKeeps s Prod.fst ((framePoolCmd act).act m b s) :=
  .bind fun _ _ => .bind fun r hr => .ok (h _ _ _ _ r hr)

/-- An action of LINK. -/
theorem linkCmd_keeps {act : Nat → Nat → Nat → State → Except Nat (State × Option (Nat × List Byte))}
    (h : ∀ u i a s, OkKeeps s Prod.fst (act u i a s)) (m : Nat) (b : List Byte) (s : State) :
    OkKeeps s Prod.fst ((linkCmd act).act m b s) :=
  .bind fun _ _ => h _ _ _ _

theorem removeFrames_keeps (t a n : Nat) (s : State) : OkKeeps s Prod.fst (removeFrames t a n s) :=
  .bind fun _ _ => .ok (State.setPool_keeps _ _ _)

theorem fwDataCmd_keeps (m : Nat) (b : List Byte) (s : State) : OkKeeps s Prod.fst (fwDataCmd.act m b s) := by
  refine .bind fun _ _ => ?_
  split
  · exact .error
  · exact .bind fun _ _ => .ok (setUpload_keeps _ s)

theorem fwCommitCmd_keeps (m : Nat) (b : List Byte) (s : State) : OkKeeps s Prod.fst (fwCommitCmd.act m b s) := by
  unfold fwCommitCmd
  dsimp only
  split
  · exact .error
  · have hstart := (setUpload_keeps none s).trans (startOp_keeps 2 3 _)
    refine .ite (.ite (.ok (hstart.trans (beginHandover_keeps _ _))) (.ok ?failed))
      (.ite (.ok ((setUpload_keeps _ s).trans (startFirmware_keeps _ _))) (.ok (setUpload_keeps _ s)))
    exact (endOp_keeps 2 false _ _).after hstart

theorem attestCmd_keeps (m : Nat) (b : List Byte) (s : State) : OkKeeps s Prod.fst (attestCmd.act m b s) :=
  .bind fun _ _ => .ok (.ite _ (.refl s) (State.setBox_keeps _ _ _))

theorem telemetryReadCmd_keeps (m : Nat) (b : List Byte) (s : State) : OkKeeps s Prod.fst (telemetryReadCmd.act m b s) := by
  unfold telemetryReadCmd
  dsimp only
  split
  · exact .ok (.refl s)
  · exact .error

end Sys2Proof.Machine
end

section
/-! PROOFS. What each command of an engine, of a cluster controller, of a run and of a launch keeps. -/

namespace Sys2Proof.Machine

variable {s : State}

/-! ## Engine operations -/

theorem execClear_keeps (c : Nat) : NextKeeps s (execClear c s) :=
  .engine fun _ _ s _ => .bind fun _ _ => .ok ((setTile_keeps _ _ _ _ s).trans (setTileSat_keeps _ _ _ _ _))

theorem execMma_keeps (c : Nat) : NextKeeps s (execMma c s) :=
  .engine fun _ _ _ _ => .bind fun _ _ => .bind fun _ _ => .bind fun _ _ => .bind fun _ _ => .bind fun _ _ =>
    .ok (setTile_keeps _ _ _ _ _)

theorem execDrain_keeps (c : Nat) : NextKeeps s (execDrain c s) :=
  .engine fun _ _ s l => .bind fun d _ => .bind fun _ _ =>
    .ok (((setTile_keeps c l _ _ s).trans (.ite _ ((setTileSat_keeps _ _ _ _ _).trans (countDrain_keeps _ _ _)) (.refl _))).trans
      (writePlane_keeps _ c l d _))

theorem execGibbs_keeps (c : Nat) : NextKeeps s (execGibbs c s) :=
  .engine fun _ _ s l => .bind fun _ _ => .bind fun d _ => .bind fun _ _ => .ite .error
    (.ok (.trans (.ite _ (coreEvent_keeps c l 0 s) (.refl s)) (writePlane_keeps _ c l d _)))

theorem execVconv_keeps (c : Nat) : NextKeeps s (execVconv c s) :=
  .engine fun _ _ _ _ => .bind fun _ _ => .bind fun _ _ => .bind fun _ _ => .bind fun _ _ => .ok (writeResult_keeps _ _ _ _ _ _ _)

theorem execVquant_keeps (c : Nat) : NextKeeps s (execVquant c s) :=
  .engine fun _ _ _ _ => .bind fun _ _ => .bind fun _ _ => .bind fun _ _ => .bind fun _ _ =>
    .ok ((writeTensor_keeps _ _ _ _ _).trans (convSat_keeps _ _ _ _))

theorem execVbin_keeps (c : Nat) : NextKeeps s (execVbin c s) :=
  .engine fun _ _ _ _ => .bind fun _ _ => .bind fun _ _ => .bind fun _ _ => .bind fun _ _ => by
    split
    · exact .error
    · exact .bind fun _ _ => .bind fun _ _ => .ok (writeResult_keeps _ _ _ _ _ _ _)

theorem execVfma_keeps (c : Nat) : NextKeeps s (execVfma c s) :=
  .engine fun _ _ _ _ => .bind fun _ _ => .bind fun _ _ => .bind fun _ _ => .bind fun _ _ => .bind fun _ _ =>
    .bind fun _ _ => .bind fun _ _ => .bind fun _ _ => .ok (writeResult_keeps _ _ _ _ _ _ _)

theorem execVfunc_keeps (c : Nat) : NextKeeps s (execVfunc c s) :=
  .engine fun _ _ _ _ => .bind fun _ _ => .bind fun _ _ => .bind fun _ _ => .bind fun _ _ => .ok (writeResult_keeps _ _ _ _ _ _ _)

theorem execVred_keeps (c : Nat) : NextKeeps s (execVred c s) :=
  .engine fun _ _ _ _ => .bind fun _ _ => .bind fun _ _ => .bind fun _ _ => .bind fun _ _ =>
    .ok ((writeTensor_keeps _ _ _ _ _).trans (convSat_keeps _ _ _ _))

theorem execVbits_keeps (c : Nat) : NextKeeps s (execVbits c s) :=
  .engine fun _ _ _ _ => .bind fun _ _ => .ite .error (.ok (writePlane_keeps _ _ _ _ _))

theorem execLoad_keeps (c : Nat) : NextKeeps s (execLoad c s) :=
  .engine fun _ _ _ _ => .bind fun _ _ => .bind fun _ _ => .bind fun _ _ => .bind fun _ hr =>
    .ok ((loadPieces_keeps hr).trans (startTxns_keeps _ _ _ _))

theorem execStore_keeps (c : Nat) : NextKeeps s (execStore c s) :=
  .engine fun _ _ _ _ => .bind fun _ _ => .bind fun _ _ => .bind fun _ _ => .ite .error (.bind fun _ hr =>
    .ok ((storePieces_keeps hr).trans (startTxns_keeps _ _ _ _)))

theorem execSend_keeps (c : Nat) : NextKeeps s (execSend c s) :=
  .engine fun _ _ s _ => .bind fun _ _ => .bind fun _ _ => .ok ((drawn_keeps 1 s).trans (sendPackets_keeps _ _ _ _ _))

theorem execMcast_keeps (c : Nat) : NextKeeps s (execMcast c s) :=
  .engine fun _ _ s _ => .bind fun _ _ => .bind fun _ _ =>
    .ite (.ok (.refl s)) (.ok ((drawn_keeps 1 s).trans (sendPackets_keeps _ _ _ _ _)))

theorem execReduce_keeps (c : Nat) : NextKeeps s (execReduce c s) :=
  .engine fun _ _ s _ => .bind fun _ _ => .bind fun _ _ => .ite .error
    (.ite (.ok (.refl s)) (.ok ((State.modCluster_keeps s _ _).trans (sendPackets_keeps _ _ _ _ _))))

theorem execCounters_keeps (c : Nat) : NextKeeps s (execCounters c s) :=
  .engine fun _ _ _ _ => .bind fun _ _ => .bind fun _ _ => .ok (writeRows_keeps _ _ _ _ _)

/-! ## Operations of a cluster controller and a reduction node -/

theorem execSync_keeps (c : Nat) : NextKeeps s (execSync c s) := .ite (.control fun _ _ s => .ok (.refl s)) .same

theorem execRclear_keeps (c : Nat) : NextKeeps s (execRclear c s) :=
  .control fun _ _ s => .bind fun _ _ => .ok (State.modCluster_keeps s _ _)

theorem execRdrain_keeps (c : Nat) : NextKeeps s (execRdrain c s) :=
  .ite .same (.control fun _ _ _ => .bind fun _ _ => .bind fun _ ht => .ok ((rdrainWrite_keeps ht).trans (State.modCluster_keeps _ _ _)))

theorem execTime_keeps (c : Nat) : NextKeeps s (execTime c s) :=
  .control fun _ _ s => .bind fun _ _ => .bind fun _ _ => .ok ((readFollower_keeps c s).trans (writeCores_keeps _ _ _ _ _))

theorem execCtxread_keeps (c : Nat) : NextKeeps s (execCtxread c s) :=
  .control fun _ _ _ => .bind fun _ _ => .bind fun _ _ => by
    split
    case h_1 => exact .error
    case h_2 ht => exact .ok (writeVa_keeps ht)

theorem execRelease_keeps (c : Nat) : NextKeeps s (execRelease c s) :=
  .control fun _ _ s => .bind fun _ _ => .ok (State.setCtx_keeps s _ _)

theorem execStepEnd_keeps (c : Nat) : NextKeeps s (execStepEnd c s) := by
  unfold execStepEnd
  split
  · exact .same
  · exact .needs (State.modCluster_keeps s c _)

theorem execEntropy_keeps (c : Nat) : NextKeeps s (execEntropy c s) := by
  unfold execEntropy
  split
  case h_1 => exact .same
  case h_2 =>
    refine .ite (.next (advance_keeps c s)) (.ite (.next (stopLaunch_keeps _ _ s)) ?_)
    split
    case h_1 => exact .next (stopLaunch_keeps _ _ s)
    case h_2 ht => exact .next ((askEntropy_keeps ht).trans (State.modCluster_keeps _ c _))

theorem execLoadimg_keeps (c : Nat) : NextKeeps s (execLoadimg c s) := by
  unfold execLoadimg
  split
  case h_1 => exact .same
  case h_2 =>
    refine .ite (.next (advance_keeps c s)) ?_
    split
    case h_1 => exact .next (invalidOp_keeps c _ _ s)
    case h_2 ht => exact .next ((loadStep_keeps ht).trans (.ite _ (advance_keeps c _) (.refl _)))

/-- What an issue of ANNEAL does once its run is there. -/
theorem annealIssue_keeps (c n : Nat) (ln : Launch) (s : State) : Keeps s (passAnneal c n ln (energyStep c n ln s)) :=
  (energyStep_keeps c n ln s).trans (passAnneal_keeps c n ln _)

theorem execAnneal_keeps (c : Nat) : NextKeeps s (execAnneal c s) := by
  unfold execAnneal
  split
  case h_1 => exact .same
  case h_2 ln o _ =>
    refine .ite (.next (advance_keeps c s)) ?_
    split
    case h_1 => exact .ite (.next (annealIssue_keeps c _ ln s)) .same
    case h_2 =>
      split
      case h_1 => exact .next (invalidOp_keeps c _ ln s)
      case h_2 =>
        refine .ite (.next (invalidOp_keeps c _ ln s)) ?_
        split
        case h_1 => exact .next (haltLaunch_keeps _ _ _ _ s)
        case h_2 ht => exact .next ((startRun_keeps ht).trans (annealIssue_keeps c _ ln _))

/-! ## The steps of a run -/

theorem endStopped_keeps {ln : Launch} {r : Run} {t : State} (h : endStopped ln r s = some t) : Keeps s t := by
  obtain ⟨st, -, rfl⟩ := Option.map_eq_some_iff.mp h
  exact stopLaunch_keeps _ _ s

/-- A step of a run: a run whose trace has stopped ends, a step that fails stops the run, and one that ends well keeps. -/
theorem runStep_keeps {ln : Launch} {r : Run} {n : Nat} {x : Except Halt State} :
    OkKeeps s id x → NextKeeps s (match endStopped ln r s with
      | some t => .next t
      | none => match x with
        | .error h => .next (stopAnneal r.cluster n ln h s)
        | .ok t => .next t) := by
  intro hx
  split
  case h_1 ht => exact .next (endStopped_keeps ht)
  case h_2 =>
    split
    case h_1 => exact .next (stopAnneal_keeps _ _ _ _ s)
    case h_2 t => exact .next (hx t rfl)

theorem execAnnealPhase_keeps (n : Nat) : NextKeeps s (execAnnealPhase n s) := by
  unfold execAnnealPhase
  split
  · exact .same
  · exact .ite .same (runStep_keeps fun _ => phaseStep_keeps)

theorem execSweepEnd_keeps (n : Nat) : NextKeeps s (execSweepEnd n s) := by
  unfold execSweepEnd
  split
  · exact .same
  · exact .ite .same (runStep_keeps fun _ => sweepStep_keeps)

theorem execRotationStart_keeps (n : Nat) : NextKeeps s (execRotationStart n s) := by
  unfold execRotationStart
  split
  · exact .same
  · exact .ite .same (runStep_keeps fun _ => rotationStep_keeps)

theorem execCheckpointWrite_keeps (n : Nat) : NextKeeps s (execCheckpointWrite n s) := by
  unfold execCheckpointWrite
  split
  case h_1 => exact .same
  case h_2 ln r _ =>
    refine .ite .same ?_
    split
    case h_1 ht => exact .next (endStopped_keeps ht)
    case h_2 =>
      refine .ite (.next ((State.setRun_keeps s n _).trans (feedStage_keeps _ n _))) (.ite .same ?_)
      split
      case h_1 => exact .next (stopAnneal_keeps _ _ _ _ s)
      case h_2 ht => exact .next (ckptStep_keeps ht)

theorem execTraceRingWrite_keeps (c : Nat) : NextKeeps s (execTraceRingWrite c s) := by
  unfold execTraceRingWrite
  refine .ite .same ?_
  split
  case h_1 => exact .next (feedAll_keeps c s)
  case h_2 =>
    split
    case h_1 => exact .next (popTrace_keeps c s)
    case h_2 => exact .next (.ite _ (popTrace_keeps c s) (writeRecord_keeps c _ _ _ s))

/-- A packet is consumed unless the run has finished. -/
theorem consumed_keeps {n d : Nat} {r : Run} {x : Exch} {pos : Nat} :
    OkKeeps s id (if r.next = .finished then .ok s else consumePacket n d r x s pos) :=
  .ite (.ok (.refl s)) fun _ => consumePacket_keeps

theorem execReportPacket_keeps (n d : Nat) : NextKeeps s (execReportPacket n d s) := by
  unfold execReportPacket
  split
  case h_1 => exact .same
  case h_2 =>
    refine .ite .same ?_
    split
    case h_1 => exact .next (haltLaunch_keeps _ _ _ _ s)
    case h_2 t ht =>
      have hkeeps : Keeps s t := consumed_keeps t ht
      split
      case h_1 => exact .next (.ite _ hkeeps (hkeeps.trans (haltLaunch_keeps _ _ _ _ t)))
      case h_2 hu => exact .next (hkeeps.trans (moveReports_keeps hu))

theorem execReportTimeout_keeps (n : Nat) : NextKeeps s (execReportTimeout n s) := by
  unfold execReportTimeout
  split
  · exact .same
  · exact .needs (stopLaunch_keeps _ _ s)

/-! ## Launches -/

theorem execLaunchFetch_keeps (q : Nat) : NextKeeps s (execLaunchFetch q s) :=
  .ite .same (.ite (.next (State.setQueue_keeps s q _)) (.ite (.next (dispEvent_keeps 4 s)) (.needs (fetchRecord_keeps q s))))

theorem execLaunchStart_keeps (id : Nat) : NextKeeps s (execLaunchStart id s) := by
  unfold execLaunchStart
  split
  case h_1 => exact .same
  case h_2 ln _ =>
    refine .ite .same ?_
    split
    case h_1 => exact .needs (startNow_keeps ln s)
    case h_2 => exact .needs (decideStart_keeps s ln)
    case h_3 => exact .same

theorem execBarrierComplete_keeps (id : Nat) : NextKeeps s (execBarrierComplete id s) := by
  unfold execBarrierComplete
  split
  · exact .same
  · exact .needs (stopLaunch_keeps id 0 s)

theorem execDependencyCycle_keeps (ids : List Nat) : NextKeeps s (execDependencyCycle ids s) :=
  .needs (((dispCount_keeps _ _ _ s).trans (dispEvent_keeps 0 _)).trans (.foldl _ ids _ fun _ id => stopLaunch_keeps id _ _))

theorem execPacedStepStart_keeps (c : Nat) : NextKeeps s (execPacedStepStart c s) := by
  unfold execPacedStepStart
  split
  case h_1 => exact .same
  case h_2 =>
    have hread := readFollower_keeps c s
    exact .ite .same (.ite (.next hread) (.next (hread.trans (State.modCluster_keeps _ c _))))

theorem execStepBoundExpiry_keeps (id : Nat) : NextKeeps s (execStepBoundExpiry id s) := by
  unfold execStepBoundExpiry
  split
  case h_1 => exact .same
  case h_2 =>
    split
    · exact .same
    · exact .needs (stopLaunch_keeps id _ s)

theorem execStepRecompute_keeps (c : Nat) : NextKeeps s (execStepRecompute c s) := by
  unfold execStepRecompute
  split
  case h_1 a ln _ _ =>
    have hstop (st : Nat) : NextKeeps s (.next (stopLaunch ln.id st s)) := .next (stopLaunch_keeps _ st s)
    exact .ite .same (.ite (hstop _) (.ite (hstop _) (.ite (hstop _) (.needs (recompute_keeps c ln a s)))))
  case h_2 => exact .same

theorem execLaunchWideStepEnd_keeps (id : Nat) : NextKeeps s (execLaunchWideStepEnd id s) := by
  unfold execLaunchWideStepEnd
  split
  case h_1 => exact .same
  case h_2 ln _ =>
    refine .ite .same ?_
    extract_lets again ended s₁ s₂
    have hclosed : Keeps s s₂ :=
      ((Keeps.foldl _ ended s runStopped_keeps).trans (Keeps.runs s₁ _)).trans (closeExecution_keeps ln _)
    split
    case h_1 =>
      split
      · exact .next (hclosed.trans (stopLaunch_keeps _ _ _))
      · exact .next (hclosed.trans (afterExecution_keeps _ _ _ _))
    case h_2 => exact .next hclosed

theorem execLaunchComplete_keeps (id : Nat) : NextKeeps s (execLaunchComplete id s) := by
  unfold execLaunchComplete
  split
  case h_1 => exact .same
  case h_2 ln _ =>
    refine .ite .same (.ite (.next (emitEnds_keeps ln s)) (.ite .same (.ite (.next (makeDigest_keeps ln s)) ?_)))
    extract_lets s₁
    have hclean : Keeps s s₁ := cleanUp_keeps ln s
    split
    · exact .next (hclean.trans (finishLaunch_keeps _ _))
    · exact .next hclean

/-! ## Groups and pairs -/

theorem execBarrierPoll_keeps (id : Nat) : NextKeeps s (execBarrierPoll id s) := by
  unfold execBarrierPoll
  split
  case h_1 => exact .same
  case h_2 =>
    split
    · exact .same
    · exact .needs (barrierAsk_keeps _ _ s)

theorem execBarrierTimeout_keeps (id : Nat) : NextKeeps s (execBarrierTimeout id s) := by
  unfold execBarrierTimeout
  split
  case h_1 => exact .same
  case h_2 =>
    split
    · exact .same
    · exact .needs (stopLaunch_keeps id _ s)

theorem execDigestPacket_keeps (src : Nat) (tag seq sweep : Word) (digest : List Byte) :
    NextKeeps s (execDigestPacket src tag seq sweep digest s) := by
  unfold execDigestPacket
  extract_lets _ s₁
  refine .ite .same ?_
  have hback : Keeps s s₁ := peerBack_keeps src s
  split
  case h_1 => exact .next hback
  case h_2 =>
    split
    · exact .next hback
    · exact .next ((hback.trans (setGroup_keeps _ _ _)).trans (comparePair_keeps _ _))

theorem execDigestTimeout_keeps (id : Nat) : NextKeeps s (execDigestTimeout id s) := by
  unfold execDigestTimeout
  split
  case h_1 => exact .same
  case h_2 =>
    split
    · exact .same
    · exact .needs ((setGroup_keeps id _ s).trans (stopLaunch_keeps id _ _))

end Sys2Proof.Machine
end

section
/-! PROOFS. What the other commands keep whose outcome depends on more than one condition: memory and links, orders and events. -/

namespace Sys2Proof.Machine

variable {s : State}

/-! ## Memory, ports and links -/

theorem execGddr7Burst_keeps (addr : Nat) (write : Bool) (crcFails ecc : Nat) :
    NextKeeps s (execGddr7Burst addr write crcFails ecc s) :=
  .ite (.needs (burst_keeps _ _ _ _ s)) (.needs (grantBurst_keeps _ _ s))

/-- The bytes of expanders that commands have shown are no part of the stores that Mem.wf names. -/
theorem Keeps.cxl (s : State) (m : Map Byte) (shown : Map Bool) :
    Keeps s { s with mem := { s.mem with cxl := m, cxlShown := shown } } := ⟨.refl s, id⟩

theorem execCxlReadResponse_keeps (port addr : Nat) (data : List Byte) (poison : Bool) :
    NextKeeps s (execCxlReadResponse port addr data poison s) := by
  unfold execCxlReadResponse
  extract_lets a shown
  clear_value a shown
  exact .needs ((grantResponse_keeps port a _).after
    (.ite _ ((cxlCountPoison_keeps port _).after (.cxl s s.mem.cxl shown)) (.cxl s _ shown)))

theorem execHostReadCompletion_keeps (addr : Nat) (data : List Byte) (outcome : HostRead) :
    NextKeeps s (execHostReadCompletion addr data outcome s) :=
  .needs (.ite _ ⟨.refl s, id⟩ ((hostEvent_keeps 4 _).after ⟨.refl s, id⟩))

theorem execLaserLoss_keeps (engine : Nat) : NextKeeps s (execLaserLoss engine s) :=
  have hlaser := setLaser_keeps engine false s
  .needs (.ite _ ((hlaser.trans (logRecord_keeps _ _)).trans (darkPort_keeps engine _)) hlaser)

theorem execOe17SubstitutionDone_keeps (p : Nat) (ok : Bool) : NextKeeps s (execOe17SubstitutionDone p ok s) :=
  .ite .same (.ite (.needs (resumeOn_keeps p _ s)) (.needs (goDown_keeps p s)))

theorem execHostLinkMoveDone_keeps (ok recovered : Bool) : NextKeeps s (execHostLinkMoveDone ok recovered s) := by
  unfold execHostLinkMoveDone
  split
  case h_1 => exact .same
  case h_2 e _ =>
    refine .needs (.ite _ (endHostMove_keeps _ _ s) (.ite _ ?recovered ((linkDown_keeps s).trans (endHostMove_keeps _ _ _))))
    have hengine : Keeps s { s with hostp := { s.hostp with engine := e } } := .refl s
    exact (hengine.trans (hostEvent_keeps 1 _)).trans (endHostMove_keeps true e _)

theorem execRegisterWrite_keeps (source : Source) (addr size : Nat) (value : Word) :
    NextKeeps s (execRegisterWrite source addr size value s) := by
  unfold execRegisterWrite
  split
  · exact .ite .same (.ite (.next (badAccess_keeps true addr size s)) (.next (writeReg_keeps _ _ _ _ s)))
  · exact .needs (writeReg_keeps _ _ _ _ s)

/-- A packet that cannot move leaves the state as it is. -/
theorem movedOrSame_keeps {n : Nat} {k : Pkt} {bad : BitVec 17} : Keeps s ((movePacket s n k bad).getD s) := by
  cases h : movePacket s n k bad with
  | none => exact .refl s
  | some t => exact movePacket_keeps h

theorem execRouterPacket_keeps (fifo : Nat) (badMain badCopy : BitVec 8) (badFlits : BitVec 17) :
    NextKeeps s (execRouterPacket fifo badMain badCopy badFlits s) := by
  unfold execRouterPacket
  split
  case h_1 => exact .same
  case h_2 => exact .ite .same (.ite (.next (dropPacket_keeps s fifo)) (.ite (.next (readHead_keeps s fifo _ _)) (.next movedOrSame_keeps)))

theorem execMcastPacketAccept_keeps (fifo : Nat) : NextKeeps s (execMcastPacketAccept fifo s) := by
  unfold execMcastPacketAccept
  split
  · exact .ite .same (.next movedOrSame_keeps)
  · exact .same

theorem execReductionPartialArrival_keeps (c : Nat) : NextKeeps s (execReductionPartialArrival c s) := by
  unfold execReductionPartialArrival
  extract_lets n
  split
  · exact .same
  · exact .ite .same (.next (((popFifo_keeps s n).trans (ackSources_keeps _ c _)).trans (takePartial_keeps c _ _)))

theorem execSilkTransactionTimeout_keeps (tag : Nat) : NextKeeps s (execSilkTransactionTimeout tag s) := by
  unfold execSilkTransactionTimeout
  split
  · exact .same
  · exact .needs (timeOut_keeps _ s)

theorem execTimeRequestSend_keeps : NextKeeps s (execTimeRequestSend s) :=
  .needs ((sendControl_keeps _ _ _ _ s).trans (setSync3_keeps _ _))

theorem execTimeResponse_keeps (t1 t2 t3 t4 : Word) : NextKeeps s (execTimeResponse t1 t2 t3 t4 s) :=
  .needs ((((peerBack_keeps _ s).trans (setSync3_keeps _ _)).trans (setOffsets_keeps _ _ _)).trans (applyOffset_keeps _ _))

theorem execDeferredCricketCorrection_keeps : NextKeeps s (execDeferredCricketCorrection s) := by
  unfold execDeferredCricketCorrection
  split
  · exact .same
  · exact .needs ((setSync3_keeps _ s).trans (correct_keeps _ _))

/-! ## The entropy source -/

theorem execGenerateRequest_keeps (requester bits : Nat) : NextKeeps s (execGenerateRequest requester bits s) := by
  refine .needs ?_
  split
  case h_1 ht => exact askEntropy_keeps ht
  case h_2 => exact .refl s

theorem execGenerateDeliver_keeps : NextKeeps s (execGenerateDeliver s) := by
  unfold execGenerateDeliver
  split
  · exact .needs (generate_keeps _ _ s)
  · exact .same

/-! ## Migration and the second tier -/

theorem execPageRetireOrder_keeps (asid va tier : Nat) : NextKeeps s (execPageRetireOrder asid va tier s) :=
  .ite (.needs ((takeNext_keeps s).trans (pageOrder_keeps asid va tier _))) (.needs (orderDispatcher_keeps _ s))

theorem execMigrationComplete_keeps (asid va : Nat) : NextKeeps s (execMigrationComplete asid va s) := by
  unfold execMigrationComplete
  split
  · exact .needs (endMove_keeps _ s)
  · exact .same

theorem execChannelRetireOrder_keeps (q k : Nat) : NextKeeps s (execChannelRetireOrder q k s) :=
  .ite (.needs ((takeNext_keeps s).trans (receiveRetire_keeps q k _))) (.needs (beginRetire_keeps q k s))

theorem execCxlDeviceRemoved_keeps (port base : Nat) : NextKeeps s (execCxlDeviceRemoved port base s) := by
  unfold execCxlDeviceRemoved
  split
  · exact .needs (drainRound_keeps (removeDevice_keeps port _))
  · exact .same

/-! ## Orders, events and firmware -/

theorem execFenceOrder_keeps (c : Nat) : NextKeeps s (execFenceOrder c s) := by
  unfold execFenceOrder
  split
  · exact .needs (((popOrder_keeps c s).trans (applyFence_keeps c _ _)).trans (orderDone_keeps c 0 _ _))
  · exact .same

theorem execRetireSliceOrder_keeps (c : Nat) : NextKeeps s (execRetireSliceOrder c s) := by
  unfold execRetireSliceOrder
  split
  case h_1 sl r _ _ =>
    refine .ite .same ?_
    extract_lets s₁ x
    have hretired : Keeps s₁ x.1 := by
      unfold x
      split
      · exact retireSlice_keeps c sl s₁
      · exact .refl s₁
    exact .next (((popOrder_keeps c s).trans hretired).trans (orderDone_keeps c _ r _))
  case h_2 => exact .same

theorem execHandoverOrder_keeps (c : Nat) (runs : Bool) : NextKeeps s (execHandoverOrder c runs s) := by
  unfold execHandoverOrder
  split
  · have hout := Keeps.ite (runs = true) (State.modCluster_keeps (popOrder c s) c fun k => { k with newFw := true })
      (outOfService_keeps c _)
    exact .needs ((((popOrder_keeps c s).trans hout).trans (markChanged_keeps _)).trans (sendResult_keeps c _ _))
  · exact .same

theorem execDispatcherHandover_keeps : NextKeeps s (execDispatcherHandover s) :=
  .needs ((markChanged_keeps _).after ((stepOp_keeps 2 6 0 _).after (.refl s)))

theorem execMantisHandover_keeps : NextKeeps s (execMantisHandover s) := by
  unfold execMantisHandover
  split
  · exact .same
  · exact .needs ((endOp_keeps 2 true 0 _).after ((logOwn_keeps 14 0 _).after ((markChanged_keeps _).after (.refl s))))

theorem execSanitiseOrder_keeps (failedWords : Nat) : NextKeeps s (execSanitiseOrder failedWords s) := by
  have hwipe (k : Nat) : NextKeeps s (.next (passed k 0 (wipe s))) := .next ((wipe_keeps s).trans (passed_keeps k 0 _))
  have hpattern (k : Nat) (b : Byte) : NextKeeps s (.next (passed k failedWords (writePattern b s))) :=
    .next ((writePattern_keeps b s).trans (passed_keeps k failedWords _))
  unfold execSanitiseOrder
  refine .ite .same ?_
  split
  · exact hwipe 2
  · exact hpattern 3 0x55
  · exact hpattern 4 0xAA
  · exact hwipe 5
  · exact .same

theorem execSanitiseComplete_keeps : NextKeeps s (execSanitiseComplete s) :=
  .needs ((endOp_keeps 3 _ _ _).after ((logOwn_keeps 15 _ _).after (.refl s)))

theorem execEventRecord_keeps : NextKeeps s (execEventRecord s) := by
  unfold execEventRecord
  split
  case h_1 => exact .same
  case h_2 =>
    have hpop := popFifo_keeps s recordFifo
    refine .needs ?_
    split
    · exact hpop.trans (receiveRecord_keeps _ _)
    · exact hpop.trans (receiveResult_keeps _ _)
    · exact hpop

theorem execFaultReport_keeps (cluster position addr : Nat) (decision : Decision) :
    NextKeeps s (execFaultReport cluster position addr decision s) := by
  refine .needs ?_
  split
  · exact (logRecord_keeps _ s).trans (fenceIndex_keeps cluster position _ _)
  · exact (logRecord_keeps _ s).trans (sendDecision_keeps cluster decision _)

theorem execBadCommand_keeps (m : Nat) : NextKeeps s (execBadCommand m s) := by
  unfold execBadCommand
  split
  case h_1 => exact .same
  case h_2 =>
    have hpop := popRequest_keeps m s
    exact .ite (.next (hpop.trans (answer_keeps m _ _))) (.needs (hpop.trans (respond_keeps m _ _ _ _)))

/-! ## The mailbox commands with a choice of answers -/

theorem execLinkRemoveExpander_keeps (m : Nat) : NextKeeps s (execLinkRemoveExpander m s) :=
  .mailbox (linkCmd_keeps fun _ _ _ s => by
    split
    · exact .error
    · exact .bind fun _ _ => .ok (beginRemove_keeps _ _ s))

theorem execLinkOe17Takeover_keeps (m : Nat) : NextKeeps s (execLinkOe17Takeover m s) :=
  .mailbox (linkCmd_keeps fun e _ _ s => .bind fun _ _ => .bind fun _ _ => .bind fun _ _ =>
    .ok ((beginMoveEngine_keeps e 17 _).after (beginLink_keeps (.takeover e) s)))

theorem execLinkOe17Handback_keeps (m : Nat) : NextKeeps s (execLinkOe17Handback m s) :=
  .mailbox (linkCmd_keeps fun _ _ _ s => .bind fun _ _ => by
    split
    · exact .error
    · exact .ok ((beginLink_keeps .handback s).trans (beginMoveEngine_keeps _ _ _)))

theorem execSanitise_keeps (m : Nat) : NextKeeps s (execSanitise m s) :=
  .mailbox fun _ _ s => .bind fun _ _ => .bind fun _ _ => .bind fun _ _ => .ok ((startOp_keeps 3 1 _).after (.refl s))

theorem Keeps.updating (s : State) (b : Bool) : Keeps s { s with mgmt := { s.mgmt with updating := b } } := .refl s

theorem execFwBegin_keeps (m : Nat) : NextKeeps s (execFwBegin m s) :=
  .mailbox fun _ _ s => .bind fun _ _ => .bind fun _ _ => .bind fun _ _ => .bind fun _ _ =>
    .ok ((Keeps.updating _ _).after (setUpload_keeps _ s))

theorem execCoreMapFence_keeps (m : Nat) : NextKeeps s (execCoreMapFence m s) :=
  .mailbox (coreMapCmd_keeps fun c _ _ s => .ite (.ok (.refl s)) (.ok (sendOrder_keeps c _ s)))

end Sys2Proof.Machine
end

section
/-! PROOFS. What a step does to the queue of commands. All but nine commands keep everything that Keeps names; the nine, which change the
power, the straps, the fuses or the operating point, keep the queue. -/

namespace Sys2Proof.Machine

/-! ## Commands under which power, straps, fuses and the operating point stand -/

/-- The commands that may change the power, the straps, the fuses, or the operating point and the requests for it. -/
def unsettles : Instr → Bool
  | .powerGood .. | .resetInput _ | .refclkLoss _ | .coldPowerUp .. | .thermalTrip .. | .functionLevelReset | .oppointSet _
  | .svnFuseBlown | .rampEnd => true
  | _ => false

/-- Every other command keeps the queue, the fuses, the power, the straps, the operating point and the form of memory. -/
theorem exec_keeps (i : Instr) (hi : unsettles i = false) (s : State) : NextKeeps s (exec i s) := by
  cases i with
  | powerGood | resetInput | refclkLoss | coldPowerUp | thermalTrip | functionLevelReset | oppointSet | svnFuseBlown | rampEnd => cases hi
  | laserLoss engine => exact execLaserLoss_keeps engine
  | laserReady engine => exact .needs (setLaser_keeps engine true s)
  | tapReset => exact .needs (.refl s)
  | extest pins => exact .needs (captureBoundary_keeps 0x00 pins s)
  | samplePreload pins => exact .needs (captureBoundary_keeps 0x01 pins s)
  | idcode => exact .needs (shifted_keeps 0x02 _ _ 32 s)
  | optLoop value => exact .needs (.refl s)
  | optResult locked errors => exact .needs (shifted_keeps 0x11 _ _ 432 s)
  | bypass tdi => exact .needs (shifted_keeps 0xFF _ 0 1 s)
  | bar0BadAccess write offset size => exact .needs (badAccess_keeps write offset size s)
  | apertureRead offset size => exact .needs (apertureRead_keeps _ size s)
  | apertureWrite offset data poisoned => exact .needs (apertureWrite_keeps _ data poisoned s)
  | registerWrite source addr size value => exact execRegisterWrite_keeps source addr size value
  | sqTailWrite q v => exact .needs (ringTail_keeps q v s)
  | cqHeadWrite q v => exact .needs (ringHead_keeps q v s)
  | cqArmWrite q arm => exact .needs (ringArm_keeps q arm s)
  | queueEnable q => exact .needs (queueControl_keeps _ s)
  | queueDisable q => exact .needs (queueControl_keeps _ s)
  | syncValueWrite n v => exact .needs (syncRaise_keeps n v s)
  | syncOwnerWrite g v => exact .needs (setOwner_keeps g v s)
  | invalPage asid => exact .needs (writeInval_keeps _ s)
  | invalAddressSpace asid => exact .needs (writeInval_keeps _ s)
  | invalAll asid => exact .needs (writeInval_keeps _ s)
  | invalReservedScope asid => exact .needs (writeInval_keeps _ s)
  | invalidationComplete => exact .needs (endInval_keeps s)
  | migHoldRequest asid all => exact .needs (writeMigHold_keeps _ s)
  | migHoldRelease asid all => exact .needs (writeMigHold_keeps _ s)
  | migHoldHeld => exact .needs (.refl s)
  | silkRouteWrite n ports => exact .needs (writeRoute_keeps n ports s)
  | mbReqWrite m w => exact .needs (State.setBox_keeps s m _)
  | mbCommit m poison => exact .needs (mailCommit_keeps m poison s)
  | mbAbort m => exact .needs (State.setBox_keeps s m _)
  | mbFlush m => exact .needs (State.setBox_keeps s m _)
  | mbRspRead m => exact .needs ((State.setBox_keeps s m _).trans (State.emit_keeps _ _))
  | mbResponseWrite m => exact .needs (State.setBox_keeps s m _)
  | identify m => exact .mailbox fun _ _ s => .ok (drawn_keeps 1 s)
  | configSet m => exact .mailbox fun _ _ s => .bind fun _ _ => .bind fun _ _ => .ok (.refl s)
  | oppointGet m => exact .mailbox fun _ _ s => .ok (.refl s)
  | admissionRead m => exact .mailbox fun _ _ s => .ok (.refl s)
  | coreMapReport m => exact .mailbox (coreMapCmd_keeps fun _ _ _ s => .ok (.refl s))
  | coreMapFence m => exact execCoreMapFence_keeps m
  | coreMapRetireSlice m => exact .mailbox (coreMapCmd_keeps fun c _ _ s => .ok (sendOrder_keeps c _ s))
  | coreMapClusterReset m => exact .mailbox (coreMapCmd_keeps fun _ _ _ s => .ok (orderDispatcher_keeps _ s))
  | tierPolicySet m => exact .mailbox fun _ _ s => .bind fun _ _ => .ok (.refl s)
  | tierPolicyGet m => exact .mailbox fun _ _ s => .bind fun _ _ => .ok (.refl s)
  | framePoolAdd m => exact .mailbox (framePoolCmd_keeps fun _ _ _ _ _ => addFrames_keeps)
  | framePoolRemove m => exact .mailbox (framePoolCmd_keeps removeFrames_keeps)
  | framePoolQuery m => exact .mailbox (framePoolCmd_keeps fun _ _ _ s => .ok (.refl s))
  | topologyRead m => exact .mailbox fun _ _ s => .bind fun _ _ => .ok (.refl s)
  | telemetryRead m => exact .mailbox telemetryReadCmd_keeps
  | eventRead m => exact .mailbox fun _ _ s => .bind fun _ _ => .ok (.refl s)
  | linkRetireChannel m =>
    exact .mailbox (linkCmd_keeps fun q k _ s => .bind fun _ _ => .bind fun _ _ => .bind fun _ _ => .ok (beginRetire_keeps q k s))
  | linkAddExpander m =>
    exact .mailbox (linkCmd_keeps fun _ _ _ s => .bind fun _ _ => .bind fun _ _ =>
      .ok ((beginLink_keeps _ s).trans (orderHub_keeps _ _ _)))
  | linkRemoveExpander m => exact execLinkRemoveExpander_keeps m
  | linkRetrainLane m =>
    exact .mailbox (linkCmd_keeps fun _ _ _ s => .bind fun _ _ => .bind fun _ _ =>
      .ok ((beginLink_keeps _ s).trans (orderHub_keeps _ _ _)))
  | linkOe17Takeover m => exact execLinkOe17Takeover_keeps m
  | linkOe17Handback m => exact execLinkOe17Handback_keeps m
  | linkSetSyncRole m => exact .mailbox (linkCmd_keeps fun _ _ _ s => .bind fun _ _ => .bind fun _ _ => .ok (.refl s))
  | fwBegin m => exact execFwBegin_keeps m
  | fwData m => exact .mailbox fwDataCmd_keeps
  | fwCommit m => exact .mailbox fwCommitCmd_keeps
  | fwAbort m => exact .mailbox fun _ _ s => .bind fun _ _ => .ok (.refl s)
  | sanitise m => exact execSanitise_keeps m
  | attest m => exact .mailbox attestCmd_keeps
  | pairSet m => exact .mailbox fun _ _ s => .bind fun _ _ => .bind fun _ _ => .ok (.refl s)
  | opStatus m => exact .mailbox fun _ _ s => .bind fun _ _ => .ok (drawn_keeps 1 s)
  | eventRecord => exact execEventRecord_keeps
  | counterSnapshot => exact .needs (takeSnapshot_keeps s)
  | heatSnapshot => exact .needs (takeHeat_keeps s)
  | telemetryRefresh temps supplies powers => exact .needs (.refl s)
  | faultReport cluster position addr decision => exact execFaultReport_keeps cluster position addr decision
  | fenceOrder c => exact execFenceOrder_keeps c
  | clusterUnitFault c => exact .needs (failCluster_keeps s c)
  | routerFault die => exact .needs (.foldl _ _ s fun s _ => failCluster_keeps s _)
  | retireSliceOrder c => exact execRetireSliceOrder_keeps c
  | channelRetireOrder q k => exact execChannelRetireOrder_keeps q k
  | channelRetireComplete q k => exact .needs (drainRound_keeps (retireChannel_keeps q k))
  | cxlDeviceAdded port capacity switched lanes speed => exact .needs (addDevice_keeps port capacity switched lanes speed s)
  | cxlDeviceRemoved port base => exact execCxlDeviceRemoved_keeps port base
  | pageRetireOrder asid va tier => exact execPageRetireOrder_keeps asid va tier
  | migrationComplete asid va => exact execMigrationComplete_keeps asid va
  | handoverOrder c runs => exact execHandoverOrder_keeps c runs
  | dispatcherHandover => exact execDispatcherHandover_keeps
  | mantisHandover => exact execMantisHandover_keeps
  | firmwareReady test => exact .needs ((applySelfTest_keeps test s).trans (becomeReady_keeps _ _))
  | clusterTestOrder c passed => exact .needs (testCluster_keeps c passed s)
  | sanitiseOrder failedWords => exact execSanitiseOrder_keeps failedWords
  | sanitiseComplete => exact execSanitiseComplete_keeps
  | abortOrder die => exact .needs ((takeNext_keeps s).trans (.foldl _ _ _ abortLaunch_keeps))
  | rampBegin => exact .needs ((stepOp_keeps 1 2 0 _).after (.refl s))
  | launchFetch q => exact execLaunchFetch_keeps q
  | dependencyCycle launches => exact execDependencyCycle_keeps launches
  | preload c => exact .needs (.refl s)
  | launchStart id => exact execLaunchStart_keeps id
  | barrierComplete id => exact execBarrierComplete_keeps id
  | launchComplete id => exact execLaunchComplete_keeps id
  | pacedStepStart c => exact execPacedStepStart_keeps c
  | launchWideStepEnd id => exact execLaunchWideStepEnd_keeps id
  | stepBoundExpiry id => exact execStepBoundExpiry_keeps id
  | stepRecompute c => exact execStepRecompute_keeps c
  | nop c => exact .control fun _ _ s => .ok (.refl s)
  | stepEnd c => exact execStepEnd_keeps c
  | sync c => exact execSync_keeps c
  | time c => exact execTime_keeps c
  | entropy c => exact execEntropy_keeps c
  | rclear c => exact execRclear_keeps c
  | rdrain c => exact execRdrain_keeps c
  | clear c => exact execClear_keeps c
  | mma c => exact execMma_keeps c
  | drain c => exact execDrain_keeps c
  | vconv c => exact execVconv_keeps c
  | vquant c => exact execVquant_keeps c
  | vbin c => exact execVbin_keeps c
  | vfma c => exact execVfma_keeps c
  | vfunc c => exact execVfunc_keeps c
  | vred c => exact execVred_keeps c
  | vbits c => exact execVbits_keeps c
  | load c => exact execLoad_keeps c
  | store c => exact execStore_keeps c
  | send c => exact execSend_keeps c
  | mcast c => exact execMcast_keeps c
  | reduce c => exact execReduce_keeps c
  | counters c => exact execCounters_keeps c
  | anneal c => exact execAnneal_keeps c
  | gibbs c => exact execGibbs_keeps c
  | loadimg c => exact execLoadimg_keeps c
  | ctxread c => exact execCtxread_keeps c
  | release c => exact execRelease_keeps c
  | annealPhase ctx => exact execAnnealPhase_keeps ctx
  | sweepEnd ctx => exact execSweepEnd_keeps ctx
  | rotationStart ctx => exact execRotationStart_keeps ctx
  | checkpointWrite ctx => exact execCheckpointWrite_keeps ctx
  | traceRingWrite c => exact execTraceRingWrite_keeps c
  | reportPacket ctx sender => exact execReportPacket_keeps ctx sender
  | reportTimeout ctx => exact execReportTimeout_keeps ctx
  | reductionPartialArrival c => exact execReductionPartialArrival_keeps c
  | routerPacket fifo badMain badCopy badFlits => exact execRouterPacket_keeps fifo badMain badCopy badFlits
  | mcastPacketAccept fifo => exact execMcastPacketAccept_keeps fifo
  | gddr7Burst addr write crcFails ecc => exact execGddr7Burst_keeps addr write crcFails ecc
  | gddr7Refresh q k tempC => exact .needs (State.setGdc_keeps s q _)
  | channelFailed q k => exact .needs ((State.setGdc_keeps s q _).trans (gdcEvent_keeps q 3 _))
  | cxlLinkDown port =>
    exact .needs (((State.setCxl_keeps s port _).trans (cxlEvent_keeps port 0 _)).trans (pumpCxlPort_keeps port _))
  | silkFrameReceive p frame => exact .needs (receiveFrame_keeps p frame s)
  | silkReplayTimeout p => exact .needs ((portEvent_keeps p 1 s).trans (replay_keeps p _))
  | silkTrainingDone p lanes partnerEpoch partnerAck partner =>
    exact .needs (trainPort_keeps p lanes partnerEpoch partnerAck partner s)
  | silkPortDownTimeout p => exact .needs (goDown_keeps p s)
  | laneRetrainDone p ok =>
    exact .needs (((State.setPort_keeps s p _).trans (silkEvent_keeps 1 _)).trans (portDone_keeps p ok _))
  | oe17SubstitutionDone p ok => exact execOe17SubstitutionDone_keeps p ok
  | hostLinkMoveDone ok recovered => exact execHostLinkMoveDone_keeps ok recovered
  | silkReadRequest src tag addr length => exact .needs ((peerBack_keeps src s).trans (performRead_keeps src tag addr length _))
  | silkWrite src tag addr data last => exact .needs ((peerBack_keeps src s).trans (performWrite_keeps src tag addr data last _))
  | silkAtomic src tag kind addr a b => exact .needs ((peerBack_keeps src s).trans (performPeerAtomic_keeps src tag kind addr a b _))
  | silkResponse src tag status data poisonMap last =>
    exact .needs ((peerBack_keeps src s).trans (respondTxn_keeps src tag status data poisonMap last _))
  | silkTransactionTimeout tag => exact execSilkTransactionTimeout_keeps tag
  | timeRequestSend => exact execTimeRequestSend_keeps
  | timeRequest src t1 t2 => exact .needs ((peerBack_keeps src s).trans (sendControl_keeps src 2 0 _ _))
  | timeResponse t1 t2 t3 t4 => exact execTimeResponse_keeps t1 t2 t3 t4
  | timeMeasurementTimeout => exact .needs (missMeasurement_keeps s)
  | deferredCricketCorrection => exact execDeferredCricketCorrection_keeps
  | barrierPoll id => exact execBarrierPoll_keeps id
  | barrierTimeout id => exact execBarrierTimeout_keeps id
  | digestPacket src tag seq sweep digest => exact execDigestPacket_keeps src tag seq sweep digest
  | digestTimeout id => exact execDigestTimeout_keeps id
  | entropySample counts => exact .needs (.refl s)
  | healthWindowEnd => exact .needs (windowEnd_keeps s)
  | generateRequest requester bits => exact execGenerateRequest_keeps requester bits
  | generateDeliver => exact execGenerateDeliver_keeps
  | badCommand m => exact execBadCommand_keeps m
  | cxlReadResponse port addr data poison => exact execCxlReadResponse_keeps port addr data poison
  | hostReadCompletion addr data outcome => exact execHostReadCompletion_keeps addr data outcome
  | hostLinkDown => exact .needs (linkDown_keeps s)

end Sys2Proof.Machine
end

section
/-! PROOFS. What the nine commands that may change the power, the straps, the fuses or the operating point do to the queue of commands,
and so what every command and every step does to it. -/

namespace Sys2Proof.Machine

theorem Keeps.pending {s t : State} (h : Keeps s t) : t.pending = s.pending := h.1.1

/-! ## Power (R966, R1018, R1046) -/

@[simp] theorem stopFuses_pending (s : State) : (stopFuses s).pending = s.pending := by
  unfold stopFuses
  split <;> rfl

@[simp] theorem powerDown_pending (s : State) : (powerDown s).pending = s.pending := by
  unfold powerDown
  split
  · exact stopFuses_pending s
  · rfl

@[simp] theorem powerUp_pending (straps : Straps) (s : State) : (powerUp straps s).pending = s.pending := rfl

/-- After the blowing of fuses has stopped, a function-level reset keeps. -/
theorem functionReset_keeps (s : State) : Keeps (stopFuses s) (functionReset s) := by
  unfold functionReset
  extract_lets s₁ s₂ s₃ s₄ s₅
  have hmoves : Keeps s₁ s₂ := .foldl _ _ s₁ fun s m => rollBack_keeps m s
  have hended : Keeps s₂ s₃ := (discardDrains_keeps _).after ((endAll_keeps _).after (restartContexts_keeps s₂))
  have hblocks : Keeps s₃ s₄ := .refl s₃
  have hboot : Keeps s₄ s₅ := (abandonUpload_keeps _).after (endSanitise_keeps s₄)
  exact ((hmoves.trans hended).trans (hblocks.trans hboot)).trans ((sendSummary_keeps _).after (.refl s₅))

/-! ## Operating points (R953 to R959) -/

@[simp] theorem replaceRecord_pending (point : Nat) (pending : Bool) (s : State) : (replaceRecord point pending s).pending = s.pending := by
  unfold replaceRecord
  dsimp only
  split <;> rfl

@[simp] theorem pendPoint_pending (pt : Nat) (s : State) : (pendPoint pt s).pending = s.pending := by
  unfold pendPoint
  rw [(startOp_keeps 1 1 _).pending]
  dsimp only
  split <;> exact replaceRecord_pending _ _ _

@[simp] theorem cancelPoint_pending (s : State) : (cancelPoint s).pending = s.pending :=
  (endOp_keeps 1 true 0 _).pending.trans (replaceRecord_pending _ _ _)

@[simp] theorem setPoint_pending (pt : Nat) (s : State) : (setPoint pt s).1.pending = s.pending := by
  unfold setPoint
  dsimp only
  split
  · rfl
  · split
    · exact pendPoint_pending pt s
    · split
      · exact cancelPoint_pending s
      · rfl

@[simp] theorem endRamp_pending (s : State) : (endRamp s).pending = s.pending := by
  have hended (u : State) (pt : Nat) : (endOp 1 true 0 (logOwn 13 pt (replaceRecord pt false u))).pending = u.pending :=
    ((endOp_keeps 1 true 0 _).after (logOwn_keeps 13 pt _)).pending.trans (replaceRecord_pending pt false u)
  unfold endRamp
  extract_lets pt next _ s₁ s₂
  clear_value next
  cases next with
  | some p => exact (setPoint_pending p s₂).trans (hended s₁ pt)
  | none => exact hended s₁ pt

/-! ## A mailbox command and a property of the state that Keeps respects -/

section
variable {P : State → Prop} {c : Cmd} (hP : ∀ {s t}, Keeps s t → P s → P t)
  (hc : ∀ m b s x, c.act m b s = .ok x → P s → P x.1)
include hP hc

theorem Cmd.run_inv (m : Nat) (b : List Byte) {s : State} (hs : P s) : P (c.run m b s) := by
  unfold Cmd.run
  split
  case h_1 => exact hP (respond_keeps m b _ [] s) hs
  case h_2 =>
    split
    case h_1 => exact hP (respond_keeps m b _ [] s) hs
    case h_2 ht => exact hP (respond_keeps m b _ _ _) (hc m b s _ ht hs)
    case h_3 ht => exact hP (State.setBox_keeps _ m _) (hc m b s _ ht hs)

theorem serve_inv {m : Nat} {want : List Byte → Bool} {s t : State} (h : serve m want c s = .next t) (hs : P s) : P t := by
  unfold serve at h
  split at h
  case h_1 =>
    cases h
    exact hs
  case h_2 =>
    unfold needs at h
    split at h
    · cases h
      exact c.run_inv hP hc m _ (hP (popRequest_keeps m s) hs)
    · cases h
      exact hs

end

/-! ## The queue -/

/-- Where an outcome is a next state, its queue is that of s. -/
def KeepsQueue (s : State) (o : Host.Outcome State Fault Refusal) : Prop := ∀ t, o = .next t → t.pending = s.pending

namespace KeepsQueue
variable {s : State}

theorem next {t : State} (h : t.pending = s.pending) : KeepsQueue s (.next t) := by
  rintro _ ⟨⟩
  exact h

theorem needs {c : Bool} {u : State} (h : u.pending = s.pending) : KeepsQueue s (needs c u s) := by
  unfold Machine.needs
  split
  · exact next h
  · exact next rfl

end KeepsQueue

theorem execResetInput_queue (ns : Nat) (s : State) : KeepsQueue s (execResetInput ns s) := by
  unfold execResetInput
  split
  · exact .next (powerDown_pending s)
  · split
    · exact .next (powerDown_pending (drawn 1 s))
    · exact .next rfl

theorem execColdPowerUp_queue (ns : Nat) (regulator : Bool) (s : State) : KeepsQueue s (execColdPowerUp ns regulator s) := by
  unfold execColdPowerUp
  split
  · exact .next (powerDown_pending s)
  · exact .needs (powerDown_pending s)

theorem execPowerGood_queue (boostEn complyEn rsvdA rsvdB : Bool) (width speed : Nat) (s : State) :
    KeepsQueue s (execPowerGood boostEn complyEn rsvdA rsvdB width speed s) := by
  unfold execPowerGood
  split
  · exact .next rfl
  · split
    · rintro _ ⟨⟩
    · exact .next (trainHost_keeps _ _ _).pending

theorem execSvnFuseBlown_queue (s : State) : KeepsQueue s (execSvnFuseBlown s) := by
  unfold execSvnFuseBlown
  split
  · exact .needs (settleAdvance_keeps _).pending
  · exact .next rfl

theorem execOppointSet_queue (m : Nat) (s : State) : KeepsQueue s (execOppointSet m s) := by
  intro t h
  refine serve_inv (P := fun u => u.pending = s.pending) (fun hkeeps hu => hkeeps.pending.trans hu) ?_ h rfl
  intro m b u x hx hu
  obtain ⟨_, -, hx⟩ := bind_ok hx
  obtain ⟨_, -, hx⟩ := bind_ok hx
  cases hx
  exact (setPoint_pending _ u).trans hu

theorem exec_queue (i : Instr) (s : State) : KeepsQueue s (exec i s) := by
  by_cases hi : unsettles i = false
  · exact fun t h => (exec_keeps i hi s t h).pending
  · cases i with
    | powerGood boostEn complyEn rsvdA rsvdB width speed => exact execPowerGood_queue boostEn complyEn rsvdA rsvdB width speed s
    | resetInput ns => exact execResetInput_queue ns s
    | refclkLoss ns => exact .needs (powerDown_pending s)
    | coldPowerUp ns regulator => exact execColdPowerUp_queue ns regulator s
    | thermalTrip sensor eighths => exact .needs (powerDown_pending s)
    | functionLevelReset => exact .needs ((functionReset_keeps s).pending.trans (stopFuses_pending s))
    | oppointSet m => exact execOppointSet_queue m s
    | svnFuseBlown => exact execSvnFuseBlown_queue s
    | rampEnd => exact .needs (endRamp_pending s)
    | _ => exact absurd rfl hi

/-! ## A step -/

theorem step_cons {s : State} {i : Instr} {rest : List Instr} (h : s.pending = i :: rest) :
    step s = exec i { s with pending := rest } := by
  simp only [step, h]

theorem step_nil {s : State} (h : s.pending = []) : step s = .next (tick s) := by simp only [step, h]

/-- Settles O55: nine commands have lemmas of their own on the queue, the others keep it with all that Keeps names, and a step runs its
command with the rest of the queue. -/
theorem noCommandChangesTheQueue : Obligations.NoCommandChangesTheQueue := by
  refine ⟨fun i s => exec_queue i s, fun s t h => ?_⟩
  cases hq : s.pending with
  | nil =>
    rw [step_nil hq] at h
    cases h
    exact (tick_pending s).trans hq
  | cons i rest =>
    rw [step_cons hq] at h
    exact exec_queue i _ t h

/-! ## A tick -/

theorem tick_on {s : State} (h : s.board.power = .good) :
    tick s = { s with pace := { s.pace with
      cricket := if s.pace.hold = 0 then (s.pace.cricket + 1) % 2 ^ 64 else s.pace.cricket
      hold := s.pace.hold - 1
      timeBase := (s.pace.timeBase + 1) % 2 ^ 64 } } := if_pos (by rw [State.on, h]; rfl)

theorem tick_off {s : State} (h : s.board.power = .down) : tick s = s := if_neg (by rw [State.on, h]; decide)

/-- Settles O54: a step by the front of its queue, and a tick of the empty one by the power and the hold of Cricket. -/
theorem stepRunsTheFrontCommand : Obligations.StepRunsTheFrontCommand := by
  refine ⟨fun _ _ _ => step_cons, fun s hq hpower => ⟨tick s, step_nil hq, ?_⟩, fun s hq hpower => ?_⟩
  · rw [tick_on hpower]
    refine ⟨rfl, rfl, fun hhold => ⟨if_pos hhold, ?_⟩, fun hhold => ⟨if_neg hhold, rfl⟩⟩
    show s.pace.hold - 1 = 0
    rw [hhold]
  · rw [step_nil hq, tick_off hpower]

end Sys2Proof.Machine
end
